-- ==== Sys2Proof/Word.lean ====
section
/-!
DEFINITION. The words of the block: bytes, 32-bit registers, and the index types of its repeated parts.
-/
namespace Sys2Proof

/-- One byte. -/
abbrev Byte := BitVec 8

/-- One BAR0 register or mailbox word (ch21: every BAR0 register is 32 bits wide). -/
abbrev Word := BitVec 32

/-- A mailbox channel, MBX_0 to MBX_9 (ch06 Table 06-1). -/
abbrev Chan := Fin 10

/-- A transport, TRN_0 to TRN_7 (ch13). -/
abbrev Trn := Fin 8

/-- A stream, 0 to 63 (ch14). -/
abbrev Strm := Fin 64

/-- An Ethernet port, ETH_0 or ETH_1 (ch08). -/
abbrev Port := Fin 2

end Sys2Proof
end

