-- ==== Sys2Proof/Syntax.lean ====
section
/-!
DEFINITION. The commands of the XF-4812, taken as a block: what its senders, links, pins and its own engines do to it,
one constructor per row of the opcode table, with the row's operands. An operand carries what the outside supplies:
a register value, a message, a reading, the bytes of a transfer, or the outcome of a thing the spec leaves to the
hardware (whether a codeword decodes, how long a thing took).
-/
namespace Sys2Proof

/-- The four origins that reach the registers (ch04, Origins). -/
inductive Origin where
  | pcie | i2c | debug | sup
  deriving DecidableEq, Repr

/-- What the far side gives to a prefetch (R172 to R174, Table 04-4). -/
inductive FarReply where
  | word (v : Word)
  | farError
  deriving DecidableEq, Repr

/-- A supply rail the formatter monitors (ch17). -/
inductive Rail where
  | vaon | vcore
  deriving DecidableEq, Repr

/-- The two PLLs whose loss is a reset (Table 03-7, code 0x5). -/
inductive CorePll where
  | core | hbm
  deriving DecidableEq, Repr

/-- A SerDes PLL, and the link on it (R136, R137). -/
inductive SerdesPll where
  | pcie
  | eth (p : Port)
  | trn (n : Trn)
  deriving DecidableEq, Repr

/-- A fixed-latency gearbox: a SerDes link's, or an HBM3 channel's of a stack (R137, Table 03-6). -/
inductive Gearbox where
  | link (l : SerdesPll)
  | hbm (stack : Fin 4)
  deriving DecidableEq, Repr

/-- What the flash's valid SFDP table lists (R147). -/
structure Sfdp where
  /-- The read modes 1-1-4 and 1-4-4. -/
  mode114 : Bool
  mode144 : Bool
  /-- 4-byte addressing. -/
  addr4 : Bool
  deriving DecidableEq, Repr

/-- What asks for the end of standby (R109). -/
inductive WakeBy where
  /-- A start condition and this address. -/
  | i2c (a : BitVec 7)
  /-- This level on this AUX pad. -/
  | aux (k : Fin 24) (pad : Bool)
  deriving DecidableEq, Repr

/-- How the control-SRAM self-test ends (R138, reason 0x01). -/
inductive SelfTest where
  | passed | failed
  deriving DecidableEq, Repr

/-- What the boot ROM has to check (R143, R146, R148). -/
inductive ImageFetch where
  /-- No flash answered, or no valid SFDP table was found (reason 0x04). -/
  | noFlash
  /-- The SFDP table, and the bytes at the flash slot tried. -/
  | flash (sfdp : Sfdp) (bytes : List Byte)
  /-- The image the host wrote to staging. -/
  | host
  deriving DecidableEq, Repr

/-- How Fjarma's initialisation ends (Table 03-9 step 10). -/
structure InitResult where
  ok : Bool
  /-- Engines whose known-answer test failed, bit e. -/
  cmpFailed : BitVec 16
  /-- Cipher units whose known-answer test failed, bit u. -/
  cipFailed : BitVec 8
  /-- Microseconds since the release of RESET_N. -/
  micros : Word
  deriving DecidableEq, Repr

/-- Internal SRAM whose uncorrectable error is a level-4 fault (Table 05-2). -/
inductive SramUnit where
  | dma | cmp | cip | fmt | vrf | sup
  deriving DecidableEq, Repr

/-- Internal SRAM whose corrected error has a level-0 leaf (Table 05-2). -/
inductive CorrUnit where
  | sup | cmp | dma
  deriving DecidableEq, Repr

/-- A request that may be answered with Unsupported Request (R157, R294, R831): a read or a write at BAR0, or one that the
PCIe controller refuses, wherever it goes. -/
inductive UrKind where
  | read
  | write (ws : List Word)
  | controller
  deriving DecidableEq, Repr

/-- The link's width, and the lanes whose data the receiver found inverted (R91, R318). -/
structure LinkLanes where
  width : Nat
  inverted : BitVec 16
  deriving DecidableEq, Repr

/-- A codeword of a port that FEC corrected, or could not (R382). -/
structure FecWord where
  port : Port
  corrected : Bool
  deriving DecidableEq, Repr

/-- An acknowledgement of what was sent up to a PSN, or a sequence-error NAK at it (R369). -/
structure RoceAck where
  psn : BitVec 24
  nak : Bool
  deriving DecidableEq, Repr

/-- A TAP instruction, and what is shifted into the data register it selects where a scan follows (R769). -/
structure TapInput where
  ir : BitVec 5
  scan : Option (BitVec 120)
  deriving DecidableEq, Repr

/-- A lane's checker locks, or reports bits in error (R793). -/
structure PrbsReport where
  lane : Nat
  errs : Nat
  deriving DecidableEq, Repr

/-- A configuration-space write the block acts on (R209, R307, R327, R334; ch07). -/
inductive CfgWrite where
  /-- Bus Master Enable. -/
  | bme (b : Bool)
  /-- Power state: D3hot or D0. -/
  | d3 (b : Bool)
  /-- Device Control: MPS and MRRS codes, Relaxed Ordering, No Snoop, 10-bit Tag Requester Enable. -/
  | devCtl (mps mrrs : BitVec 3) (ro ns tag10 : Bool)
  /-- MSI-X Enable and Function Mask. -/
  | msix (en fnMask : Bool)
  /-- A base address register, by its header offset. -/
  | bar (off : Nat) (v : Word)
  deriving DecidableEq, Repr
/-- What a PCIe read of the formatter was for. -/
inductive ReadTarget where
  /-- A pull of SQ entries (R329). -/
  | sq (s : Strm)
  /-- The payload of SQ entry `idx` (R328). -/
  | payload (s : Strm) (idx : Nat)
  /-- A descriptor fetch of host channel 24 + c (R332). -/
  | fetch (c : Fin 8)
  /-- Data or barrier read of host channel 24 + c's descriptor (R330). -/
  | data (c : Fin 8)
  deriving DecidableEq, Repr
/-- How a read completion fails (Table 07-8, details 0x01, 0x02, 0x04). -/
inductive ReadError where
  | ur | ca | poison
  deriving DecidableEq, Repr
/-- What a host channel's descriptor brings to its end. -/
inductive DescEnd where
  /-- Its reads brought these bytes (DIR = 0), or its writes were sent (DIR = 1, no bytes). -/
  | data (bs : List Byte)
  deriving DecidableEq, Repr
/-- Upsets found in the lines an access reads: line number, symbol, pattern (R407, Table 09-10's numbering;
symbol 35 stands for MARK). -/
abbrev Upset := List (Nat × Nat × BitVec 16)
/-- Who makes a narrow write (R414, R415). -/
inductive NarrowSrc where
  | bar2
  | dma (c : Fin 8)
  | sup
  deriving DecidableEq, Repr
/-- What a read-back channel brings of one codeword: its equaliser's outputs, or what the decoder made of them (Table 16-1;
log 189). -/
inductive CwSignal where
  /-- Equaliser outputs, one a channel bit: the 4,160 before the codeword; the codeword's 9,504 and the 96 after it. -/
  | samples (before out : List Int)
  /-- Global iterations after which all checks held, 0 when they never did; bits that differ between the decoded word and
  the first iteration's hard decisions; channel bits the defect detector erased; and the information bytes decoded, where
  they are not those written. -/
  | outcome (iters differ erased : Nat) (read : Option (List Byte))
  deriving DecidableEq, Repr
/-- One codeword as a read-back channel meets it (R607, R674, R675). -/
structure CwRead where
  /-- Channel bits from where its sync mark is expected to where it stands; none where none stands within 64. -/
  sync : Option Int
  /-- The ID word's CRC passed. -/
  idOk : Bool
  /-- ROW, CHANNEL, FILL and DSI equal those written. -/
  idSame : Bool
  signal : CwSignal
  deriving DecidableEq, Repr
/-- What the servo engine makes of one servo frame (R576). -/
structure ServoFrame where
  valid : Bool
  /-- PES in nm. -/
  pes : Int
  /-- Speed measured over the frame, in µm/s. -/
  speed : Nat
  lpos : Word
  deriving DecidableEq, Repr
/-- HELLO (Table 13-6). -/
structure HelloMsg where
  port : BitVec 3
  version : Byte
  serial : BitVec 48
  deriving DecidableEq, Repr
/-- An identity word on the inbound lane at position `lane` (R565), whether MBCOUNT and the release of R567 agree, and
whether the receiver found inverted data at this lock (R91). -/
structure LaneId where
  lane : Fin 10
  word : BitVec 48
  aligned : Bool
  inverted : Bool
  deriving DecidableEq, Repr
/-- MOTION_STAT (Table 13-6). -/
structure MotionMsg where
  state : BitVec 3
  /-- mm/s. -/
  speed : BitVec 16
  deriving DecidableEq, Repr
/-- CARTRIDGE (Table 13-6). -/
structure CartMsg where
  state : BitVec 2
  wp : Bool
  notXt1 : Bool
  /-- CARTRIDGE_ID, where one was read. -/
  id : Option (BitVec 64)
  lengthMm : Word
  deriving DecidableEq, Repr
/-- POWER (Table 13-6). -/
structure PowerMsg where
  holdup : Bool
  restored : Bool
  ms : BitVec 16
  deriving DecidableEq, Repr
/-- An IP address. -/
inductive Ip where
  | v4 (a : BitVec 32)
  | v6 (a : BitVec 128)
  deriving DecidableEq, Repr

/-- An ARP request or neighbour solicitation: the address asked for, and who asks (R20, R385). -/
structure ArpReq where
  target : Ip
  sender : Ip
  mac : BitVec 48
  deriving DecidableEq, Repr
/-- An ICMP or ICMPv6 echo request (R346). -/
structure EchoReq where
  dst : Ip
  src : Ip
  dataLen : Nat
  deriving DecidableEq, Repr
/-- Inbound RoCE opcodes, with CNP (Table 08-1). -/
inductive RoceOp where
  | writeFirst | writeMiddle | writeLast | writeOnly | writeLastImm | writeOnlyImm
  | sendFirst | sendMiddle | sendLast | sendOnly
  | cnp
  | other
  deriving DecidableEq, Repr

/-- One RoCE v2 packet received (R357). -/
structure RocePkt where
  qpn : BitVec 24
  op : RoceOp
  psn : BitVec 24
  /-- The packet is marked ECN CE. -/
  ce : Bool
  /-- RETH: virtual address, rkey and length, on a first or only WRITE. -/
  va : BitVec 64
  rkey : Word
  dmaLen : Nat
  /-- Immediate data. -/
  imm : Word
  payload : List Byte
  deriving DecidableEq, Repr
/-- A data set that passes under the head of a transport that is read (R674 to R678, R691). -/
structure DataSetRead where
  /-- For each row, the DSI bytes of the ID words whose CRC passed (R537, R560); none at all where no sync mark was found. -/
  ids : List (List Byte)
  /-- The data area as written. -/
  area : List Byte
  /-- Codewords, by row and channel, whose sync mark is not where it is expected, or which do not decode to the codeword
  written within 2 global iterations. In passes 3 and later their samples are the means of R691's step 4. -/
  cws : List ((Nat × Nat) × CwRead)
  /-- Those that found the deep decoder's queue full (R677). -/
  dropped : List (Nat × Nat)
  deriving DecidableEq, Repr

/-- The address of a system bus access, one that the agent writes or sbaddress0 as it stands, and whether it moves on (ch19,
The debug module). -/
inductive SbAddress where
  | put (a : Word) (auto : Bool)
  | next (auto : Bool)
  deriving DecidableEq, Repr

/-- The commands of the block: one constructor for each row of the opcode table. -/
inductive Instr where
  /-- SYS_INFO: Returns the identity, capacity or activity page that P1 names. (R246) -/
  | sysInfo (ch : Chan)
  /-- SYS_POWER_DOMAIN_ON: Accepts a long command that queues a switch-on of the named domain. (R280) -/
  | sysPowerDomainOn (ch : Chan)
  /-- SYS_POWER_DOMAIN_OFF: Accepts a long command that queues a switch-off of the named domain, subject to its precondition. (R99) -/
  | sysPowerDomainOff (ch : Chan)
  /-- SYS_POWER_AUTO_VRF_ON: Enables automatic gating of PD_VRFA and PD_VRFB by GOV. (R101) -/
  | sysPowerAutoVrfOn (ch : Chan)
  /-- SYS_POWER_AUTO_VRF_OFF: Disables automatic gating; the halves keep their current state. (R101) -/
  | sysPowerAutoVrfOff (ch : Chan)
  /-- SYS_POWER_STANDBY: Accepts a standby request when no stream, cartridge, record or long command remains. (R106) -/
  | sysPowerStandby (ch : Chan)
  /-- SYS_RESET: Posts OK and schedules a reset of source 0x8 exactly 1 ms later. (R282) -/
  | sysReset (ch : Chan)
  /-- SYS_AUDIT: Freezes every book in one CCLK and builds wide-value item 0x20 from the shadows. (R283) -/
  | sysAudit (ch : Chan)
  /-- SYS_FAULTS_STATUS: Returns FAULT_HALTED, FAULT_PENDING and the fault-log indices. (R286) -/
  | sysFaultsStatus (ch : Chan)
  /-- SYS_FAULTS_READ: Returns up to three fault-log entries from the index given. (R286) -/
  | sysFaultsRead (ch : Chan)
  /-- SYS_FAULTS_RELEASE: Releases every held fault-log entry whose index precedes P2. (R264) -/
  | sysFaultsRelease (ch : Chan)
  /-- SYS_FAULTS_RECOVER: Accepts a long command that recovers a halted block of a recoverable source. (R287) -/
  | sysFaultsRecover (ch : Chan)
  /-- SYS_CONFIG_GET: Returns a parameter's value, default, minimum and maximum. (R288) -/
  | sysConfigGet (ch : Chan)
  /-- SYS_CONFIG_SET: Sets a parameter after the range, open-stream, channel and payload-space checks. (R288) -/
  | sysConfigSet (ch : Chan)
  /-- UNKNOWN_OPCODE: A taken message whose opcode is not in the index is answered with E_OPCODE. (R830) -/
  | unknownOpcode (ch : Chan)
  /-- XPORT_INFO: Returns the port, cartridge, motion, wrap and LPOS state of a transport. (R588) -/
  | xportInfo (ch : Chan)
  /-- XPORT_LINK_START: Starts SYSREF, markers and LINK_START on an IDLE or restored port. (R589) -/
  | xportLinkStart (ch : Chan)
  /-- XPORT_LINK_STOP: Puts a port's downlinks into electrical idle when no cartridge or stream holds it. (R589) -/
  | xportLinkStop (ch : Chan)
  /-- XPORT_LOAD_WRITE: Loads a cartridge for writing: finds end of data, reads the manifest, positions and opens the session. (R590) -/
  | xportLoadWrite (ch : Chan)
  /-- XPORT_LOAD_READ: Loads a cartridge for reading and positions the tape at the start of wrap 0 without indexing. (R709) -/
  | xportLoadRead (ch : Chan)
  /-- XPORT_UNLOAD: Waits for verdicts, ends any writing session and sends UNLOAD. (R591) -/
  | xportUnload (ch : Chan)
  /-- XPORT_CLEAR: Clears DEGRADED on an UP port. (R592) -/
  | xportClear (ch : Chan)
  /-- XPORT_PARAM: Sets ACCEL, LOAD_TIMEOUT or OFFTRACK_NM while the transport is still. (R593) -/
  | xportParam (ch : Chan)
  /-- STREAM_OPEN: Binds profile, key ID, set, STAGED and first record number and opens the cipher context. (R635) -/
  | streamOpen (ch : Chan)
  /-- STREAM_ATTACH: Attaches SQ and CQ rings, resets indices and posts held completions. (R636) -/
  | streamAttach (ch : Chan)
  /-- STREAM_FLUSH: Closes the stream's open data sets short and waits for every final completion. (R637) -/
  | streamFlush (ch : Chan)
  /-- STREAM_CLOSE: Sets CLOSING, flushes, then destroys the context and detaches the rings. (R638) -/
  | streamClose (ch : Chan)
  /-- STREAM_SET: Replaces a stream's transport set and moves its turn to the lowest member. (R639) -/
  | streamSet (ch : Chan)
  /-- STREAM_INFO: Returns a stream's state, bindings, next numbers and backlog. (R640) -/
  | streamInfo (ch : Chan)
  /-- RESTORE_INDEX: Builds a transport's restore index by following manifests back from the end of data. (R710) -/
  | restoreIndex (ch : Chan)
  /-- RESTORE_REBUILD: Reads a cartridge forward to rebuild entries and, with COMMIT, writes a new manifest. (R711) -/
  | restoreRebuild (ch : Chan)
  /-- RESTORE_RECORD: Accepts a request to read, decrypt, decode and deliver one record. (R712) -/
  | restoreRecord (ch : Chan)
  /-- RESTORE_FIND: Looks a record up in the restore indexes and returns where it lies. (R713) -/
  | restoreFind (ch : Chan)
  /-- RESTORE_INFO: Returns a reading transport's index and request state. (R714) -/
  | restoreInfo (ch : Chan)
  /-- RESTORE_PARAM_GET: Returns a restore parameter with its default and range. (R715) -/
  | restoreParamGet (ch : Chan)
  /-- RESTORE_PARAM_SET: Sets a restore parameter while no request is in flight. (R715) -/
  | restoreParamSet (ch : Chan)
  /-- RESTORE_RELEASE: Returns a run of lent extents to free. (R716) -/
  | restoreRelease (ch : Chan)
  /-- KEY_LOAD: Unwraps a blob into an EMPTY data-key slot, making it VALID or INVALID. (R516) -/
  | keyLoad (ch : Chan)
  /-- KEY_CLEAR: Puts the named slots in CLEARING and waits for their bound records. (R517) -/
  | keyClear (ch : Chan)
  /-- KEY_INFO: Returns the VALID, INVALID, CLEARING and ambiguous slot bitmaps. (R518) -/
  | keyInfo (ch : Chan)
  /-- KEY_KEK_SET: Accepts a KEK change in plain or wrapped form and queues its fuse row. (R519) -/
  | keyKekSet (ch : Chan)
  /-- KEY_CONTEXT: Returns a stream's cipher context: key ID, SESSION, COUNT and reseeds. (R520) -/
  | keyContext (ch : Chan)
  /-- LIFE_INFO: Returns lifecycle code, faulty settings, rows spent, MIN_SECVER and MAC_BASE. (R521) -/
  | lifeInfo (ch : Chan)
  /-- LIFE_SET: Queues a fuse change of KEY_HASH, MIN_SECVER or MAC_BASE. (R522) -/
  | lifeSet (ch : Chan)
  /-- LIFE_ADVANCE: Queues a lifecycle transition allowed by R495. (R523) -/
  | lifeAdvance (ch : Chan)
  /-- PROFILE_SET: Defines a compression profile after geometry and binding checks. (R467) -/
  | profileSet (ch : Chan)
  /-- PROFILE_GET: Returns a profile's fields, whether defined, and the streams bound to it. (R468) -/
  | profileGet (ch : Chan)
  /-- PROFILE_LOAD_TABLE: Loads a valid loadable code table that no open STATIC profile uses. (R469) -/
  | profileLoadTable (ch : Chan)
  /-- PROFILE_READ_TABLE: Returns the code lengths of a built-in or loadable table. (R470) -/
  | profileReadTable (ch : Chan)
  /-- GOV_INFO: Returns a transport's commanded code, group, backlog and motion state. (R670) -/
  | govInfo (ch : Chan)
  /-- GOV_PARAM_GET: Returns a GOV parameter with its default and range. (R671) -/
  | govParamGet (ch : Chan)
  /-- GOV_PARAM_SET: Sets a GOV parameter, in force at the next evaluation. (R671) -/
  | govParamSet (ch : Chan)
  /-- GOV_HOLD_AUTO: Returns the named groups to the control law. (R672) -/
  | govHoldAuto (ch : Chan)
  /-- GOV_HOLD_FIXED: Fixes the named groups' set point, suspends low-backlog stops and restarts parked members. (R672) -/
  | govHoldFixed (ch : Chan)
  /-- GOV_HOLD_STOP: Brings every member of the named groups to a controlled stop and holds it. (R672) -/
  | govHoldStop (ch : Chan)
  /-- NET_INFO: Returns a port's link, addresses, QP bitmaps and pause state. (R386) -/
  | netInfo (ch : Chan)
  /-- NET_PORT_ENABLE: Enables a port with its PFC, XOFF, XON, link hold and VLAN settings. (R387) -/
  | netPortEnable (ch : Chan)
  /-- NET_PORT_DISABLE: Disables a port with no QPs once its transmitter is idle. (R387) -/
  | netPortDisable (ch : Chan)
  /-- NET_ADDR: Replaces a port's IPv4 or IPv6 address or gateway of the kind given. (R388) -/
  | netAddr (ch : Chan)
  /-- NET_QP_CREATE: Creates a QP bound to a stream and form, reserving its landing partition. (R389) -/
  | netQpCreate (ch : Chan)
  /-- NET_QP_DESTROY: Puts a QP in DRAINING until its footprints and outbound messages end. (R390) -/
  | netQpDestroy (ch : Chan)
  /-- NET_QP_QUERY: Returns a QP's state, PSNs, SEQ, fill point, credits and outstanding work. (R391) -/
  | netQpQuery (ch : Chan)
  /-- NET_NEIGH_READ: Returns one neighbour-table entry. (R392) -/
  | netNeighRead (ch : Chan)
  /-- NET_NEIGH_FLUSH: Discards every neighbour entry that no QP uses. (R392) -/
  | netNeighFlush (ch : Chan)
  /-- DMA_INFO: Returns PCIE_LINK, reads outstanding, buffer use and host shares. (R338) -/
  | dmaInfo (ch : Chan)
  /-- DMA_SHARE: Sets the host channels' read and write shares in sixteenths. (R339) -/
  | dmaShare (ch : Chan)
  /-- DMA_RINGS: Returns a stream's ring attachment, indices, reservations and held completions. (R340) -/
  | dmaRings (ch : Chan)
  /-- DIAG_INFO: Returns DBG_STAT, DIAG_ARMED and DIAG_LOOP_STAT. (R795) -/
  | diagInfo (ch : Chan)
  /-- DIAG_LOOP_ON: Places an Ethernet or transport port in a PRBS31 loopback. (R796) -/
  | diagLoopOn (ch : Chan)
  /-- DIAG_LOOP_OFF: Ends a loopback and returns the bitmap of locked lanes. (R796) -/
  | diagLoopOff (ch : Chan)
  /-- DIAG_INJECT: Arms a one-shot error injector of the code given. (R797) -/
  | diagInject (ch : Chan)
  /-- DIAG_INJECT_DISARM: Code 0 disarms every injector. (R797) -/
  | diagInjectDisarm (ch : Chan)
  /-- DIAG_KAT: Takes a CMP engine or CIP unit out of service and runs its known-answer tests. (R798) -/
  | diagKat (ch : Chan)
  /-- TETHER_INFO: Returns freeze, anchor, freeze-buffer and ring state. (R764) -/
  | tetherInfo (ch : Chan)
  /-- TETHER_EXPORT_RING: Exports a frozen ring with its complete anchors. (R751) -/
  | tetherExportRing (ch : Chan)
  /-- TETHER_EXPORT_FREEZE_BUF: Exports the freeze buffer. (R751) -/
  | tetherExportFreezeBuf (ch : Chan)
  /-- TETHER_EXPORT_FOLLOW: Starts a live export that copies each ring line into a circular host buffer. (R752) -/
  | tetherExportFollow (ch : Chan)
  /-- TETHER_FREEZE: Freezes the ring with reason HOST. (R766) -/
  | tetherFreeze (ch : Chan)
  /-- TETHER_THAW: Restarts the writer with a BREAK of reason THAW and begins an anchor. (R766) -/
  | tetherThaw (ch : Chan)
  /-- TETHER_PARAM_GET: Returns ANCHOR_MS with its default and range. (R767) -/
  | tetherParamGet (ch : Chan)
  /-- TETHER_PARAM_SET: Sets ANCHOR_MS. (R767) -/
  | tetherParamSet (ch : Chan)
  /-- MBX_GO: A write of GO makes the channel FULL and posts the message to Fjarma. (R242) -/
  | mbxGo (o : Origin) (ch : Chan) (v : Word)
  /-- MBX_WRITE_WHILE_FULL: A PCIe write to a FULL channel is aborted with Completer Abort, counted and flagged. (R243) -/
  | mbxWriteWhileFull (ch : Chan) (reg : Fin 18) (v : Word)
  /-- MBX_STAT_READ: A PCIe read of MBX_n_STAT returns it and consumes TAKEN and DONE. (R154) -/
  | mbxStatRead (o : Origin) (ch : Chan)
  /-- CQ_DONE_RELEASE: A W1C write to CQ_DONE releases the completed ticket. (R255) -/
  | cqDoneRelease (o : Origin) (k : Fin 2) (v : Word)
  /-- DB_STAT_CLEAR: A W1C write clears doorbell bits. (R259) -/
  | dbStatClear (o : Origin) (v : Word)
  /-- HEARTBEAT: Each HEARTBEAT_MS period increments HEARTBEAT.COUNT and sets DB_STAT.HEARTBEAT. (R260) -/
  | heartbeat
  /-- SYS_RESET_DELAY_EXPIRY: 1 ms after SYS.RESET's ACK the formatter resets as source 0x8 with a freeze copy. (R282) -/
  | sysResetDelayExpiry
  /-- RC_FIELD_READ: A PCIe read of an RC field returns and clears it in the same cycle. (R192) -/
  | rcFieldRead (o : Origin) (off : Nat)
  /-- COUNTER_LO_READ: A read of a counter's _LO word latches bits [47:32] into the reader's shadow. (R182) -/
  | counterLoRead (o : Origin) (off : Nat)
  /-- IND_ADDR_WRITE: Writing IND_ADDR clears READY and ERR and starts a far prefetch, abandoning any in progress. (R198) -/
  | indAddrWrite (o : Origin) (v : Word)
  /-- IND_DATA_READ: A PCIe read of IND_DATA returns the word and, with AUTOINC, advances and prefetches. (R169) -/
  | indDataRead (o : Origin)
  /-- IND_DATA_WRITE: Writing IND_DATA posts a far write, sets BUSY and abandons any prefetch. (R170) -/
  | indDataWrite (o : Origin) (v : Word)
  /-- FAR_PREFETCH_DONE: The prefetched far word arrives and READY sets, or ERR is set. (R172) -/
  | farPrefetchDone (win : Origin) (reply : FarReply)
  /-- FAR_WRITE_ACK: The far side acknowledges a posted write and BUSY clears. (R170) -/
  | farWriteAck (win : Origin) (ok : Bool)
  /-- FAR_ACCESS_TIMEOUT: A far access unanswered for 100 µs ends with ERR = TIMEOUT. (R174) -/
  | farAccessTimeout (win : Origin)
  /-- WV_SEL_WRITE: Writing WV_SEL clears VALID and ERR and starts loading the selected piece. (R185) -/
  | wvSelWrite (o : Origin) (v : Word)
  /-- WV_PIECE_LOADED: Within 2 µs the piece is loaded and VALID sets, or ERR sets. (R185) -/
  | wvPieceLoaded
  /-- WV_DATA_3_READ: A PCIe read of WV_DATA_3 clears VALID and, with AUTONEXT, loads the next piece. (R186) -/
  | wvData3Read (o : Origin)
  /-- FW_LOAD_START: Writing FW_LOAD.START in WAIT_HOST starts the check of the host-loaded image. (R148) -/
  | fwLoadStart (v : Word)
  /-- INT_CTRL_EOI: EOI while attention is true releases INT_N for 2 µs and sends an MSI-X message. (R218) -/
  | intCtrlEoi (v : Word)
  /-- EOI_RELEASE_END: After the 2 µs release INT_N follows the attention condition again. (R219) -/
  | eoiReleaseEnd
  /-- MSIX_HOLDOFF_END: At the end of the hold-off a due MSI-X message is sent if attention is still true. (R210) -/
  | msixHoldoffEnd
  /-- CONFIG_WRITE: A write to a register with no behaviour of its own takes effect in the next cycle. (R161) -/
  | configWrite (o : Origin) (off : Nat) (v : Word)
  /-- BAR0_UNSUPPORTED_REQUEST: A BAR0 request of the wrong size or to a reserved location earns Unsupported Request and is counted. (R157) -/
  | bar0UnsupportedRequest (off len : Nat) (be : BitVec 4) (kind : UrKind)
  /-- BAR0_POISONED_WRITE: A poisoned BAR0 write is discarded and sets PCIE_CAUSE.POISON_RX. (R201) -/
  | bar0PoisonedWrite (off : Nat) (v : Word)
  /-- STRM_SQ_TAIL_WRITE: Writing STRM_s_SQ.TAIL announces ready SQ entries, or sets DESC_ERR if out of range. (R298) -/
  | strmSqTailWrite (s : Strm) (v : Word)
  /-- STRM_CQ_HEAD_WRITE: Writing STRM_s_CQ.HEAD frees consumed CQ entries, or sets DESC_ERR if out of range. (R321) -/
  | strmCqHeadWrite (s : Strm) (v : Word)
  /-- DMA_TAIL_WRITE: Writing DMA_c_TAIL announces pending host-channel descriptors. (R315) -/
  | dmaTailWrite (c : Fin 8) (v : Word)
  /-- DMA_ENABLE: Setting ENABLE starts a host channel fetching descriptors from HEAD. (R315) -/
  | dmaEnable (o : Origin) (c : Fin 8)
  /-- DMA_DISABLE: Clearing ENABLE lets the descriptor in progress finish, then stops the channel with HEAD at 0. (R325) -/
  | dmaDisable (o : Origin) (c : Fin 8)
  /-- DMA_RESUME: RESUME on a halted channel skips the failed descriptor and continues. (R330) -/
  | dmaResume (o : Origin) (c : Fin 8)
  /-- DMA_HDONE_CLEAR: A W1C write clears DMA_HDONE bits. (R193) -/
  | dmaHdoneClear (o : Origin) (v : Word)
  /-- NACKED_CLEAR: A W1C write clears MBX_8_STAT.NACKED. (R193) -/
  | nackedClear (o : Origin)
  /-- AUX_FUNC_WRITE: A function-code write stops the old driver and parks the pad. (R76) -/
  | auxFuncWrite (o : Origin) (j : Fin 3) (v : Word)
  /-- AUX_PARK_END: At cycle n + 8 the new function takes the pad. (R76) -/
  | auxParkEnd (k : Fin 24)
  /-- AUX_CONT_CLEAR: Writing 1 to an AUX_CONT bit re-enables the tripped driver. (R84) -/
  | auxContClear (o : Origin) (v : Word)
  /-- AUX_LEVEL_ACCEPTED: Four equal AUX samples make the debounce accept a new level. (R79) -/
  | auxLevelAccepted (k : Fin 24) (pad : Bool)
  /-- AUX_CONTENTION_TRIP: After 4 consecutive readback mismatches the driver goes Hi-Z and CONTENTION sets. (R83) -/
  | auxContentionTrip (k : Fin 24)
  /-- LED_WAVE: The 2 Hz LED wave toggles on its free-running grid. (R835) -/
  | ledWave
  /-- I2C_ADDRESS: A start condition with the strapped address opens an I2C transaction. (R87) -/
  | i2cAddress (a : BitVec 7)
  /-- SET_ADDR: Sets the I2C window address, clears READY and ERR and starts a prefetch. (R175) -/
  | setAddr (a : List Byte)
  /-- WRITE: Writes each I2C word to the window address, NACKing refused words. (R177) -/
  | write (bytes : List Byte)
  /-- SET_CTRL: Sets the I2C window's auto-increment. (R175) -/
  | setCtrl (c : Byte)
  /-- READ_STAT: Returns the I2C window's READY, BUSY and ERR. (R175) -/
  | readStat
  /-- READ_DATA: Returns prefetched words, advancing with AUTOINC, or 0xFF and NOT_READY before READY. (R179) -/
  | readData (n : Nat)
  /-- I2C_UNKNOWN_COMMAND: A command byte not in Table 04-5 is NACKed without effect. (R176) -/
  | i2cUnknownCommand (cmd : Byte)
  /-- I2C_STOP_MID_WORD: A stop or repeated start before a word's fourth byte discards the partial word. (R178) -/
  | i2cStopMidWord
  /-- POWER_ON_RESET: VAON rising through 1.20 V resets everything, PD_AON included. (R129) -/
  | powerOnReset
  /-- RESET_N_ASSERT: RESET_N low for the filter time resets every switched domain. (R115) -/
  | resetNAssert
  /-- RESET_N_RELEASE: The release of RESET_N samples the straps and starts boot. (R69) -/
  | resetNRelease (straps : BitVec 8)
  /-- VAON_BROWNOUT: VAON below 1.62 V for 1 µs resets as source 0x2. (R718) -/
  | vaonBrownout
  /-- VCORE_BROWNOUT: VCORE below 0.70 V for 1 µs resets as source 0x3. (R718) -/
  | vcoreBrownout
  /-- BROWNOUT_RELEASE: A rail held at its release level for 1 ms ends the brownout. (R718) -/
  | brownoutRelease (rail : Rail)
  /-- NV_INHIBIT: VAON below 1.71 V blocks fuse rows and abandons a row in progress. (R507) -/
  | nvInhibit
  /-- NV_RESUME: VAON at or above 1.71 V for 1 ms lifts the NV inhibit. (R718) -/
  | nvResume
  /-- REFCLK_LOSS: REFCLK lost for 200 ns or out of 90 to 110 MHz resets as source 0x4. (R113) -/
  | refclkLoss
  /-- REFCLK_RETURN: After 100 µs of good REFCLK it counts as returned and boot may proceed. (R114) -/
  | refclkReturn
  /-- PLL_LOST_LOCK: The CCLK or HBM3 PLL losing lock resets as source 0x5. (R129) -/
  | pllLostLock (pll : CorePll)
  /-- PLL_UNLOCK: A SerDes PLL losing lock sets PLL_UNLOCK and takes its links down. (R136) -/
  | pllUnlock (pll : SerdesPll)
  /-- GEARBOX_SLIP: A gearbox losing its fixed latency halts its link as a level-2 fault and breaks replay. (R137) -/
  | gearboxSlip (box : Gearbox)
  /-- PERST_N_ASSERT: PERST_N resets the PCIe controller and DMA and detaches host-ring streams. (R126) -/
  | perstNAssert
  /-- PERST_N_RELEASE: After PERST_N release the formatter answers configuration requests within 100 ms. (R128) -/
  | perstNRelease
  /-- PME_TURN_OFF: A PME_Turn_Off after an accepted standby request is answered and standby is entered. (R106) -/
  | pmeTurnOff
  /-- STANDBY_ACK_TIMEOUT: 100 ms after the standby ACK the formatter enters standby anyway. (R106) -/
  | standbyAckTimeout
  /-- WAKE_REQUEST: An I2C address or interlock level in standby asserts WAKE_N. (R109) -/
  | wakeRequest (w : WakeBy)
  /-- FUSE_LOAD_DONE: The fuse load completes and the lifecycle, key hash and settings in force are known. (R493) -/
  | fuseLoadDone (readable : Bool)
  /-- SELF_TEST_DONE: Self-test and valid-map clear end and PCIe and the I2C target are enabled. (R138) -/
  | selfTestDone (r : SelfTest)
  /-- HBM_TRAINING_DONE: HBM3 training ends, giving WAIT_HOST, DEBUG_HOLD or the control-region layout. (R148) -/
  | hbmTrainingDone (ok : BitVec 4)
  /-- IMAGE_CHECK_DONE: The fetched or host-loaded image's signature check ends, starting Fjarma or failing boot. (R143) -/
  | imageCheckDone (fetched : ImageFetch)
  /-- READY: Fjarma finishes initialisation and FW_STATE reads READY. (R140) -/
  | ready (r : InitResult)
  /-- DOMAIN_SWITCH_START: A queued domain switch begins after its precondition is checked again. (R281) -/
  | domainSwitchStart
  /-- DOMAIN_SWITCH_DONE: The domain reaches its final state and the switch completes. (R100) -/
  | domainSwitchDone
  /-- PD_FAIL: A domain not ready within four times its switch time is left off as a level-2 fault. (R135) -/
  | pdFail
  /-- AUTO_GATE_OFF: GOV switches a VRF half off once its transports have been stopped for 10 s. (R101) -/
  | autoGateOff (half : Fin 2)
  /-- PARITY_CHECKER_VISIT: The background checker visits a configuration register's parity. (R164) -/
  | parityCheckerVisit (off : Nat) (flips : Word)
  /-- SRAM_UE: An uncorrectable internal SRAM error resets the formatter as a level-4 fault. (R217) -/
  | sramUe (u : SramUnit)
  /-- FAULT_IN_HAND: SUP takes the highest-level queued fault into handling. (R227) -/
  | faultInHand
  /-- FAULT_HANDLING_DONE: SUP finishes a fault's handling, posting the completions it owes and logging it. (R832) -/
  | faultHandlingDone
  /-- SAFE_STOP_TIMEOUT: A transport not stopped 3.0 s into safe-state entry has its downlinks idled anyway. (R221) -/
  | safeStopTimeout (n : Trn)
  /-- WD_WARN: The watchdog with less than 1,000 ms left sets WD_WARN. (R782) -/
  | wdWarn
  /-- WATCHDOG_EXPIRY: The watchdog expiring resets the formatter as source 0x6. (R791) -/
  | watchdogExpiry
  /-- THERMAL_SAMPLE: Every 1 ms the 8 sensors are sampled and T_max evaluated. (R721) -/
  | thermalSample (readings : List Int)
  /-- PCIE_LINK_UP: The PCIe link trains, setting LINK_DEGRADED below x16 at 32 GT/s. (R318) -/
  | pcieLinkUp (speed : Nat) (lanes : LinkLanes)
  /-- HOT_RESET: A hot reset or upstream link-down resets PCIe and DMA and detaches host-ring streams. (R335) -/
  | hotReset (linkDown : Bool)
  /-- CONFIG_SPACE_WRITE: A configuration write changes Bus Master Enable, D-state, Device Control or MSI-X masks. (R327) -/
  | configSpaceWrite (w : CfgWrite)
  /-- AER_CORR: A correctable link error is counted. (R334) -/
  | aerCorr
  /-- AER_FATAL: A fatal uncorrectable error halts the PCIE block at level 2. (R334) -/
  | aerFatal (detail : BitVec 16)
  /-- SQ_PULL: The formatter pulls a batch of up to 8 SQ entries once the CQ has room. (R300) -/
  | sqPull (s : Strm) (entries : List (BitVec 512))
  /-- PAYLOAD_PULL_DONE: The last payload read completion arrives without error. (R303) -/
  | payloadPullDone (s : Strm) (idx : Nat) (payload : List Byte)
  /-- LANDING: The record's last line is written, and STAGED is posted within 4 µs if enabled. (R25) -/
  | landing (r : Nat)
  /-- READ_COMPLETION_ERROR: A read completion with UR, CA or poison refuses the entry or fails the descriptor. (R328) -/
  | readCompletionError (t : ReadTarget) (e : ReadError)
  /-- CPL_TIMEOUT: A read without completion in the Completion Timeout fails its transfer. (R328) -/
  | cplTimeout (t : ReadTarget)
  /-- DESCRIPTOR_FETCH: A host channel fetches its next descriptor, halting on failure. (R315) -/
  | descriptorFetch (c : Fin 8) (d : BitVec 256)
  /-- DESCRIPTOR_END: A descriptor ends after its barrier; STATUS is written and HOST_DONE set if IRQ. (R306) -/
  | descriptorEnd (c : Fin 8) (e : DescEnd)
  /-- BAR2_READ: A BAR2 read returns staging data where Table 09-4 allows, poisoned for bad lines. (R419) -/
  | bar2Read (off : Nat) (len : Nat) (upset : Upset)
  /-- BAR2_WRITE: A BAR2 write reaches staging where Table 09-4 allows, else Unsupported Request. (R418) -/
  | bar2Write (off : Nat) (data : List Byte) (poisoned : Bool)
  /-- NARROW_WRITE: A partial-line write is refused in direct mode or entered in the merge buffer. (R415) -/
  | narrowWrite (src : NarrowSrc) (addr : Nat) (data : List Byte) (upset : Upset)
  /-- MERGE_WRITE_BACK: A merged line is written back whole when complete, idle 1 µs, needed or evicted. (R415) -/
  | mergeWriteBack (line : Nat)
  /-- SCRUB_LINE: The scrubber reads a valid line and corrects or poisons it. (R417) -/
  | scrubLine (line : Nat) (upset : Upset)
  /-- STACK_FAIL: An HBM3 stack failing enters the safe state. (R429) -/
  | stackFail (st : Fin 4)
  /-- CMP_DISPATCH: CMP dispatches a ready block to the lowest free engine. (R457) -/
  | cmpDispatch
  /-- BLOCK_CODED: An engine finishes a block, storing it coded or raw after the self-check. (R453) -/
  | blockCoded (e : Fin 16) (selfOk : Bool)
  /-- ENGINE_KAT_START: Within 1 ms of a SELFCHECK Fjarma starts the engine's known-answer test. (R465) -/
  | engineKatStart (e : Fin 16)
  /-- ENGINE_KAT_DONE: The known-answer test ends, returning the engine to service or leaving it out. (R465) -/
  | engineKatDone (e : Fin 16) (pass : Bool)
  /-- CIP_DISPATCH: CIP dispatches a block, binding its key slot and assigning its INV. (R489) -/
  | cipDispatch
  /-- BLOCK_ENCRYPTED: A unit finishes encrypting and tagging a block in place. (R478) -/
  | blockEncrypted (u : Fin 8)
  /-- REENCRYPT_BLOCK: A block whose SESSION is in a new cartridge's list is decrypted and encrypted again. (R485) -/
  | reencryptBlock
  /-- MASK_RESEED: A unit's mask generator is reseeded every 65,536 blocks or 1 ms. (R474) -/
  | maskReseed (u : Fin 8)
  /-- ENTROPY_FAIL: A failed entropy health test halts KEY at level 2. (R498) -/
  | entropyFail
  /-- UNLOCK_WINDOW_EXPIRY: An unlock not followed by a start in 4,096 CCLK aborts and sets LOCK_EXPIRED. (R494) -/
  | unlockWindowExpiry
  /-- NV_ROW_DONE: A fuse row finishes its phases and commits, completing its command. (R492) -/
  | nvRowDone
  /-- KEY_SLOT_EMPTIED: A CLEARING slot is overwritten and becomes EMPTY once its records finish. (R502) -/
  | keySlotEmptied (slot : Fin 16)
  /-- CORE_FAULT: A masked-share mismatch halts CIP at level 2. (R509) -/
  | coreFault (u : Fin 8)
  /-- DATA_SET_BOUNDARY: A moving transport at a data-set boundary takes its next copy, tails, data set or fill. (R599) -/
  | dataSetBoundary (n : Trn) (lpos : Nat)
  /-- ROW_BUILD: FMT builds a row once write credits have room for it. (R603) -/
  | rowBuild (n : Trn)
  /-- ROW_FLUSH_TIMER: 1 ms after a row's build began it is completed with a pad. (R604) -/
  | rowFlushTimer (n : Trn)
  /-- ROW_RULED: VRF rules on a row read back, passing or failing it. (R608) -/
  | rowRuled (n : Trn) (reads : List CwRead)
  /-- RULING_TIMEOUT: A row unruled 300 µs after its last sample fails and sets OVERLOAD. (R608) -/
  | rulingTimeout (n : Trn)
  /-- DEEP_DECODE_DONE: The deep decoder finishes a codeword passed to it. (R677) -/
  | deepDecodeDone (n : Trn) (ok : Bool)
  /-- FINAL_COMPLETION_POSTED: SUP posts VERIFIED or FAILED and releases the descriptor. (R612) -/
  | finalCompletionPosted (r : Nat)
  /-- SESSION_END: Closes the group, writes the manifest, END data set and lead-out. (R550) -/
  | sessionEnd (n : Trn)
  /-- GOV_EVALUATION: Every 1 ms GOV computes each group's set point and restarts or holds members. (R646) -/
  | govEvaluation
  /-- WRAP_TURN: A member slows at its wrap end, stops, parks on the next wrap and restarts. (R659) -/
  | wrapTurn (n : Trn)
  /-- EXT_HOLD_EXPIRY: EXT_HOLD ends and stops for low backlog may fall due again. (R658) -/
  | extHoldExpiry
  /-- RAMP_FAULT: A member not at speed, stopped or parked in time is handled as lost. (R667) -/
  | rampFault (n : Trn)
  /-- SERVO_FRAME: Each servo frame sends ACTUATOR and WRITE_RATE. (R576) -/
  | servoFrame (n : Trn) (f : ServoFrame)
  /-- SPEED_ERR: Speed off set point by 0.5 % for 10 ms loses the transport. (R584) -/
  | speedErr (n : Trn)
  /-- HELLO: The gondola's HELLO records its serial during link start. (R571) -/
  | hello (n : Trn) (m : HelloMsg)
  /-- HELLO_TIMEOUT: No HELLO within 5 ms fails the link start. (R589) -/
  | helloTimeout (n : Trn)
  /-- LANE_LOCK_TIMEOUT: An inbound lane unlocked after 5 ms fails the link start. (R589) -/
  | laneLockTimeout (n : Trn) (lane : Fin 14)
  /-- IDENTITY_CHECK: Two identity groups per lane are checked for lane, port and MBCOUNT. (R565) -/
  | identityCheck (n : Trn) (ids : List LaneId)
  /-- PORT_UP: Link checks and full credits bring the port UP and complete LINK START. (R589) -/
  | portUp (n : Trn)
  /-- CREDIT: A CREDIT message returns write credits, or loses the transport on over-return. (R573) -/
  | credit (n : Trn) (wd0 : Nat) (wd1 : Nat)
  /-- MOTION_STAT: A motion report advances stops, parks, ramps and locates. (R653) -/
  | motionStat (n : Trn) (m : MotionMsg)
  /-- CARTRIDGE: A cartridge-state report sets TRN_n_CAUSE.CARTRIDGE and updates the state. (R595) -/
  | cartridge (n : Trn) (m : CartMsg)
  /-- POWER: HOLDUP fails records and stops the transport; RESTORED allows link start. (R586) -/
  | power (n : Trn) (m : PowerMsg)
  /-- LANE_STAT: A lost outbound role moves to the spare or takes the link down. (R574) -/
  | laneStat (n : Trn) (bits : Word)
  /-- SENSOR: A gondola SENSOR message reports head temperature. (R571) -/
  | sensor (n : Trn) (temp : BitVec 16)
  /-- REG_DATA: A REG_DATA answer ends a gondola far access. (R596) -/
  | regData (n : Trn) (addr : Word) (val : Word) (err : Bool)
  /-- FAULT: A gondola FAULT message loses the transport with E_MEDIA. (R584) -/
  | fault (n : Trn) (kind : Byte)
  /-- KEEPALIVE: A status KEEPALIVE shows the link alive. (R571) -/
  | keepalive (n : Trn)
  /-- STATUS_MESSAGE_DISCARD: A status message with bad CRC or unknown TYPE is discarded and counted. (R571) -/
  | statusMessageDiscard (n : Trn)
  /-- KEEPALIVE_DUE: After 50 µs without a control message the formatter sends KEEPALIVE. (R571) -/
  | keepaliveDue (n : Trn)
  /-- LINK_DOWN: 1 ms without a valid status message loses the transport. (R584) -/
  | linkDown (n : Trn)
  /-- LOS_IN: An inbound lane losing lock loses the transport. (R584) -/
  | losIn (n : Trn) (lane : Fin 14)
  /-- SYSREF_ERR: A multiblock failing its release loses the transport. (R567) -/
  | sysrefErr (n : Trn)
  /-- JESD_CRC_ERROR: A CRC-12 error erases an RS lane's samples or invalidates a servo frame. (R584) -/
  | jesdCrcError (n : Trn) (lane : Fin 14)
  /-- LOAD_TIMEOUT: A load not done within LOAD_TIMEOUT ends with E_MEDIA. (R590) -/
  | loadTimeout (n : Trn)
  /-- RX_FRAME_DROP: A received frame not admitted is discarded and counted. (R343) -/
  | rxFrameDrop (p : Port) (bytes : Nat)
  /-- ARP_REQUEST: Firmware answers ARP and IPv6 neighbour solicitation for the port's addresses. (R20) -/
  | arpRequest (p : Port) (q : ArpReq)
  /-- ECHO_REQUEST: Firmware answers ICMP and ICMPv6 echo within its size and rate limits. (R346) -/
  | echoRequest (p : Port) (q : EchoReq)
  /-- NEIGHBOUR_REPLY: An ARP reply or advertisement resolves or updates a neighbour entry. (R345) -/
  | neighbourReply (p : Port) (ip : Ip) (mac : BitVec 48)
  /-- NEIGHBOUR_RETRY: An unresolved next hop is retried every 1 s up to 3 times, then fails. (R345) -/
  | neighbourRetry (p : Port) (k : Nat)
  /-- NEIGHBOUR_CONFIRM: A resolved entry is confirmed again after 300 s. (R345) -/
  | neighbourConfirm (p : Port) (k : Nat)
  /-- DAD_DONE: 1 s after link up duplicate address detection ends and the address answers. (R385) -/
  | dadDone (p : Port) (k : Nat)
  /-- INBOUND_PACKET: A RoCE packet is checked against its QP and written to its partition. (R357) -/
  | inboundPacket (p : Port) (k : RocePkt)
  /-- CLOSING_PACKET_TAKEN: ING takes a record's closing packet, checks it and accepts or refuses the record. (R359) -/
  | closingPacketTaken (p : Port)
  /-- XOFF: The receive buffer at XOFF sends a PFC pause frame. (R366) -/
  | xoff (p : Port)
  /-- PFC_REPEAT: The pause frame is repeated every 40 µs while XOFF stands. (R366) -/
  | pfcRepeat (p : Port)
  /-- XON: The receive buffer falling to XON sends a zero-quanta PFC frame. (R366) -/
  | xon (p : Port)
  /-- PFC_RECEIVED: A received PFC frame pauses or resumes transmission on its priorities. (R368) -/
  | pfcReceived (p : Port) (q : List (BitVec 16)) (en : Byte)
  /-- PFC_LONG: Pause held 100 ms sets PFC_LONG. (R383) -/
  | pfcLong (p : Port) (rx : Bool)
  /-- LINK_UP: The PCS aligns, setting LINK_UP and NET_EVENT and completing ENABLE. (R385) -/
  | linkUp (p : Port)
  /-- ETH_LINK_DOWN: Loss of link or alignment sets LINK_DOWN or ALIGN_LOST; QPs keep state. (R381) -/
  | ethLinkDown (p : Port) (align : Bool)
  /-- LINK_HOLD_EXPIRY: A port down longer than its link hold puts its RTS QPs in ERROR. (R381) -/
  | linkHoldExpiry (p : Port)
  /-- PORT_ALIGN_TIMEOUT: A port not aligned 1 s after ENABLE completes with E_MEDIA. (R387) -/
  | portAlignTimeout (p : Port)
  /-- FEC_UNCORR: An uncorrectable FEC codeword discards its frame and is counted; `corrected` is a codeword that FEC
  corrected, counted on its own. (R382) -/
  | fecUncorr (w : FecWord)
  /-- OUTBOUND_ACK: The peer acknowledges outbound RDMA WRITE messages up to `psn`, or with `nak`, a sequence-error NAK, up
  to the packet before it and asks for the rest again. (R369) -/
  | outboundAck (p : Port) (q : Fin 64) (ack : RoceAck)
  /-- ACK_TIMEOUT: An unacknowledged outbound message is retransmitted, or fails after the last retry. (R369) -/
  | ackTimeout (p : Port) (q : Fin 64)
  /-- REMOTE_NAK: A peer NAK other than a sequence error puts the QP in ERROR. (R379) -/
  | remoteNak (p : Port) (q : Fin 64)
  /-- QP_DESTROY_DONE: A DRAINING QP's footprints and outbound messages end and its partition is freed. (R376) -/
  | qpDestroyDone (p : Port) (q : Fin 64)
  /-- RESTORE_DATA_SET_READ: A data set read for restore is decoded under the retry ladder. (R691) -/
  | restoreDataSetRead (n : Trn) (d : DataSetRead)
  /-- RESTORE_BLOCK_DECRYPTED: A restore block is decrypted and its tag compared, setting DISTRUST on failure. (R486) -/
  | restoreBlockDecrypted (t : Nat)
  /-- RESTORE_BLOCK_DECODED: CMP decodes a restore block and tests it. (R456) -/
  | restoreBlockDecoded (t : Nat)
  /-- RESTORE_RECORD_DONE: A restore request's delivery ends and its completion slot is posted. (R689) -/
  | restoreRecordDone (t : Nat)
  /-- RESTORE_INDEX_DONE: Indexing ends, marking unindexed sessions. (R682) -/
  | restoreIndexDone (n : Trn)
  /-- RESTORE_REBUILD_DONE: A rebuild ends, with a new manifest written under COMMIT. (R696) -/
  | restoreRebuildDone (n : Trn)
  /-- RECOVER_DONE: A recovered block returns to service and its FAULT_HALTED bit clears. (R222) -/
  | recoverDone (ok : Bool)
  /-- STREAM_FLUSH_DONE: Every record accepted before FLUSH has its final completion. (R637) -/
  | streamFlushDone (s : Strm)
  /-- STREAM_CLOSE_DONE: The stream's final completions are posted and it becomes CLOSED. (R638) -/
  | streamCloseDone (s : Strm)
  /-- DIAG_KAT_DONE: The known-answer test of a DIAG.KAT ends and the command completes. (R798) -/
  | diagKatDone (pass : Bool)
  /-- INJECT_OFFSET_END: A sensor injection's duration ends and its offset stops. (R785) -/
  | injectOffsetEnd (sensor : Fin 8)
  /-- ANCHOR_START: Every ANCHOR_MS the writer starts copying SUP state into the older slot. (R747) -/
  | anchorStart
  /-- ANCHOR_DONE: An anchor copy completes and its ANCHOR entry is recorded. (R747) -/
  | anchorDone
  /-- CHECK: Every 1,000,000 CCLK the writer records a CHECK entry. (R748) -/
  | check (pc : BitVec 64) (instret : BitVec 64) (crc : BitVec 64)
  /-- EPOCH: The stamp wraps and the epoch count increments. (R742) -/
  | epoch
  /-- FOLLOW_HEADER: Every 1 ms a FOLLOW export writes its header line. (R752) -/
  | followHeader
  /-- TETHER_EXPORT_DONE: An export ends and sets EXPORT_DONE. (R765) -/
  | tetherExportDone (detail : Nat)
  /-- TAP_INSTRUCTION: A new TAP instruction selects its data register and any pad control. (R769) -/
  | tapInstruction (i : TapInput)
  /-- TAP_RESET: TRST_N or Test-Logic-Reset resets the TAP and boundary register. (R771) -/
  | tapReset
  /-- DEBUG_HALT: The debug module halts SUP; hardware actions continue and the watchdog freezes. (R779) -/
  | debugHalt
  /-- DEBUG_RESUME: The debug module resumes SUP. (R779) -/
  | debugResume
  /-- DEBUG_STEP: The debug module single-steps SUP. (R773) -/
  | debugStep
  /-- TRIGGER_HIT: An mcontrol trigger halts the core. (R780) -/
  | triggerHit
  /-- ABSTRACT_COMMAND: An Access Register command reads or writes a register, tainting on write. (R773) -/
  | abstractCommand (write : Bool) (reg : BitVec 16) (val : BitVec 64)
  /-- PROGRAM_BUFFER_EXEC: Executing the program buffer sets TAINT. (R778) -/
  | programBufferExec
  /-- SBA_READ: A system bus read returns a BAR0 or SRAM word as the debug origin. (R775) -/
  | sbaRead (addr : SbAddress) (size : Nat)
  /-- SBA_WRITE: A system bus write reaches BAR0 or SRAM where allowed, else sberror. (R776) -/
  | sbaWrite (addr : SbAddress) (size : Nat) (v : Word)
  /-- NDMRESET: ndmreset resets the formatter as source 0x9 with a freeze copy. (R792) -/
  | ndmreset
  /-- DMACTIVE_CLEAR: Writing dmactive = 0 resets only the debug module. (R792) -/
  | dmactiveClear
  /-- VAON_POWER_ON_CROSSING: VAON falling below 1.20 V asserts the power-on reset and loses PD_AON, including the freeze buffer, RST_CAUSE and FAULT_LAST. (R718) -/
  | vaonPowerOnCrossing
  /-- PLL_LOCK: The CCLK (and HBM3) PLL achieves lock, CCLK runs, the stamp epoch begins and boot proceeds to the fuse load. (R129) -/
  | pllLock (pll : CorePll)
  /-- PRBS_CHECKER_LOCK: A lane's PRBS31 checker locks after 64 consecutive correct bits and starts counting errors in LANE_i_PRBS_ERR. (R793) -/
  | prbsCheckerLock (r : PrbsReport)
  /-- RECEIVED_PAUSE_EXPIRY: The quanta of a received PFC pause run out without a refresh and the paused priority may transmit again. (R368) -/
  | receivedPauseExpiry (p : Port) (prio : Fin 8)
  /-- LINK_START_RESEND: Every 10 µs during link start the formatter sends LINK_START again until HELLO arrives. (R571) -/
  | linkStartResend (n : Trn)
  /-- SRAM_CORR: A corrected error in supervisor SRAM, CMP buffers or the DMA transfer buffer sets its level-0 leaf. (R215) -/
  | sramCorr (u : CorrUnit)
  deriving DecidableEq, Repr

end Sys2Proof
end

