-- ==== Sys2Proof/Config.lean ====
section
/-!
DEFINITION. What an implementation fixes and the spec leaves open: free values, constants without a body.
-/
namespace Sys2Proof.Config

/-- The value the spec leaves open, a fresh one each time the counter advances (log 5). -/
opaque freeValue : Nat → BitVec 64

/-- The table of fewest bits that a DYNAMIC engine takes for a block's bucket counts, in PROFILE.LOAD_TABLE's layout:
R445 leaves the choice among several to the part, as a function of the counts (log 15). -/
opaque dynamicChoice : List Nat → BitVec 256

/-- Row 0 of MAC_BASE as production committed it (R495). -/
opaque factoryMac : BitVec 384

/-- The device unique number, wide-value item 0x03 (Table 04-6). -/
opaque uniqueNumber : BitVec 128

/-- SHA-384 digest of the vendor's manufacturing key, held in the boot ROM (R144). -/
opaque vendorKeyHash : BitVec 384

/-- The LPOS that lies a signed number of micrometres from another along the tape; the XT1 media specification defines
the words (ch12). -/
opaque lposAt : BitVec 32 → Int → BitVec 32

/-- The LPOS at which the usable region of a wrap begins, in its direction of writing (R527). -/
opaque wrapStart : Nat → BitVec 32

/-- The detector's 6-bit soft values for equaliser outputs, under target A (false) or B: the trellis is Table 16-1's, its
arithmetic is not stated (R676; log 189). -/
opaque detect : Bool → List Int → List Int

/-- Of two channel words of one metric, whether the first ranks before the second (R676; log 189). -/
opaque ranksFirst : List Bool → List Bool → Bool

/-- The LLR of an information bit on whose value, given here, all words of its list agree (R676; log 189). -/
opaque agreedLlr : Bool → Int

/-- The decoder's 6-bit form of an LLR (Table 16-1; log 189). -/
opaque llr6 : Int → Int

/-- The decoder's 6-bit message for 0.75 of a least magnitude (Table 16-1; log 189). -/
opaque scaled6 : Nat → Nat

/-- The level that the boundary register's contents put on the pad of an output, none where they release it; the order and
meaning of its cells stand in the BSDL file (ch19, Boundary scan; log 153). -/
opaque boundaryPad : Nat → BitVec 120 → Option Bool

/-- A hart register, by how often unmodelled code ran and abstract register number (log 20). -/
opaque hartValue : Nat → Nat → BitVec 64

/-- A word of supervisor SRAM, by how often unmodelled code ran and SBA address (log 20). -/
opaque sramValue : Nat → Nat → BitVec 32

end Sys2Proof.Config
end

