-- ==== Sys2Proof/Machine/Bits.lean ====
section
/-!
DEFINITION. Bit fields, byte order and the finite maps that the state's memories and counters are kept in.
-/
namespace Sys2Proof.Machine
open Sys2Proof

/-- Field [lo + len - 1 : lo] of a word (R9). -/
def field {n : Nat} (w : BitVec n) (lo len : Nat) : Nat := (w.toNat >>> lo) % 2 ^ len

/-- Bit `i` as 0 or 1. -/
def b2n (b : Bool) : Nat := if b then 1 else 0

/-- A register value from its fields, each a shift and a value. -/
def pack (fs : List (Nat × Nat)) : Word :=
  fs.foldl (fun w f => w ||| (BitVec.ofNat 32 f.2 <<< f.1)) 0

/-- Bit `i` of a vector of bits set. -/
def setBit {n : Nat} (w : BitVec n) (i : Nat) : BitVec n := w ||| (BitVec.ofNat n 1 <<< i)

/-- Bit `i` of a vector of bits cleared. -/
def clrBit {n : Nat} (w : BitVec n) (i : Nat) : BitVec n := w &&& ~~~(BitVec.ofNat n 1 <<< i)

/-- Bit `i` made equal to `b`. -/
def putBit {n : Nat} (w : BitVec n) (i : Nat) (b : Bool) : BitVec n := if b then setBit w i else clrBit w i

/-- A bit vector of width `n` from a predicate on bit numbers. -/
def ofBits (n : Nat) (f : Nat → Bool) : BitVec n :=
  (List.range n).foldl (fun w i => if f i then setBit w i else w) 0

/-- The number of ones. -/
def popcount {n : Nat} (w : BitVec n) : Nat := ((List.range n).filter (fun i => w.getLsbD i)).length

/-- A number as a register word. -/
def w32 (n : Nat) : Word := BitVec.ofNat 32 n

/-- `n` bytes of `v`, least significant first (R10). -/
def leBytes : Nat → Nat → List Byte
  | 0, _ => []
  | n + 1, v => BitVec.ofNat 8 v :: leBytes n (v / 256)

/-- The number that bytes spell, least significant first (R10). -/
def leNat : List Byte → Nat
  | [] => 0
  | b :: bs => b.toNat + 256 * leNat bs

/-- `n` bytes of `v`, most significant first. -/
def beBytes (n v : Nat) : List Byte := (leBytes n v).reverse

/-- The number that bytes spell, most significant first. -/
def beNat (bs : List Byte) : Nat := leNat bs.reverse

/-- `len` bytes from `off`; bytes past the end are zero. -/
def slice (bs : List Byte) (off len : Nat) : List Byte :=
  let t := (bs.drop off).take len
  t ++ List.replicate (len - t.length) 0

/-- The little-endian number in `len` bytes from `off`. -/
def leAt (bs : List Byte) (off len : Nat) : Nat := leNat (slice bs off len)

/-- The little-endian word at `off`. -/
def wordAt (bs : List Byte) (off : Nat) : Word := BitVec.ofNat 32 (leAt bs off 4)

/-- `bs` with the bytes from `off` replaced by `new`, within its length. -/
def patch (bs : List Byte) (off : Nat) (new : List Byte) : List Byte :=
  (bs.take off ++ new ++ bs.drop (off + new.length)).take bs.length

/-- One element of an array changed. -/
def upd {α : Type} {n : Nat} (v : Vector α n) (i : Fin n) (f : α → α) : Vector α n := v.set i.val (f v[i]) i.isLt

/-- One element of an array, at any natural index; outside the array nothing changes. -/
def updN {α : Type} {n : Nat} (v : Vector α n) (i : Nat) (f : α → α) : Vector α n :=
  if h : i < n then v.set i (f v[i]) h else v

/-- An element at any natural index, with a value for indexes outside. -/
def getN {α : Type} {n : Nat} (v : Vector α n) (i : Nat) (d : α) : α := if h : i < n then v[i] else d

/-- Saturating increment of a counter field. -/
def satInc {n : Nat} (v : BitVec n) : BitVec n := if v = BitVec.allOnes n then v else v + 1

/-! ### Finite maps -/

/-- What a map holds at key `j`; an unlisted key holds `d`. -/
def spGet {β : Type} (d : β) : List (Nat × β) → Nat → β
  | [], _ => d
  | (k, v) :: t, j => if k = j then v else spGet d t j

/-- The map with `x` at key `j`, in its place among rising keys. -/
def spPut {β : Type} (j : Nat) (x : β) : List (Nat × β) → List (Nat × β)
  | [] => [(j, x)]
  | (k, v) :: t => if j < k then (j, x) :: (k, v) :: t else if j = k then (j, x) :: t else (k, v) :: spPut j x t

/-- The map without the keys that `p` names. -/
def spDrop {β : Type} (p : Nat → Bool) (m : List (Nat × β)) : List (Nat × β) := m.filter (fun e => !p e.1)

/-- The map with `x` at key `j`; the default is not listed, so equal maps are equal lists. -/
def spSet {β : Type} [DecidableEq β] (d : β) (m : List (Nat × β)) (j : Nat) (x : β) : List (Nat × β) :=
  if x = d then spDrop (fun k => decide (k = j)) m else spPut j x m

/-- Keys strictly rising and no entry equal to the default. -/
def spWf {β : Type} [DecidableEq β] (d : β) : List (Nat × β) → Bool
  | [] => true
  | [(_, v)] => decide (v ≠ d)
  | (k, v) :: (k', v') :: t => decide (v ≠ d) && decide (k < k') && spWf d ((k', v') :: t)

end Sys2Proof.Machine
end

