-- ==== Sys2Proof/Machine/Codec.lean ====
section
/-!
DEFINITION. CMP's coding of one block: predictors, residues, code tables, the bitstream, the block format and its
CRC-64, and the decoder (ch10, R434 to R456). Pure functions of bytes.
-/
namespace Sys2Proof.Machine
open Sys2Proof

/-! ### CRC-64 (R452) -/

def crc64Bit (c : BitVec 64) : BitVec 64 :=
  if c.msb then (c <<< 1) ^^^ 0x42F0E1EBA9EA3693#64 else c <<< 1

/-- CRC-64/ECMA-182 over bytes in order, from `c` (R452). -/
def crc64From (c : BitVec 64) (bs : List Byte) : BitVec 64 :=
  bs.foldl (fun c b =>
    let c := c ^^^ BitVec.ofNat 64 (b.toNat * 2 ^ 56)
    crc64Bit (crc64Bit (crc64Bit (crc64Bit (crc64Bit (crc64Bit (crc64Bit (crc64Bit c)))))))) c

def crc64 (bs : List Byte) : BitVec 64 := crc64From 0 bs

/-! ### Profiles (R434, R435, Table 10-1) -/

/-- A profile as PROFILE.SET gives it: words P2 to P5 (R467). -/
structure Profile where
  p2 : Word
  p3 : Word
  p4 : Word
  p5 : Word
  deriving DecidableEq, Repr

def Profile.mode (p : Profile) : Nat := field p.p2 0 2
def Profile.pred (p : Profile) : Nat := field p.p2 4 3
def Profile.signed (p : Profile) : Bool := p.p2.getLsbD 8
def Profile.width (p : Profile) : Nat := field p.p2 16 6
def Profile.start (p : Profile) : Nat := field p.p2 24 5
def Profile.x (p : Profile) : Nat := p.p3.toNat
def Profile.y (p : Profile) : Nat := p.p4.toNat
def Profile.mask (p : Profile) : Word := p.p5
/-- Bytes of one sample (R436). -/
def Profile.sampleBytes (p : Profile) : Nat := (p.width + 7) / 8

/-- Profile 0: MODE OFF, PRED 0, SIGNED 0, WIDTH 8, X 1, Y 1, MASK 0, START 0 (R434). -/
def profile0 : Profile := { p2 := 0x00080000, p3 := 1, p4 := 1, p5 := 0 }

/-- The unit U in samples (R438). -/
def unitSamples (p : Profile) : Nat :=
  if p.mode = 0 ∨ p.pred ≤ 2 then 1 else if p.pred ≤ 4 then p.x else p.x * p.y

/-- The sample size that cuts a record into blocks (R438). -/
def cutBytes (p : Profile) : Nat := if p.mode = 0 then 1 else p.sampleBytes

/-- Original bytes of a full block, N_B × s (R438). -/
def blockBytes (p : Profile) : Nat :=
  262144 / cutBytes p / unitSamples p * unitSamples p * cutBytes p

/-- Blocks of a record of `len` bytes (R438). -/
def blockCount (p : Profile) (len : Nat) : Nat :=
  max 1 ((len + blockBytes p - 1) / blockBytes p)

/-- FIRST_ROW of block `k` (Table 10-5). -/
def firstRow (p : Profile) (k : Nat) : Nat :=
  if p.mode ≠ 0 ∧ (p.pred = 3 ∨ p.pred = 4) then (k * (blockBytes p / cutBytes p) / p.x) % p.y else 0

/-! ### Samples, predictors, residues (R436 to R441) -/

/-- The zero level Z0 (R436). -/
def zeroLevel (signed : Bool) (w : Nat) : Nat := if signed then 2 ^ (w - 1) else 0

/-- The bytes of `n` samples of `s` bytes, as container numbers. -/
def containers (s : Nat) : Nat → List Byte → List Nat
  | 0, _ => []
  | n + 1, bs => leNat (bs.take s) :: containers s n (bs.drop s)

/-- The container rule (R437). -/
def containerOk (signed : Bool) (w s c : Nat) : Bool :=
  if signed then
    c / 2 ^ w = (if (c / 2 ^ (w - 1)) % 2 = 1 then 2 ^ (8 * s - w) - 1 else 0)
  else c / 2 ^ w = 0

/-- A sample's value from its container (R436). -/
def valueOf (signed : Bool) (w c : Nat) : Nat :=
  let v := c % 2 ^ w
  if signed then (v + 2 ^ (w - 1)) % 2 ^ w else v

/-- A sample's container from its value. -/
def containerOf (signed : Bool) (w s v : Nat) : Nat :=
  if signed then
    let c := (v + 2 ^ (w - 1)) % 2 ^ w
    if c / 2 ^ (w - 1) = 1 then c + (2 ^ (8 * s) - 2 ^ w) else c
  else v

/-- `t` limited to 0 to 2^w − 1 (R440). -/
def clampW (w : Nat) (t : Int) : Nat := if t < 0 then 0 else min t.toNat (2 ^ w - 1)

/-- The geometry a predictor needs. -/
structure Geo where
  pred : Nat
  signed : Bool
  w : Nat
  x : Nat
  y : Nat
  firstRow : Nat
  deriving DecidableEq, Repr

/-- The 2D_MED rule with its borders (Table 10-3). -/
def medRule (z0 : Nat) (a b c : Option Nat) : Nat :=
  match a, b, c with
  | some a, some b, some c =>
    if c ≥ max a b then min a b else if c ≤ min a b then max a b else a + b - c
  | some a, _, _ => a
  | none, some b, _ => b
  | none, none, _ => z0

/-- The prediction of sample `j`, given the earlier values of the block, last first (R439, R440). -/
def predict (g : Geo) (j : Nat) (prior : List Nat) : Nat :=
  let z0 := zeroLevel g.signed g.w
  let at' (n : Nat) : Nat := prior.getD (n - 1) 0
  let oneD := decide (g.pred ≤ 2)
  let x := j % g.x
  let y := (g.firstRow + j / g.x) % g.y
  let a := if (if oneD then decide (j ≥ 1) else decide (x > 0)) then some (at' 1) else none
  let b := if decide (y > 0) && decide (j ≥ g.x) then some (at' g.x) else none
  let c := if a.isSome && b.isSome then some (at' (g.x + 1)) else none
  let hasD := decide (j ≥ g.x * g.y)
  let med := medRule z0 a b c
  match g.pred with
  | 0 => z0
  | 1 => a.getD z0
  | 2 =>
    match a with
    | none => z0
    | some a => if j ≥ 2 then clampW g.w (2 * (a : Int) - (at' 2 : Int)) else a
  | 3 => med
  | 4 =>
    match a, b with
    | some a, some b => (a + b) / 2
    | _, _ => med
  | 5 => if hasD then at' (g.x * g.y) else med
  | _ =>
    if hasD then
      let d := at' (g.x * g.y)
      match a with
      | some a => clampW g.w ((a : Int) + (d : Int) - (at' (g.x * g.y + 1) : Int))
      | none => d
    else med

/-- The residue's number u (R441). -/
def residueU (w v p : Nat) : Nat :=
  let r := (v + 2 ^ w - p) % 2 ^ w
  if r < 2 ^ (w - 1) then 2 * r else 2 * (2 ^ w - r) - 1

/-- The value whose residue against `p` has number `u` (R441). -/
def unResidue (w u p : Nat) : Nat :=
  if u % 2 = 0 then (p + u / 2) % 2 ^ w else (p + 2 ^ w - (u + 1) / 2) % 2 ^ w

/-- Bit length of a number of at most 49 bits. -/
def bitLen (u : Nat) : Nat := ((List.range 50).find? (fun n => decide (u < 2 ^ n))).getD 50

/-- The numbers u of a block's samples in order. -/
def residues (g : Geo) : List Nat → Nat → List Nat → List Nat
  | [], _, _ => []
  | v :: vs, j, prior => residueU g.w v (predict g j prior) :: residues g vs (j + 1) (v :: prior)

/-! ### Code tables (R442 to R445) -/

/-- A code table: the length of each of the 49 buckets. -/
abbrev CodeTable := List Nat

/-- Built-in table `t` (R443). -/
def builtinTable (t : Nat) : CodeTable :=
  (List.range 49).map (fun b => if b < t then t - b + 2 else if b = t then 2 else min (b - t + 1) 24)

/-- A table in PROFILE.LOAD_TABLE's layout (R469). -/
def tableOf (t : BitVec 256) : CodeTable := (List.range 49).map (fun b => field t (5 * b) 5)

/-- A table in the layout of R469. -/
def tableBits (t : CodeTable) : BitVec 256 :=
  (t.zipIdx).foldl (fun w e => w ||| (BitVec.ofNat 256 e.1 <<< (5 * e.2))) 0

/-- A valid table (R442). -/
def tableValid (t : CodeTable) : Bool :=
  t.any (fun l => decide (l ≠ 0)) && t.all (fun l => decide (l ≤ 24)) &&
  decide (((t.filter (· ≠ 0)).map (fun l => 2 ^ (24 - l))).sum ≤ 2 ^ 24)

/-- Buckets with a code, in canonical order: by length, then by number (R442). -/
def canonicalOrder (t : CodeTable) : List (Nat × Nat) :=
  (List.range 25).flatMap (fun l =>
    if l = 0 then [] else ((t.zipIdx).filter (fun e => decide (e.1 = l))))

/-- Canonical codes: (bucket, length, code) (R442). -/
def assignCodes : List (Nat × Nat) → Option (Nat × Nat) → List (Nat × Nat × Nat)
  | [], _ => []
  | (l, b) :: rest, none => (b, l, 0) :: assignCodes rest (some (l, 0))
  | (l, b) :: rest, some (l', c') =>
    let c := (c' + 1) * 2 ^ (l - l')
    (b, l, c) :: assignCodes rest (some (l, c))

def codesOf (t : CodeTable) : List (Nat × Nat × Nat) := assignCodes (canonicalOrder t) none

/-- A number's `n` low bits, most significant first (R446). -/
def msbBits (n v : Nat) : List Bool := (List.range n).map (fun i => (v / 2 ^ (n - 1 - i)) % 2 == 1)

/-- The number that bits spell, most significant first. -/
def bitsNat (bs : List Bool) : Nat := bs.foldl (fun n b => 2 * n + b2n b) 0

/-- Bits packed into bytes from the most significant bit down, zero bits to the byte boundary (R446). -/
def packBits : Nat → List Bool → List Byte
  | 0, _ => []
  | _ + 1, [] => []
  | n + 1, bs =>
    let t := bs.take 8
    BitVec.ofNat 8 (bitsNat (t ++ List.replicate (8 - t.length) false)) :: packBits n (bs.drop 8)

def bitsToBytes (bs : List Bool) : List Byte := packBits (bs.length / 8 + 1) bs

def bytesToBits (bs : List Byte) : List Bool := bs.flatMap (fun b => msbBits 8 b.toNat)

/-- The code and suffix of number `u` under a table; none where the bucket has no code (R441, R446). -/
def codeBits (codes : List (Nat × Nat × Nat)) (u : Nat) : Option (List Bool) :=
  let b := bitLen u
  match codes.find? (fun c => c.1 == b) with
  | none => none
  | some (_, l, c) => some (msbBits l c ++ (if b ≥ 2 then msbBits (b - 1) (u - 2 ^ (b - 1)) else []))

/-- A segment coded under a table; none where some bucket has no code. -/
def codeSegment (codes : List (Nat × Nat × Nat)) : List Nat → Option (List Bool)
  | [] => some []
  | u :: us => do
    let h ← codeBits codes u
    let t ← codeSegment codes us
    pure (h ++ t)

/-- Bits a segment would take; none where the table is no candidate (R454). -/
def segmentCost (t : CodeTable) (seg : List Nat) : Option Nat :=
  seg.foldl (fun acc u => do
    let a ← acc
    let b := bitLen u
    let l := t.getD b 0
    if l = 0 then none else pure (a + l + (b - 1))) (some 0)

/-! ### The length-limited Huffman table of DYNAMIC mode (R445) -/

/-- Merge of two lists sorted by weight. -/
def mergeByWeight : Nat → List (Nat × List Nat) → List (Nat × List Nat) → List (Nat × List Nat)
  | 0, a, b => a ++ b
  | _ + 1, [], b => b
  | _ + 1, a, [] => a
  | n + 1, x :: a, y :: b => if x.1 ≤ y.1 then x :: mergeByWeight n a (y :: b) else y :: mergeByWeight n (x :: a) b

/-- Adjacent pairs packaged. -/
def packagePairs : List (Nat × List Nat) → List (Nat × List Nat)
  | x :: y :: t => (x.1 + y.1, x.2 ++ y.2) :: packagePairs t
  | _ => []

def insertByWeight (x : Nat × List Nat) : List (Nat × List Nat) → List (Nat × List Nat)
  | [] => [x]
  | y :: t => if x.1 < y.1 then x :: y :: t else y :: insertByWeight x t

/-- Package-merge over 24 levels: code lengths of fewest bits with no length above 24. -/
def packageMerge (counts : List Nat) : CodeTable :=
  let items := ((counts.zipIdx).filter (fun e => decide (e.1 ≠ 0))).map (fun e => (e.1, [e.2]))
  match items with
  | [] => List.replicate 49 0
  | [(_, bs)] => (List.range 49).map (fun b => if bs.contains b then 1 else 0)
  | _ =>
    let sorted := items.foldl (fun acc x => insertByWeight x acc) []
    let last := (List.range 23).foldl (fun acc _ => mergeByWeight 200 sorted (packagePairs acc)) sorted
    let used := (last.take (2 * items.length - 2)).flatMap (·.2)
    (List.range 49).map (fun b => used.count b)

/-- Bits a table spends on bucket counts; none where an occurring bucket has no code. -/
def tableCost (t : CodeTable) (counts : List Nat) : Option Nat :=
  (counts.zipIdx).foldl (fun acc e => do
    let a ← acc
    if e.1 = 0 then pure a
    else
      let l := t.getD e.2 0
      if l = 0 then none else pure (a + e.1 * l)) (some 0)

/-- The table DYNAMIC mode takes: the implementation's choice among the tables of fewest bits (R445; log 15). A choice
that is not one of them counts as no choice, and package-merge's table stands for it. -/
def dynamicTable (counts : List Nat) : CodeTable :=
  let own := tableOf (Config.dynamicChoice counts)
  let pm := packageMerge counts
  let exact := (List.range 49).all (fun b => decide ((own.getD b 0 = 0) ↔ (counts.getD b 0 = 0)))
  if tableValid own && exact && decide (tableCost own counts = tableCost pm counts) then own else pm

/-! ### The block (R447 to R454) -/

/-- Segments of 4,096 samples (R449). -/
def segmentsOf : Nat → List Nat → List (List Nat)
  | 0, _ => []
  | _ + 1, [] => []
  | n + 1, us => us.take 4096 :: segmentsOf n (us.drop 4096)

/-- The header of Table 10-5. -/
def blockHeader (raw : Bool) (reason origLen storedLen : Nat) (p : Profile) (tail ntab firstRow : Nat)
    (check : BitVec 64) : List Byte :=
  leBytes 2 0xC0B1 ++ leBytes 1 1 ++ leBytes 1 (b2n raw + 16 * reason) ++ leBytes 4 origLen ++ leBytes 4 storedLen ++
  leBytes 1 (p.pred + 16 * b2n p.signed) ++ leBytes 1 p.width ++ leBytes 1 tail ++ leBytes 1 ntab ++
  leBytes 4 p.x ++ leBytes 4 p.y ++ leBytes 4 firstRow ++ leBytes 4 0 ++ leBytes 8 check.toNat

/-- Zero bytes to a multiple of 8. -/
def pad8 (bs : List Byte) : List Byte := bs ++ List.replicate ((8 - bs.length % 8) % 8) 0

/-- A RAW block (R451). -/
def rawBlock (p : Profile) (reason : Nat) (orig : List Byte) : List Byte :=
  blockHeader true reason orig.length (40 + 8 * ((orig.length + 7) / 8)) p 0 0 0 (crc64 orig) ++ pad8 orig

/-- An embedded table (R448). -/
def embedTable (dyn : Bool) (j w : Nat) (t : CodeTable) : List Byte :=
  BitVec.ofNat 8 (128 * b2n dyn + j) :: bitsToBytes ((t.take (w + 1)).flatMap (fun l => msbBits 5 l))

/-- The table that selector `sel` names in STATIC mode (Table 10-6). -/
def selectorTable (loaded : Nat → CodeTable) (sel : Nat) : CodeTable :=
  if sel < 16 then builtinTable sel else loaded (sel - 16)

/-- The selector for the segment after `prev` (R454). -/
def nextSelector (mask : Word) (loaded : Nat → CodeTable) (start : Nat) (prev : List Nat) : Nat :=
  let cands := (List.range 32).filterMap (fun s =>
    if mask.getLsbD s then (segmentCost (selectorTable loaded s) prev).map (fun c => (c, s)) else none)
  match cands.foldl (fun best c =>
      match best with
      | none => some c
      | some b => if c.1 < b.1 then some c else some b) (none : Option (Nat × Nat)) with
  | some b => b.2
  | none => start

/-- The coded segments of STATIC mode; none where a table has no code for a bucket (R454). -/
def staticStream (mask : Word) (loaded : Nat → CodeTable) (start : Nat) :
    List (List Nat) → Option (List Nat) → Option (List Bool)
  | [], _ => some []
  | seg :: segs, prev => do
    let sel := match prev with
      | none => start
      | some p => nextSelector mask loaded start p
    let h ← codeSegment (codesOf (selectorTable loaded sel)) seg
    let t ← staticStream mask loaded start segs (some seg)
    pure (msbBits 5 sel ++ h ++ t)

/-- Bucket counts of a block (R445). -/
def bucketCounts (us : List Nat) : List Nat := (List.range 49).map (fun b => (us.filter (fun u => bitLen u == b)).length)

/-- The block that CMP writes for block `k` of a record, original bytes `orig`, under profile `p` and the loadable
tables in force (R447 to R454). Codes of a loadable table follow the lengths that the block embeds, buckets 0 to w
(DEDUCED from R448: a decoder has no others; log 28). -/
def encodeBlock (p : Profile) (loaded : Nat → CodeTable) (k : Nat) (orig : List Byte) : List Byte :=
  if p.mode = 0 then rawBlock p 3 orig
  else
    let loaded := fun j => (loaded j).take (p.width + 1)
    let s := p.sampleBytes
    let n := orig.length / s
    let cs := containers s n orig
    if cs.all (containerOk p.signed p.width s) = false then rawBlock p 2 orig
    else
      let tail := orig.drop (n * s)
      let row := firstRow p k
      let g : Geo := { pred := p.pred, signed := p.signed, w := p.width, x := p.x, y := p.y, firstRow := row }
      let us := residues g (cs.map (valueOf p.signed p.width)) 0 []
      let segs := segmentsOf (us.length / 4096 + 1) us
      let coded : Option (List Byte × Nat) :=
        if p.mode = 1 then do
          let stream ← staticStream p.mask loaded p.start segs none
          let js := (List.range 16).filter (fun j => p.mask.getLsbD (16 + j))
          pure (js.flatMap (fun j => embedTable false j p.width (loaded j)) ++ bitsToBytes stream, js.length)
        else do
          let t := dynamicTable (bucketCounts us)
          let codes := codesOf t
          let parts ← segs.mapM (fun seg => (codeSegment codes seg).map (fun b => msbBits 5 16 ++ b))
          pure (embedTable true 0 p.width t ++ bitsToBytes parts.flatten, 1)
      match coded with
      | none => rawBlock p 1 orig
      | some (body, ntab) =>
        let padded := pad8 (List.replicate 40 0 ++ body ++ tail)
        if padded.length + 64 ≤ orig.length then
          blockHeader false 0 orig.length padded.length p tail.length ntab row (crc64 orig) ++ padded.drop 40
        else rawBlock p 1 orig

/-! ### The decoder (R456) -/

/-- The next bucket in a stream, by the codes in canonical order. -/
def readCode (codes : List (Nat × Nat × Nat)) (bs : List Bool) : Option (Nat × List Bool) :=
  match codes.find? (fun c => decide (c.2.1 ≤ bs.length) && (bitsNat (bs.take c.2.1) == c.2.2)) with
  | some (b, l, _) => some (b, bs.drop l)
  | none => none

/-- Decode the samples of one segment. -/
def decodeSamples (g : Geo) (codes : List (Nat × Nat × Nat)) :
    Nat → Nat → List Nat → List Bool → Option (List Nat × List Bool)
  | 0, _, prior, bs => some (prior, bs)
  | n + 1, j, prior, bs => do
    let (b, bs) ← readCode codes bs
    if b > g.w then none
    else
      let k := b - 1
      if bs.length < k then none
      else
        let u := if b = 0 then 0 else if b = 1 then 1 else 2 ^ (b - 1) + bitsNat (bs.take k)
        decodeSamples g codes n (j + 1) (unResidue g.w u (predict g j prior) :: prior) (bs.drop k)

/-- Decode all segments; values come last first. -/
def decodeSegments (g : Geo) (tbl : Nat → Option CodeTable) :
    Nat → Nat → Nat → List Nat → List Bool → Option (List Nat × List Bool)
  | 0, left, _, prior, bs => if left = 0 then some (prior, bs) else none
  | fuel + 1, left, j, prior, bs =>
    if left = 0 then some (prior, bs)
    else if bs.length < 5 then none
    else do
      let t ← tbl (bitsNat (bs.take 5))
      let n := min left 4096
      let (prior, bs) ← decodeSamples g (codesOf t) n j prior (bs.drop 5)
      decodeSegments g tbl fuel (left - n) (j + n) prior bs

/-- Embedded tables read from the front: (DYNAMIC, number, table). -/
def readTables (w : Nat) : Nat → List Byte → Option (List (Bool × Nat × CodeTable) × List Byte)
  | 0, bs => some ([], bs)
  | n + 1, bs =>
    match bs with
    | [] => none
    | h :: rest =>
      let size := (5 * (w + 1) + 7) / 8
      if rest.length < size then none
      else
        let bits := bytesToBits (rest.take size)
        let lens := (List.range (w + 1)).map (fun b => bitsNat ((bits.drop (5 * b)).take 5))
        let t := lens ++ List.replicate (48 - w) 0
        let padOk := (bits.drop (5 * (w + 1))).all (fun b => !b)
        if field h 4 3 ≠ 0 ∨ padOk = false ∨ tableValid t = false then none
        else do
          let (ts, bs) ← readTables w n (rest.drop size)
          pure ((h.getLsbD 7, field h 0 4, t) :: ts, bs)

/-- The original bytes of a stored block, or none where R456 calls it corrupt. -/
def decodeBlock (bs : List Byte) : Option (List Byte) :=
  let kind := leAt bs 3 1
  let orig := leAt bs 4 4
  let stored := leAt bs 8 4
  let pr := leAt bs 12 1
  let w := leAt bs 13 1
  let tail := leAt bs 14 1
  let ntab := leAt bs 15 1
  let x := leAt bs 16 4
  let y := leAt bs 20 4
  let row := leAt bs 24 4
  let raw := kind % 2 == 1
  if leAt bs 0 2 ≠ 0xC0B1 ∨ leAt bs 2 1 ≠ 1 ∨ (kind / 2) % 8 ≠ 0 ∨ pr / 32 ≠ 0 ∨ tail / 8 ≠ 0 ∨ leAt bs 28 4 ≠ 0 ∨
      orig = 0 ∨ orig > 262144 ∨ stored ≠ bs.length ∨ stored % 8 ≠ 0 then none
  else if raw then
    let data := (bs.drop 40).take orig
    if stored ≠ 40 + 8 * ((orig + 7) / 8) ∨ (bs.drop (40 + orig)).all (· == 0) = false ∨
        (crc64 data).toNat ≠ leAt bs 32 8 then none
    else some data
  else if w < 8 ∨ w > 48 ∨ pr % 16 > 6 ∨ tail > 5 ∨ ntab > 16 ∨ x = 0 ∨ y = 0 then none
  else do
    let s := (w + 7) / 8
    let signed := (pr / 16) % 2 == 1
    let g : Geo := { pred := pr % 16, signed, w, x, y, firstRow := row }
    let (ts, rest) ← readTables w ntab (bs.drop 40)
    let dyn := ts.any (·.1)
    let nums := ts.map (fun t => t.2.1)
    if (dyn && decide (ts.length ≠ 1)) || decide (nums.eraseDups.length ≠ nums.length) then none
    else
      let tbl (sel : Nat) : Option CodeTable :=
        if sel < 16 then some (builtinTable sel)
        else if dyn then (if sel = 16 then (ts.head?).map (fun t => t.2.2) else none)
        else (ts.find? (fun t => t.2.1 == sel - 16)).map (fun t => t.2.2)
      let n := (orig - tail) / s
      let bits := bytesToBits rest
      let (vals, left) ← decodeSegments g tbl (n / 4096 + 1) n 0 [] bits
      let pad := left.length % 8
      let after := rest.drop (rest.length - left.length / 8)
      let data := (vals.reverse.flatMap (fun v => leBytes s (containerOf signed w s v))) ++ after.take tail
      let zeros := after.drop tail
      if (left.take pad).all (fun b => !b) && decide (n * s + tail = orig) && zeros.all (· == 0) &&
          decide (zeros.length < 8) && decide (after.length ≥ tail) && decide ((crc64 data).toNat = leAt bs 32 8)
      then some data else none

end Sys2Proof.Machine
end

