-- ==== Sys2Proof/Machine/Crypto.lean ====
section
/-!
DEFINITION. The standards that ch11 and ch03 name and do not restate: AES-256 (FIPS 197), GCM (SP 800-38D), KW
(SP 800-38F), SHA-384, ECDSA P-384 (FIPS 186-5), and CRC-32C. Taken from the published standards (log 17).
-/
namespace Sys2Proof.Machine
open Sys2Proof

/-! ### AES-256 (R472, R473) -/

/-- Multiplication by x in GF(2^8). -/
def xtime (a : Nat) : Nat := let b := 2 * a; if b ≥ 256 then (b - 256) ^^^ 0x1B else b

/-- Multiplication in GF(2^8). -/
def gmul (a b : Nat) : Nat :=
  ((List.range 8).foldl (fun (acc : Nat × Nat) i =>
    (if (b / 2 ^ i) % 2 = 1 then acc.1 ^^^ acc.2 else acc.1, xtime acc.2)) (0, a)).1

/-- The multiplicative inverse in GF(2^8), 0 for 0: the 254th power. -/
def ginv (a : Nat) : Nat :=
  let sq := fun x => gmul x x
  let a2 := sq a
  let a4 := sq a2
  let a8 := sq a4
  let a16 := sq a8
  let a32 := sq a16
  let a64 := sq a32
  let a128 := sq a64
  gmul a2 (gmul a4 (gmul a8 (gmul a16 (gmul a32 (gmul a64 a128)))))

def rotl8 (a n : Nat) : Nat := (a * 2 ^ n) % 256 + a * 2 ^ n / 256

def sbox (a : Nat) : Nat :=
  let i := ginv a
  i ^^^ rotl8 i 1 ^^^ rotl8 i 2 ^^^ rotl8 i 3 ^^^ rotl8 i 4 ^^^ 0x63

def sboxTable : List Nat := (List.range 256).map sbox
def invSboxTable : List Nat := (List.range 256).map (fun v => sboxTable.idxOf v)

def subB (b : Nat) : Nat := sboxTable.getD b 0
def invSubB (b : Nat) : Nat := invSboxTable.getD b 0

def xorL (a b : List Nat) : List Nat := List.zipWith (· ^^^ ·) a b

/-- Round constants. -/
def rcon (i : Nat) : Nat := (List.range (i - 1)).foldl (fun a _ => xtime a) 1

/-- The 60 words of the AES-256 key schedule, last first. -/
def keyWords : Nat → List (List Nat) → List (List Nat)
  | 0, ws => ws
  | n + 1, ws =>
    let i := 60 - (n + 1)
    let prev := ws.headD []
    let back := ws.getD 7 []
    let t :=
      if i % 8 = 0 then
        let r := (prev.drop 1 ++ prev.take 1).map subB
        xorL r [rcon (i / 8), 0, 0, 0]
      else if i % 8 = 4 then prev.map subB
      else prev
    keyWords n (xorL back t :: ws)

/-- The 15 round keys, 16 bytes each. -/
def roundKeys (key : List Nat) : List (List Nat) :=
  let first := (List.range 8).map (fun i => (key.drop (4 * i)).take 4)
  let ws := (keyWords 52 first.reverse).reverse
  (List.range 15).map (fun r => ((ws.drop (4 * r)).take 4).flatten)

def shiftRows (st : List Nat) : List Nat :=
  (List.range 16).map (fun i => st.getD ((i + 4 * (i % 4)) % 16) 0)

def invShiftRows (st : List Nat) : List Nat :=
  (List.range 16).map (fun i => st.getD ((i + 16 - 4 * (i % 4)) % 16) 0)

/-- Columns multiplied by the circulant of `m`. -/
def mixWith (m : List Nat) (st : List Nat) : List Nat :=
  (List.range 16).map (fun i =>
    let c := i / 4
    let r := i % 4
    (List.range 4).foldl (fun acc k => acc ^^^ gmul (m.getD ((k + 4 - r) % 4) 0) (st.getD (4 * c + k) 0)) 0)

def mixColumns : List Nat → List Nat := mixWith [2, 3, 1, 1]
def invMixColumns : List Nat → List Nat := mixWith [14, 11, 13, 9]

/-- AES-256 encryption of one block of 16 bytes. -/
def aesEnc (key block : List Nat) : List Nat :=
  let ks := roundKeys key
  let s0 := xorL block (ks.getD 0 [])
  let s := (List.range 13).foldl (fun st r => xorL (mixColumns (shiftRows (st.map subB))) (ks.getD (r + 1) [])) s0
  xorL (shiftRows (s.map subB)) (ks.getD 14 [])

/-- AES-256 decryption of one block of 16 bytes. -/
def aesDec (key block : List Nat) : List Nat :=
  let ks := roundKeys key
  let s0 := xorL block (ks.getD 14 [])
  let s := (List.range 13).foldl
    (fun st r => invMixColumns (xorL ((invShiftRows st).map invSubB) (ks.getD (13 - r) []))) s0
  xorL ((invShiftRows s).map invSubB) (ks.getD 0 [])

def toNats (bs : List Byte) : List Nat := bs.map (·.toNat)
def ofNats (ns : List Nat) : List Byte := ns.map (BitVec.ofNat 8)

/-- AES-256 encryption on bytes. -/
def aes256 (key : BitVec 256) (block : List Byte) : List Byte :=
  ofNats (aesEnc (toNats (beBytes 32 key.toNat)) (toNats block))

/-- AES-256 decryption on bytes. -/
def aes256Inv (key : BitVec 256) (block : List Byte) : List Byte :=
  ofNats (aesDec (toNats (beBytes 32 key.toNat)) (toNats block))

/-! ### GCM (R478) -/

def ghashMul (x y : BitVec 128) : BitVec 128 :=
  ((List.range 128).foldl (fun (zv : BitVec 128 × BitVec 128) i =>
    let z := if x.getLsbD (127 - i) then zv.1 ^^^ zv.2 else zv.1
    let v := if zv.2.getLsbD 0 then (zv.2 >>> 1) ^^^ (0xE1#128 <<< 120) else zv.2 >>> 1
    (z, v)) (0, y)).1

/-- 16-byte blocks, the last one filled with zeros. -/
def blocks16 : Nat → List Byte → List (List Byte)
  | 0, _ => []
  | _ + 1, [] => []
  | n + 1, bs => slice bs 0 16 :: blocks16 n (bs.drop 16)

def ghash (h : BitVec 128) (bs : List (List Byte)) : BitVec 128 :=
  bs.foldl (fun y b => ghashMul (y ^^^ BitVec.ofNat 128 (beNat b)) h) 0

/-- The counter block IV ‖ n (R478). -/
def counterBlock (iv : List Byte) (n : Nat) : List Byte := iv ++ beBytes 4 n

/-- The key stream applied from counter `n`. -/
def ctrXor (key : BitVec 256) (iv : List Byte) : Nat → Nat → List Byte → List Byte
  | 0, _, _ => []
  | _ + 1, _, [] => []
  | fuel + 1, n, bs =>
    let ks := aes256 key (counterBlock iv n)
    List.zipWith (· ^^^ ·) (bs.take 16) ks ++ ctrXor key iv fuel (n + 1) (bs.drop 16)

/-- The GCM tag over AAD and ciphertext (R478). -/
def gcmTag (key : BitVec 256) (iv aad c : List Byte) : List Byte :=
  let h := BitVec.ofNat 128 (beNat (aes256 key (List.replicate 16 0)))
  let lens := beBytes 8 (8 * aad.length) ++ beBytes 8 (8 * c.length)
  let s := ghash h (blocks16 (aad.length + 1) aad ++ blocks16 (c.length + 1) c ++ [lens])
  List.zipWith (· ^^^ ·) (beBytes 16 s.toNat) (aes256 key (counterBlock iv 1))

/-- GCM-AES-256 encryption: ciphertext and tag. -/
def gcmEnc (key : BitVec 256) (iv aad p : List Byte) : List Byte × List Byte :=
  let c := ctrXor key iv (p.length + 1) 2 p
  (c, gcmTag key iv aad c)

/-- GCM-AES-256 decryption: the plaintext, and whether the tag agrees (R486). -/
def gcmDec (key : BitVec 256) (iv aad c t : List Byte) : List Byte × Bool :=
  (ctrXor key iv (c.length + 1) 2 c, decide (gcmTag key iv aad c = t))

/-! ### KW (R472, R487) -/

/-- One unwrapping step over the semiblocks, from the last to the first. -/
def kwUnstep (kek : BitVec 256) (n : Nat) (st : List Byte × List (List Byte)) (t : Nat) : List Byte × List (List Byte) :=
  let i := (t - 1) % n
  let a := List.zipWith (· ^^^ ·) st.1 (beBytes 8 t)
  let b := aes256Inv kek (a ++ st.2.getD i [])
  (b.take 8, st.2.set i (b.drop 8))

/-- KW unwrapping: the plaintext where the integrity check passes. -/
def kwUnwrap (kek : BitVec 256) (c : List Byte) : Option (List Byte) :=
  let n := c.length / 8 - 1
  let r := (List.range n).map (fun i => (c.drop (8 * (i + 1))).take 8)
  let ts := ((List.range (6 * n)).map (· + 1)).reverse
  let out := ts.foldl (kwUnstep kek n) (c.take 8, r)
  if out.1 = List.replicate 8 0xA6 then some out.2.flatten else none

/-! ### CRC-32C -/

/-- CRC-32C (Castagnoli), reflected, initial and final all ones. -/
def crc32c (bs : List Byte) : Word :=
  ~~~ (bs.foldl (fun (c : Word) b =>
    (List.range 8).foldl (fun (c : Word) _ => if c.getLsbD 0 then (c >>> 1) ^^^ 0x82F63B78#32 else c >>> 1)
      (c ^^^ BitVec.ofNat 32 b.toNat)) 0xFFFFFFFF#32)

/-! ### SHA-384 -/

/-- The largest `r` below 2^80 with `r ^ k ≤ n`. -/
def iroot (k n : Nat) : Nat :=
  ((List.range 80).reverse).foldl (fun r i => if (r + 2 ^ i) ^ k ≤ n then r + 2 ^ i else r) 0

def primes80 : List Nat :=
  ((List.range 410).filter (fun n => decide (n ≥ 2) && (List.range 21).all (fun d => decide (d < 2) || decide (n % d ≠ 0) || decide (n = d)))).take 80

def sha512K : List (BitVec 64) := primes80.map (fun p => BitVec.ofNat 64 (iroot 3 (p * 2 ^ 192)))
def sha384H : List (BitVec 64) := ((primes80.drop 8).take 8).map (fun p => BitVec.ofNat 64 (iroot 2 (p * 2 ^ 128)))

def rotr64 (x : BitVec 64) (n : Nat) : BitVec 64 := x.rotateRight n

/-- The message schedule, last word first. -/
def shaSchedule : Nat → List (BitVec 64) → List (BitVec 64)
  | 0, ws => ws
  | n + 1, ws =>
    let w15 := ws.getD 14 0
    let w2 := ws.getD 1 0
    let s0 := rotr64 w15 1 ^^^ rotr64 w15 8 ^^^ (w15 >>> 7)
    let s1 := rotr64 w2 19 ^^^ rotr64 w2 61 ^^^ (w2 >>> 6)
    shaSchedule n ((ws.getD 15 0 + s0 + ws.getD 6 0 + s1) :: ws)

def shaRound (st : List (BitVec 64)) (kw : BitVec 64) : List (BitVec 64) :=
  match st with
  | [a, b, c, d, e, f, g, h] =>
    let s1 := rotr64 e 14 ^^^ rotr64 e 18 ^^^ rotr64 e 41
    let ch := (e &&& f) ^^^ (~~~ e &&& g)
    let t1 := h + s1 + ch + kw
    let s0 := rotr64 a 28 ^^^ rotr64 a 34 ^^^ rotr64 a 39
    let mj := (a &&& b) ^^^ (a &&& c) ^^^ (b &&& c)
    [t1 + s0 + mj, a, b, c, d + t1, e, f, g]
  | _ => st

def shaBlock (h : List (BitVec 64)) (block : List Byte) : List (BitVec 64) :=
  let first := (List.range 16).map (fun i => BitVec.ofNat 64 (beNat ((block.drop (8 * i)).take 8)))
  let ws := (shaSchedule 64 first.reverse).reverse
  let out := (List.zipWith (· + ·) sha512K ws).foldl shaRound h
  List.zipWith (· + ·) h out

def shaBlocks : Nat → List (BitVec 64) → List Byte → List (BitVec 64)
  | 0, h, _ => h
  | _ + 1, h, [] => h
  | n + 1, h, bs => shaBlocks n (shaBlock h (bs.take 128)) (bs.drop 128)

/-- SHA-384 of a byte string, first byte most significant. -/
def sha384 (m : List Byte) : BitVec 384 :=
  let zeros := (128 - (m.length + 17) % 128) % 128
  let p := m ++ [0x80] ++ List.replicate zeros 0 ++ beBytes 16 (8 * m.length)
  let h := shaBlocks (p.length / 128) sha384H p
  BitVec.ofNat 384 ((h.take 6).foldl (fun n w => n * 2 ^ 64 + w.toNat) 0)

/-! ### ECDSA P-384 (R143, R475) -/

def p384p : Nat := 2 ^ 384 - 2 ^ 128 - 2 ^ 96 + 2 ^ 32 - 1
def p384n : Nat := 0xFFFFFFFFFFFFFFFFFFFFFFFFFFFFFFFFFFFFFFFFFFFFFFFFC7634D81F4372DDF581A0DB248B0A77AECEC196ACCC52973
def p384b : Nat := 0xB3312FA7E23EE7E4988E056BE3F82D19181D9C6EFE8141120314088F5013875AC656398D8A2ED19D2A85C8EDD3EC2AEF
def p384gx : Nat := 0xAA87CA22BE8B05378EB1C71EF320AD746E1D3B628BA79B9859F741E082542A385502F25DBF55296C3A545E3872760AB7
def p384gy : Nat := 0x3617DE4A96262C6F5D9E98BF9292DC29F8F41DBD289A147CE9DA3113B5F0B8C00A60B1CE1D7E819D7A431D7C90EA0E5F

/-- `a ^ e` mod `m`, over the 384 bits of `e`. -/
def powMod (m a e : Nat) : Nat :=
  ((List.range 384).reverse).foldl (fun r i => let q := (r * r) % m; if (e / 2 ^ i) % 2 = 1 then (q * a) % m else q) 1

def invMod (m a : Nat) : Nat := powMod m (a % m) (m - 2)

/-- Point addition in affine coordinates; none is the point at infinity. -/
def ecAdd (u v : Option (Nat × Nat)) : Option (Nat × Nat) :=
  match u, v with
  | none, v => v
  | u, none => u
  | some (x1, y1), some (x2, y2) =>
    let p := p384p
    if x1 = x2 ∧ (y1 + y2) % p = 0 then none
    else
      let l := if x1 = x2 then (3 * x1 * x1 + (p - 3)) * invMod p (2 * y1) % p
        else (y2 + p - y1) * invMod p (x2 + p - x1) % p
      let x3 := (l * l + 2 * p - x1 - x2) % p
      some (x3, (l * (x1 + p - x3) + p - y1) % p)

def ecMul (k : Nat) (q : Option (Nat × Nat)) : Option (Nat × Nat) :=
  ((List.range 384).reverse).foldl (fun r i => let d := ecAdd r r; if (k / 2 ^ i) % 2 = 1 then ecAdd d q else d) none

/-- ECDSA P-384 with SHA-384: does the 96-byte signature over `m` verify under the 96-byte key? -/
def ecdsaVerify (key sig m : List Byte) : Bool :=
  let qx := beNat (key.take 48)
  let qy := beNat (key.drop 48)
  let r := beNat (sig.take 48)
  let s := beNat (sig.drop 48)
  let p := p384p
  let n := p384n
  let onCurve := decide (qx < p) && decide (qy < p) && decide ((qy * qy) % p = (qx * qx * qx + (p - 3) * qx + p384b) % p)
  if r = 0 ∨ r ≥ n ∨ s = 0 ∨ s ≥ n ∨ onCurve = false then false
  else
    let w := invMod n s
    let z := (sha384 m).toNat
    match ecAdd (ecMul (z * w % n) (some (p384gx, p384gy))) (ecMul (r * w % n) (some (qx, qy))) with
    | none => false
    | some (x, _) => decide (x % n = r)

end Sys2Proof.Machine
end

