-- ==== Sys2Proof/Machine/Format.lean ====
section
/-!
DEFINITION. What the formatter writes on tape, bit for bit: the 32/33 channel code, the C1 codeword, the sync-and-ID
field, data-set information, C2, C3, the envelope and the manifest (ch12, R528 to R551); and the line code of staging
(ch09, R406). Pure functions.
-/
namespace Sys2Proof.Machine
open Sys2Proof

/-! ### The 32/33 channel code (R529, R530) -/

/-- Row m of the table N: valid endings of m bits that follow a run of r zeros, r from 0 to 13. -/
def endings : Nat → List Nat
  | 0 => (List.range 14).map (fun r => if r ≤ 6 then 1 else 0)
  | m + 1 =>
    let prev := endings m
    (List.range 14).map (fun r => prev.getD 0 0 + (if r < 13 then prev.getD (r + 1) 0 else 0))

/-- The bits still to be written, `n` of them, for rank `x` after a run of `r` zeros. -/
def channelBits : Nat → Nat → Nat → List Bool
  | 0, _, _ => []
  | n + 1, r, x =>
    let z := if r < 13 then (endings n).getD (r + 1) 0 else 0
    if x < z then false :: channelBits n (r + 1) x else true :: channelBits n 0 (x - z)

/-- The channel word of 33 bits for a 32-bit value, first-written bit first (R529). -/
def channelWord (x : Word) : List Bool := channelBits 33 7 x.toNat

/-- The rank of a channel word; none where it is not valid. -/
def channelRank : List Bool → Nat → Option Nat
  | [], r => if r ≤ 6 then some 0 else none
  | false :: bs, r => if r < 13 then channelRank bs (r + 1) else none
  | true :: bs, r =>
    let z := if r < 13 then (endings bs.length).getD (r + 1) 0 else 0
    (channelRank bs 0).map (· + z)

/-- A channel word decoded; none is an erasure (R529). -/
def unchannel (bs : List Bool) : Option Word :=
  match channelRank bs 7 with
  | some n => if n < 2 ^ 32 then some (BitVec.ofNat 32 n) else none
  | none => none

/-- The sync mark: 33 channel bits that are not modulated (R533). -/
def syncMark : List Bool :=
  [true] ++ List.replicate 17 false ++
  [true, false, true, true, false, false, true, true, true, false, true, false, true, true, true]

/-- A bit string of `n` groups of 32 bits, modulated: group g is bits 32g to 32g + 31, the bit at 32g + i bit i of the value
(R530). -/
def modulate (bs : List Byte) (n : Nat) : List Bool :=
  (List.range n).flatMap (fun g => channelWord (BitVec.ofNat 32 (leAt bs (4 * g) 4)))

/-- The lead-in and lead-out pattern on a channel: 9,570 channel bits, 1 0 repeated (R549). -/
def leadBits : List Bool := (List.range 9570).map (fun i => decide (i % 2 = 0))

/-! ### The C1 codeword (R531, R532) -/

/-- Shift of base row `i`, information column `k`: a_i × (2k + 1) mod 256 (R532). -/
def c1Shift (i k : Nat) : Nat := ([0, 1, 3, 7].getD i 0 * (2 * k + 1)) % 256

/-- P^s of a block: bit t of the result is bit (t + s) mod 256. -/
def c1Perm (s : Nat) (y : BitVec 256) : BitVec 256 := y.rotateRight s

/-- Block column `j` of the information part. -/
def c1Column (info : List Byte) (j : Nat) : BitVec 256 := BitVec.ofNat 256 (leAt info (32 * j) 32)

/-- λ_i (R532). -/
def c1Lambda (info : List Byte) (i : Nat) : BitVec 256 :=
  (List.range 32).foldl (fun acc k => acc ^^^ c1Perm (c1Shift i k) (c1Column info k)) 0

/-- The four parity columns p_32 to p_35 (R532). -/
def c1Parity (info : List Byte) : List (BitVec 256) :=
  let l0 := c1Lambda info 0
  let l1 := c1Lambda info 1
  let l2 := c1Lambda info 2
  let l3 := c1Lambda info 3
  let p32 := l0 ^^^ l1 ^^^ l2 ^^^ l3
  let p33 := l0 ^^^ c1Perm 1 p32
  let p34 := l1 ^^^ p33
  let p35 := l2 ^^^ p32 ^^^ p34
  [p32, p33, p34, p35]

/-- The 1,152 bytes of a C1 codeword: information, then parity (R531). -/
def c1Codeword (info : List Byte) : List Byte := info ++ (c1Parity info).flatMap (fun p => leBytes 32 p.toNat)

/-- The base matrix's parity columns (Table 12-3): shift of row i, column 32 + j. -/
def c1ParityShift (i j : Nat) : Option Nat :=
  ([[some 1, none, some 0, some 1], [some 0, some 0, none, none],
    [none, some 0, some 0, none], [none, none, some 0, some 0]].getD j []).getD i none

/-- The 256 checks of base row `i` over a codeword's 1,152 bytes; zero for a codeword (R532). -/
def c1Check (cw : List Byte) (i : Nat) : BitVec 256 :=
  (List.range 4).foldl (fun acc j =>
    match c1ParityShift i j with
    | some s => acc ^^^ c1Perm s (c1Column cw (32 + j))
    | none => acc) (c1Lambda cw i)

/-! ### The sync-and-ID field (R533, R534) -/

/-- CRC-8, polynomial 0x07 (R534). -/
def crc8 (bs : List Byte) : Byte :=
  bs.foldl (fun (c : Byte) b =>
    (List.range 8).foldl (fun (c : Byte) _ => if c.msb then (c <<< 1) ^^^ 0x07#8 else c <<< 1) (c ^^^ b)) 0

/-- The ID word (Table 12-4). -/
def idWord (row channel : Nat) (fill : Bool) (dsi : Byte) : Word :=
  let hi := row * 2 ^ 25 + channel * 2 ^ 19 + b2n fill * 2 ^ 18 + dsi.toNat * 2 ^ 8
  BitVec.ofNat 32 (hi + (crc8 ((leBytes 4 hi).reverse.take 3)).toNat)

/-- The sync-and-ID field and its codeword on one channel: 9,570 channel bits (R530, R531, R533, R535). -/
def pairBits (id : Word) (codeword : List Byte) : List Bool := syncMark ++ channelWord id ++ modulate codeword 288

/-! ### The downlink (R534, R568 to R571) -/

/-- Bit `i` of a channel's bits; 0 past the end. -/
def bitAt (bs : List Bool) (i : Nat) : Nat := b2n (bs.getD i false)

/-- The data blocks of a WD role: bit 2c + j of block b is channel bit 2b + j of the role's channel c, in NRZI form, a 1 for a
transition (R528, R569). -/
def wdBlocks (channels : List (List Bool)) (n : Nat) : List (BitVec 64) :=
  (List.range n).map (fun b => BitVec.ofNat 64 ((channels.zipIdx.map (fun c =>
    (bitAt c.1 (2 * b) + 2 * bitAt c.1 (2 * b + 1)) * 2 ^ (2 * c.2))).sum))

/-- A marker block's payload (Table 13-4). -/
def markerBlock (role port mbCount nextSeq : Nat) : BitVec 64 :=
  let hi := 0xD5 * 2 ^ 48 + role * 2 ^ 44 + port * 2 ^ 41 + mbCount * 2 ^ 32 + nextSeq * 2 ^ 8
  BitVec.ofNat 64 (hi * 2 ^ 8 + (crc8 (beBytes 7 hi)).toNat)

/-- An idle control block's payload (R568). -/
def idleBlock : BitVec 64 := 0x1E00000000000000

/-- A downlink multiblock: the marker, the data blocks and idle blocks up to 32; each with its sync header, 1 for data
(header 01) and 0 for control (header 10), before scrambling (R568). -/
def multiblock (marker : BitVec 64) (blocks : List (BitVec 64)) : List (Bool × BitVec 64) :=
  (false, marker) :: (blocks.take 31).map (fun b => (true, b)) ++ List.replicate (31 - blocks.length) (false, idleBlock)

/-- The data blocks of a WD role, `n` multiblocks of them from count `mb` on, the first block numbered `seq`
(R568, R569). -/
def wdMultiblocks (role port : Nat) : Nat → Nat → Nat → List (BitVec 64) → List (List (Bool × BitVec 64))
  | 0, _, _, _ => []
  | n + 1, mb, seq, blocks =>
    multiblock (markerBlock role port (mb % 200) (seq % 2 ^ 24)) blocks ::
      wdMultiblocks role port n (mb + 1) (seq + 31) (blocks.drop 31)

/-- The words of a message: header, body and CRC word (R570). -/
def messageWords (type seq arg : Nat) (body : List Nat) : List (BitVec 64) :=
  let header := type + 2 ^ 8 * body.length + 2 ^ 16 * seq + 2 ^ 32 * arg
  let crc := crc32c ((header :: body).flatMap (fun w => leBytes 8 w))
  (header :: body ++ [crc.toNat]).map (fun w => BitVec.ofNat 64 w)

/-! ### Galois fields and Reed-Solomon (R406, R539, R541) -/

/-- The number whose `lanes` fields of `m` bits all hold 1. -/
def lanesOnes (m lanes : Nat) : Nat := (2 ^ (m * lanes) - 1) / (2 ^ m - 1)

/-- Each of `lanes` symbols of GF(2^m), packed side by side in `x`, times α = x; `poly` is the reduction polynomial with
its x^m term. -/
def gfDouble (m poly lanes x : Nat) : Nat :=
  let ones := lanesOnes m lanes
  let top := (x >>> (m - 1)) &&& ones
  ((x ^^^ (top <<< (m - 1))) <<< 1) ^^^ (top * (poly - 2 ^ m))

/-- The multiples α^0 x, …, α^(m-1) x of the packed symbols, in that order. -/
def gfMultiples (m poly lanes : Nat) : Nat → Nat → List Nat
  | 0, _ => []
  | n + 1, x => x :: gfMultiples m poly lanes n (gfDouble m poly lanes x)

/-- The sum of the multiples that the bits of `c` select. -/
def gfSelect : List Nat → Nat → Nat
  | [], _ => 0
  | x :: xs, c => (if c % 2 = 1 then x else 0) ^^^ gfSelect xs (c / 2)

/-- The symbol `c` times each of the symbols packed in `x`. -/
def gfScale (m poly lanes c x : Nat) : Nat := gfSelect (gfMultiples m poly lanes m x) c

/-- Multiplication in GF(2^m) with reduction polynomial `poly` (its x^m term included). -/
def gfMul (m poly a b : Nat) : Nat := gfScale m poly 1 a b

/-- α^i, α = 2. -/
def gfPow (m poly i : Nat) : Nat := (List.range i).foldl (fun a _ => gfDouble m poly 1 a) 1

/-- A polynomial, highest coefficient first, times (x + r). -/
def polyTimesRoot (m poly : Nat) (p : List Nat) (r : Nat) : List Nat :=
  List.zipWith (· ^^^ ·) (p ++ [0]) (0 :: p.map (fun c => gfMul m poly c r))

/-- The generator with roots α^from, …, n of them, without its leading 1. -/
def rsGenerator (m poly from' n : Nat) : List Nat :=
  ((List.range n).foldl (fun p i => polyTimesRoot m poly p (gfPow m poly (from' + i))) [1]).drop 1

/-- The parity symbols of `lanes` codewords side by side, lane by lane: the remainder of D(x) x^n by the generator,
highest coefficient first. -/
def rsParityLanes (m poly lanes from' n : Nat) (data : List Nat) : List Nat :=
  let g := rsGenerator m poly from' n
  data.foldl (fun reg d =>
    let f := gfMultiples m poly lanes m (d ^^^ reg.headD 0)
    List.zipWith (· ^^^ ·) (reg.drop 1 ++ [0]) (g.map (gfSelect f))) (List.replicate n 0)

/-- The parity symbols of one codeword. -/
def rsParity (m poly from' n : Nat) (data : List Nat) : List Nat := rsParityLanes m poly 1 from' n data

/-- GF(2^12): x^12 + x^6 + x^4 + x + 1 (R539). -/
def poly12 : Nat := 0x1053
/-- GF(2^8): x^8 + x^4 + x^3 + x^2 + 1 (R539). -/
def poly8 : Nat := 0x11D
/-- GF(2^16): x^16 + x^12 + x^3 + x + 1 (R406). -/
def poly16 : Nat := 0x1100B

/-- The metadata bytes 0 to 5 of a staging line: C0, C1, C2, each low byte first (R406). -/
def lineChecks (line : Nat) (data : List Byte) : List Byte :=
  let a1 := line / 2 ^ 16 % 2 ^ 15
  let a0 := line % 2 ^ 16
  let ds := ((List.range 32).map (fun k => leAt data (2 * k) 2)).reverse
  match rsParity 16 poly16 1 3 ([a1, a0] ++ ds) with
  | [c2, c1, c0] => leBytes 2 c0 ++ leBytes 2 c1 ++ leBytes 2 c2
  | _ => []

/-! ### C2 and C3 (R536, R538 to R541) -/

/-- `n` pieces of `len` bytes each, from the start; bytes past the end are zero. -/
def chunks (len : Nat) : Nat → List Byte → List (List Byte)
  | 0, _ => []
  | n + 1, bs => slice bs 0 len :: chunks len n (bs.drop len)

/-- The data rows of a data area: 84 rows of the information bytes of 64 codewords, channel 0 first (R536). -/
def areaRows (area : List Byte) : List (List (List Byte)) := (chunks 65536 84 area).map (chunks 1024 64)

/-- The symbols of one C2 column: codeword (k, s) takes its data symbol of row r from channel (k + r) modulo 64 (R538).
`part` packs the symbols of all s in one codeword. -/
def c2Column (part : List Byte → Nat) (rows : List (List (List Byte))) (k : Nat) : List Nat :=
  rows.zipIdx.map (fun e => part (e.1.getD ((k + e.2) % 64) []))

/-- The 680 C2 word symbols of an information field, packed 12 bits each: symbol s is bits 12s to 12s + 11 of bytes 0 to
1,019 read least significant first, four symbols in six bytes (R536). -/
def c2Words (info : List Byte) : Nat := leNat (info.take 1020)

/-- The four C2 byte symbols, packed 8 bits each: bytes 1,020 to 1,023 (R536). -/
def c2Bytes (info : List Byte) : Nat := leNat (info.drop 1020)

/-- The C2 parity of the word codewords (k, 0) to (k, 679): 12 packed symbols, row 84 first (R538, R539). -/
def c2WordParity (rows : List (List (List Byte))) (k : Nat) : List Nat :=
  rsParityLanes 12 poly12 680 0 12 (c2Column c2Words rows k)

/-- The C2 parity of the byte codewords (k, 0) to (k, 3): 12 packed symbols, row 84 first (R538, R539). -/
def c2ByteParity (rows : List (List (List Byte))) (k : Nat) : List Nat :=
  rsParityLanes 8 poly8 4 0 12 (c2Column c2Bytes rows k)

/-- Information bytes of parity row r (84 to 95) on channel c, whose symbols belong to k = c - r modulo 64 (R538). -/
def c2Info (rows : List (List (List Byte))) (r c : Nat) : List Byte :=
  let k := (c + 64 * 2 - r) % 64
  leBytes 1020 ((c2WordParity rows k).getD (r - 84) 0) ++ leBytes 4 ((c2ByteParity rows k).getD (r - 84) 0)

/-- The two C3 parity bytes at one offset, tails 14 and 15, from the members' bytes; absent members are zero (R541). -/
def c3Parity (members : List Nat) : List Nat :=
  rsParity 8 poly8 0 2 (members ++ List.replicate (14 - members.length) 0)

/-- Bytes of a data area: 84 rows of 64 codewords of 1,024 information bytes (R536). -/
def dataAreaBytes : Nat := 5505024

/-- Two byte strings combined at each offset, the shorter filled with zeros. -/
def zipZero (f : Nat → Nat → Nat) : List Byte → List Byte → List Byte
  | [], bs => bs.map (fun b => BitVec.ofNat 8 (f 0 b.toNat))
  | as, [] => as.map (fun a => BitVec.ofNat 8 (f a.toNat 0))
  | a :: as, b :: bs => BitVec.ofNat 8 (f a.toNat b.toNat) :: zipZero f as bs

/-! ### Data-set information (R537) -/

/-- The fields of Table 12-6. -/
structure Dsi where
  kind : Nat
  pos : Nat
  k : Nat
  wrap : Nat
  rewrite : Nat
  stream : Nat
  dsn : Nat
  fill : Nat
  group : Nat
  lpos : Nat
  sessionNo : Nat
  cartridge : Nat
  streamSeq : Nat
  firstItem : Nat
  bytesBefore : Nat
  recordAtStart : Nat
  linkDsn : Nat
  linkWrap : Nat
  linkLpos : Nat
  deriving DecidableEq, Repr

/-- The 96 bytes of Table 12-6. -/
def dsiBytes (d : Dsi) : List Byte :=
  let body := leBytes 1 1 ++ leBytes 1 d.kind ++ leBytes 1 d.pos ++ leBytes 1 d.k ++ leBytes 1 d.wrap ++
    leBytes 1 d.rewrite ++ leBytes 1 d.stream ++ leBytes 1 0 ++ leBytes 6 d.dsn ++ leBytes 2 d.fill ++
    leBytes 6 d.group ++ leBytes 2 0 ++ leBytes 4 d.lpos ++ leBytes 4 d.sessionNo ++ leBytes 8 d.cartridge ++
    leBytes 6 d.streamSeq ++ leBytes 2 0 ++ leBytes 4 d.firstItem ++ leBytes 4 d.bytesBefore ++
    leBytes 6 d.recordAtStart ++ leBytes 2 0 ++ leBytes 6 d.linkDsn ++ leBytes 1 d.linkWrap ++ leBytes 1 0 ++
    leBytes 4 d.linkLpos ++ List.replicate 16 0
  body ++ leBytes 4 (crc32c body).toNat

/-! ### The envelope (R542) -/

/-- The fields of Table 12-7. -/
structure Envelope where
  stream : Nat
  record : Nat
  blocks : Nat
  profile : Nat
  origLen : Nat
  hostTag : Nat
  storedLen : Nat
  keyId : Nat
  /-- IV of block 0, 12 bytes. -/
  iv0 : List Byte
  /-- Bit k: block k is raw. -/
  raw : Nat
  deriving DecidableEq, Repr

/-- The 64 bytes of Table 12-7. -/
def envelopeBytes (e : Envelope) : List Byte :=
  let body := leBytes 2 0x5845 ++ leBytes 1 e.stream ++ leBytes 1 1 ++ leBytes 6 e.record ++ leBytes 1 e.blocks ++
    leBytes 1 e.profile ++ leBytes 4 e.origLen ++ leBytes 8 e.hostTag ++ leBytes 4 e.storedLen ++
    leBytes 4 e.keyId ++ slice e.iv0 0 12 ++ leBytes 16 e.raw
  body ++ leBytes 4 (crc32c body).toNat

/-- An envelope read back; none where MAGIC, PROG, CRC or a zero field breaks it (R561). -/
def readEnvelope (bs : List Byte) : Option Envelope :=
  if leAt bs 0 2 ≠ 0x5845 ∨ leAt bs 3 1 ≠ 1 ∨ (crc32c (slice bs 0 60)).toNat ≠ leAt bs 60 4 then none
  else some { stream := leAt bs 2 1, record := leAt bs 4 6, blocks := leAt bs 10 1, profile := leAt bs 11 1,
              origLen := leAt bs 12 4, hostTag := leAt bs 16 8, storedLen := leAt bs 24 4, keyId := leAt bs 28 4,
              iv0 := slice bs 32 12, raw := leAt bs 44 16 }

/-- The AAD of block `index` (Table 11-3, R479). -/
def aadBytes (e : Envelope) (index storedLen : Nat) : List Byte :=
  leBytes 2 1 ++ leBytes 1 1 ++ leBytes 1 e.stream ++ leBytes 4 e.keyId ++ leBytes 6 e.record ++ leBytes 2 0 ++
  leBytes 8 e.hostTag ++ leBytes 4 e.origLen ++ leBytes 1 e.profile ++ leBytes 1 e.blocks ++ leBytes 1 index ++
  leBytes 1 0 ++ leBytes 4 storedLen ++ leBytes 4 0

/-- The IV: FIXED then INV, big-endian (Table 11-2, R477). -/
def ivBytes (unit session inv : Nat) : List Byte := beBytes 4 (unit * 2 ^ 29 + session) ++ beBytes 8 inv

/-- An encrypted block (Table 11-1). -/
def encryptedBlock (key : BitVec 256) (e : Envelope) (index : Nat) (iv p : List Byte) : List Byte :=
  let ct := gcmEnc key iv (aadBytes e index p.length) p
  leBytes 1 1 ++ leBytes 1 index ++ leBytes 2 0 ++ iv ++ ct.1 ++ ct.2

/-- An encrypted block opened: the plaintext, and whether its tag agrees (R486). -/
def openBlock (key : BitVec 256) (e : Envelope) (bs : List Byte) : List Byte × Bool :=
  let n := bs.length - 32
  gcmDec key (slice bs 4 12) (aadBytes e (leAt bs 1 1) n) (slice bs 16 n) (slice bs (16 + n) 16)

/-! ### The manifest (R551) -/

/-- One piece entry (Table 12-9). -/
structure Piece where
  record : Nat
  stream : Nat
  first : Bool
  last : Bool
  dsn : Nat
  wrap : Nat
  lpos : Nat
  offset : Nat
  length : Nat
  bytesBefore : Nat
  streamSeq : Nat
  hostTag : Nat
  deriving DecidableEq, Repr

def pieceBytes (p : Piece) : List Byte :=
  leBytes 6 p.record ++ leBytes 1 p.stream ++ leBytes 1 (b2n p.first + 2 * b2n p.last) ++ leBytes 6 p.dsn ++
  leBytes 1 p.wrap ++ leBytes 1 0 ++ leBytes 4 p.lpos ++ leBytes 4 p.offset ++ leBytes 4 p.length ++
  leBytes 4 p.bytesBefore ++ leBytes 6 p.streamSeq ++ leBytes 2 0 ++ leBytes 8 p.hostTag

/-- A session manifest (Table 12-8). -/
structure Manifest where
  sessionNo : Nat
  nonceFloor : Nat
  cartridge : Nat
  firstDsn : Nat
  prevDsn : Nat
  prevWrap : Nat
  prevLpos : Nat
  sessions : List Nat
  /-- Streams written, each with the cartridges of its set. -/
  sets : List (Nat × List Nat)
  pieces : List Piece
  deriving DecidableEq, Repr

/-- Order of piece entries: stream, record, BYTES_BEFORE (Table 12-8). -/
def pieceLe (a b : Piece) : Bool :=
  if a.stream ≠ b.stream then decide (a.stream < b.stream)
  else if a.record ≠ b.record then decide (a.record < b.record)
  else decide (a.bytesBefore ≤ b.bytesBefore)

def insertPiece (x : Piece) : List Piece → List Piece
  | [] => [x]
  | y :: t => if pieceLe x y then x :: y :: t else y :: insertPiece x t

def sortPieces (ps : List Piece) : List Piece := ps.foldl (fun acc p => insertPiece p acc) []

/-- The bytes of Table 12-8. -/
def manifestBytes (m : Manifest) : List Byte :=
  let list := m.sessions.flatMap (fun v => leBytes 4 v)
  let listPad := list ++ List.replicate ((64 - list.length % 64) % 64) 0
  let sets := m.sets.flatMap (fun e =>
    leBytes 1 e.1 ++ leBytes 1 e.2.length ++ List.replicate 6 0 ++
    ((e.2 ++ List.replicate (8 - e.2.length) 0).take 8).flatMap (fun c => leBytes 8 c))
  let pieces := (sortPieces m.pieces).flatMap pieceBytes
  let total := 128 + listPad.length + sets.length + pieces.length + 8
  let body := leBytes 4 0x31464D58 ++ leBytes 2 1 ++ leBytes 2 0 ++ leBytes 4 m.sessionNo ++
    leBytes 4 m.sessions.length ++ leBytes 8 m.nonceFloor ++ leBytes 8 m.cartridge ++ leBytes 6 m.firstDsn ++
    leBytes 2 0 ++ leBytes 6 m.prevDsn ++ leBytes 1 m.prevWrap ++ leBytes 1 0 ++ leBytes 4 m.prevLpos ++
    leBytes 4 m.sets.length ++ leBytes 8 m.pieces.length ++ leBytes 8 total ++ List.replicate 56 0 ++
    listPad ++ sets ++ pieces
  body ++ leBytes 8 (crc64 body).toNat

end Sys2Proof.Machine
end

