-- ==== Sys2Proof/Machine/State.lean ====
section
/-!
DEFINITION. The state of the XF-4812 as plain data. One structure per block of the spec; each field's docstring ends
with the rule and chapter that name it and a mark: [S] the spec gives the value after reset, [D n] the spec gives none
and log entry n names the value, [M n] a field of the model's own, log entry n. Default values are the reset values.
-/
namespace Sys2Proof.Machine
open Sys2Proof

/-- No command of this block ends in a fault: an error flag, an aborted write or a refused message is the command's
effect on the state (log 1). The type has no constructor, so a fault outcome cannot be built (safe). -/
inductive Fault where
  deriving DecidableEq, Repr

/-- Why a command has no meaning here. -/
inductive Refusal where
  /-- Raised by an arm of the dispatcher whose command has no meaning yet (safe: the machine stops). -/
  | notModelled (mnemonic : String)
  deriving DecidableEq, Repr

/-- Information bytes of data rows that are unknown, by codeword: row, channel, byte numbers. -/
abbrev Gaps := List ((Nat × Nat) × List Nat)

/-- A finite map from naturals, keys strictly rising, that lists no entry equal to its default. -/
abbrev Sparse (β : Type) := List (Nat × β)

/-! ### Windows, wide-value port, counters (ch04) -/

/-- The one far access a window instance may have outstanding (R191). -/
inductive FarAccess where
  | idle
  | read (addr : Nat)
  | write (addr : Nat) (v : Word)
  deriving DecidableEq, Repr

/-- A request on the far-space bus, or in the queue of a transport port (R197, ch04; R578, ch13). -/
structure FarReq where
  origin : Origin
  write : Bool
  /-- The far address. -/
  addr : Nat
  value : Word
  /-- Its origin still waits for it; an abandoned prefetch goes on without one (R198). -/
  live : Bool
  deriving DecidableEq, Repr

/-- One instance of the indirect window (R166 to R174, Tables 04-11 to 04-14). -/
structure Window where
  /-- IND_ADDR, word address (R166, ch04 Table 04-11). [S] -/
  addr : Word := 0
  /-- IND_DATA as last read or posted (R168, ch04 Table 04-12). [S] -/
  data : Word := 0
  /-- IND_STAT.READY (R168, ch04 Table 04-13). [S] -/
  ready : Bool := false
  /-- IND_STAT.BUSY (R170, ch04 Table 04-13). [S] -/
  busy : Bool := false
  /-- IND_STAT.ERR, a code of Table 04-4 (R202, ch04 Table 04-13). [S] -/
  err : BitVec 4 := 0
  /-- IND_CTRL.AUTOINC (R169, ch04 Table 04-14). [S] -/
  autoinc : Bool := false
  /-- The far access in progress (R191, ch04). [S] -/
  far : FarAccess := .idle
  deriving DecidableEq, Repr

/-- The wide-value port, one for all origins (R184 to R188). -/
structure WidePort where
  /-- WV_SEL.AUTONEXT (R186, ch04 Table 04-15). [S] -/
  autonext : Bool := false
  /-- WV_SEL.ITEM (R185, ch04 Table 04-15). [S] -/
  item : BitVec 8 := 0
  /-- WV_SEL.PIECE (R186, ch04 Table 04-15). [S] -/
  piece : BitVec 8 := 0
  /-- WV_VALID.PIECES (R185, ch04 Table 04-16). [S] -/
  pieces : BitVec 8 := 0
  /-- WV_VALID.PIECE: the piece the data words hold (R185, ch04 Table 04-16). [S] -/
  held : BitVec 8 := 0
  /-- WV_VALID.ERR (R185, ch04 Table 04-16). [S] -/
  err : Bool := false
  /-- WV_VALID.VALID (R185, ch04 Table 04-16). [S] -/
  valid : Bool := false
  /-- WV_DATA_0 to WV_DATA_3 (R187, ch04 Table 04-17). [S] -/
  data : Vector Word 4 := Vector.replicate 4 0
  /-- A selected piece is being loaded (R185, R199, ch04). [S] -/
  loading : Bool := false
  /-- Content generation of each item, by item number (R188, ch04). [S] -/
  gen : Sparse (BitVec 4) := []
  deriving DecidableEq, Repr

/-- The register-access state shared by all blocks (ch04). -/
structure Regs where
  /-- The PCIe window instance (ch04 R166). [S] -/
  winPcie : Window := {}
  /-- The I2C window instance (ch04 R175). [S] -/
  winI2c : Window := {}
  /-- The debug port's window instance (ch04 R166, ch19). [S] -/
  winDebug : Window := {}
  /-- SUP's own far access; SUP shares the bus and has no window registers (R197, ch04; log 161). [M 161] -/
  winSup : Window := {}
  /-- Requests on the far-space bus to HBM3 controllers, SerDes lanes and fuses, the one in service first (R197, ch04). [S] -/
  bus : List FarReq := []
  /-- The wide-value port (ch04 R184). [S] -/
  wv : WidePort := {}
  /-- The 48-bit counters by BAR0 offset of their _LO word; one not listed is 0 (R183, ch04). [S] -/
  counters : Sparse (BitVec 48) := []
  /-- PCIe shadows of counter bits [47:32], by _LO offset (R182, ch04). [S] -/
  shPcie : Sparse (BitVec 16) := []
  /-- I2C shadows (R182, ch04). [S] -/
  shI2c : Sparse (BitVec 16) := []
  /-- Debug-port shadows (R182, ch04). [S] -/
  shDebug : Sparse (BitVec 16) := []
  /-- SUP's shadows (R182, ch04). [S] -/
  shSup : Sparse (BitVec 16) := []
  /-- Configuration registers whose stored parity does not match, by offset (R163, ch04). [S] -/
  badParity : List Nat := []
  /-- Mismatches already reported and not re-armed (R165, ch04). [S] -/
  parityReported : List Nat := []
  /-- RX_INV_AUTO, RX_INV_SET and TX_INV of each SerDes lane, bits 2 to 0 (R91, ch02 Table 02-20). [S] -/
  polarity : Vector (BitVec 3) 144 := Vector.replicate 144 0
  deriving DecidableEq, Repr

/-- The I2C target's transaction (R175 to R180, ch04). -/
structure I2cBus where
  /-- The boot ROM has enabled the target (R87, ch02). [S] -/
  enabled : Bool := false
  /-- A transaction addressed to the formatter is open (R87, ch02). [S] -/
  addressed : Bool := false
  /-- Bytes of the current word that stood before a stop (R178, ch04). [S] -/
  partialBytes : List Byte := []
  deriving DecidableEq, Repr

/-! ### Interrupt tree and faults (ch05) -/

/-- Masks and second-level registers of one TRN source (Table 05-3). -/
structure TrnLeaves where
  /-- TRN_n_LINK_CAUSE (R215, ch05 Table 05-3). [S] -/
  link : Word := 0
  /-- TRN_n_LINK_MASK (R239, ch05). [S] -/
  linkMask : Word := 0x7F
  /-- TRN_n_SERVO_CAUSE (R215, ch05 Table 05-3). [S] -/
  servo : Word := 0
  /-- TRN_n_SERVO_MASK (R239, ch05). [S] -/
  servoMask : Word := 0x7
  /-- TRN_n_VERIFY_CAUSE (R215, ch05 Table 05-3). [S] -/
  verify : Word := 0
  /-- TRN_n_VERIFY_MASK (R239, ch05). [S] -/
  verifyMask : Word := 0xF
  deriving DecidableEq, Repr

/-- The implemented bits of each first-level cause register, sources 0 to 27 (Table 05-2). -/
def leafBits : Vector Word 28 := #v[
  0x7, 0x8000007F, 0x8000001F, 0x8000001F, 0x8000001F, 0x8000001F, 0x800000FF,
  0x80000007, 0x8000003F, 0x8000003F, 0x8000003F,
  0x8000003F, 0x8000003F, 0x8000003F, 0x8000003F, 0x8000003F, 0x8000003F, 0x8000003F, 0x8000003F,
  0x80000007, 0x8000001F, 0x3, 0xF, 0xF, 0xF, 0x7, 0x7F, 0x7]

/-- The interrupt tree (ch05). -/
structure Irq where
  /-- Event leaves latched in each first-level cause register (R211, R233, ch05 Table 05-2). [S] -/
  cause : Vector Word 28 := Vector.replicate 28 0
  /-- The mask of each first-level cause register (R212, R237, ch05). [S] -/
  mask : Vector Word 28 := leafBits
  /-- Second-level cause and mask pairs of TRN_0 to TRN_7 (ch05 Table 05-3). [S] -/
  trn : Vector TrnLeaves 8 := Vector.replicate 8 {}
  /-- SUMMARY_MASK (R237, ch05 Table 05-8). [S] -/
  summaryMask : Word := 0x0FFFFFFF
  /-- INT_CTRL.PIN_OFF (R207, ch05 Table 05-9). [S] -/
  pinOff : Bool := false
  /-- INT_CTRL.HOLDOFF, µs (R210, ch05 Table 05-9). [S] -/
  holdoff : BitVec 16 := 0
  /-- The attention condition as last evaluated (R208, ch05). [S] -/
  attention : Bool := false
  /-- INT_N is asserted (R207, R237, ch05). [S] -/
  intN : Bool := false
  /-- The 2 µs release of an end-of-interrupt write runs (R218, R219, ch05). [S] -/
  eoiRelease : Bool := false
  /-- The hold-off since the last MSI-X message runs (R210, ch05). [S] -/
  holdoffRuns : Bool := false
  /-- A message fell due inside the hold-off (R210, ch05). [S] -/
  msixDue : Bool := false
  /-- The MSI-X Pending bit (R209, ch05; R294, ch07). [S] -/
  msixPending : Bool := false
  deriving DecidableEq, Repr

/-- One fault of levels 1 to 3 as SUP holds it (R225 to R231, Table 06-12). -/
structure FaultRec where
  level : Nat
  source : Nat
  /-- Leaf coded as in FAULT_LAST (Table 05-14). -/
  leaf : BitVec 8
  stamp : BitVec 48
  detail : Word
  preempted : Bool
  /-- Descriptors of the records whose FAILED completion the handling owes (R832). -/
  owes : List Nat
  deriving DecidableEq, Repr

/-- One fault-log entry (Table 06-12). -/
structure LogEntry where
  index : BitVec 24
  flt : FaultRec
  unhandled : Bool
  deriving DecidableEq, Repr

/-- SUP's fault handling (ch05). -/
structure Faults where
  /-- Faults whose handling has not begun, in the order of detection (R225, ch05). [S] -/
  queue : List FaultRec := []
  /-- Faults suspended by preemption, last suspended first (R228, ch05). [S] -/
  suspended : List FaultRec := []
  /-- The fault in hand; FAULT_INHAND shows it (R226, ch05 Table 05-13). [S] -/
  inHand : Option FaultRec := none
  /-- FAULT_HALTED.SRC (R220, ch05 Table 05-12). [S] -/
  halted : BitVec 28 := 0
  /-- The mask register whose own parity mismatch halted its block, by source (R222, ch05). [S] -/
  parityMasks : List (Nat × Nat) := []
  /-- The fault log, oldest first (R264, R286, ch06). [S] -/
  log : List LogEntry := []
  /-- Index of the next log entry (R286, ch06). [S] -/
  nextLog : BitVec 24 := 0
  /-- The safe state is in force: FAULT_CAUSE.SAFE (R221, ch05). [S] -/
  safe : Bool := false
  /-- Transports whose stop the safe-state entry still waits for, bit n (R221, ch05 Table 05-5). [S] -/
  safeStopping : BitVec 8 := 0
  deriving DecidableEq, Repr

/-! ### Mailboxes, tickets, doorbells (ch06) -/

/-- The last message a channel had answered (R249). -/
structure Remembered where
  header : Word
  params : List Word
  ack : Word
  answer : Vector Word 16
  deriving DecidableEq, Repr

/-- One mailbox channel (R241, Tables 06-15 to 06-18). -/
structure Channel where
  /-- MBX_n_MSG_0 to MBX_n_MSG_15 (R241, ch06 Table 06-15). [S] -/
  msg : Vector Word 16 := Vector.replicate 16 0
  /-- MBX_n_STAT.FULL (R242, ch06 Table 06-17). [S] -/
  full : Bool := false
  /-- MBX_n_STAT.TAKEN (ch06 Table 06-17). [S] -/
  taken : Bool := false
  /-- MBX_n_STAT.WORKING (ch06 Table 06-17). [S] -/
  working : Bool := false
  /-- MBX_n_STAT.DONE (ch06 Table 06-17). [S] -/
  done : Bool := false
  /-- MBX_n_STAT.CA (R243, ch06 Table 06-17). [S] -/
  ca : Bool := false
  /-- MBX_8_STAT.NACKED (R244, ch06 Table 06-17). [S] -/
  nacked : Bool := false
  /-- MBX_n_ACK (R248, ch06 Table 06-18). [S] -/
  ack : Word := 0
  /-- The replay memory (R249, R250, ch06). [S] -/
  remembered : Option Remembered := none
  deriving DecidableEq, Repr

/-- The work of a long command in flight, as its ticket holds it. -/
inductive LongOp where
  | domain (dom : Nat) (on : Bool)
  | recover (src : Nat)
  | linkStart (n : Trn)
  | linkStop (n : Trn)
  | load (n : Trn) (forWrite : Bool)
  | unload (n : Trn)
  | flush (s : Strm)
  | close (s : Strm)
  | index (n : Trn)
  | rebuild (n : Trn) (commit : Bool)
  | record (n : Trn)
  /-- The slots named, and the records bound to them when the command was taken. -/
  | keyClear (slots : BitVec 16) (bound : Nat)
  | nvRow
  | portEnable (p : Port)
  | portDisable (p : Port)
  | qpDestroy (p : Port) (q : Fin 64)
  | loopOn (target : Nat)
  | loopOff (target : Nat)
  | kat (unit : Nat)
  | tetherExport
  | thaw
  deriving DecidableEq, Repr

/-- One ticket and its completion slot (R252 to R256, Table 06-21). -/
structure Ticket where
  /-- The ticket is held: CQ_HELD (R252, ch06 Table 06-20). [S] -/
  held : Bool := false
  /-- Completed and unreleased: CQ_DONE (R254, ch06 Table 06-20). [S] -/
  done : Bool := false
  /-- The issuing channel (ch06 Table 06-21). [S] -/
  chan : Nat := 0
  /-- The request's header word (ch06 Table 06-21). [S] -/
  header : Word := 0
  /-- The work in flight (R252, ch06). [S] -/
  work : Option LongOp := none
  /-- Completion slot words W0 to W7 (R256, ch06 Table 06-21). [S] -/
  slot : Vector Word 8 := Vector.replicate 8 0
  deriving DecidableEq, Repr

/-- SYS.CONFIG parameters (Table 06-13). -/
structure SysConfig where
  /-- BALLAST_MIB (R288, ch06 Table 06-13). [S] -/
  ballastMib : Nat := 4096
  /-- HIGH_WATER_MIB (R288, ch06 Table 06-13). [S] -/
  highWaterMib : Nat := 90112
  /-- TETHER_RING_MIB (R288, ch06 Table 06-13). [S] -/
  tetherRingMib : Nat := 1024
  /-- HEARTBEAT_MS (R260, ch06 Table 06-13). [S] -/
  heartbeatMs : Nat := 0
  /-- MGMT_FAMILIES (R279, ch06 Table 06-13). [S] -/
  mgmtFamilies : Word := 0x802
  deriving DecidableEq, Repr

/-- Mailboxes, doorbells, tickets and the audit snapshot (ch06). -/
structure Mbx where
  /-- Channels MBX_0 to MBX_9 (ch06 Table 06-1). [S] -/
  chan : Vector Channel 10 := Vector.replicate 10 {}
  /-- Tickets 0 to 63 (R252, ch06). [S] -/
  ticket : Vector Ticket 64 := Vector.replicate 64 {}
  /-- The channel whose message was taken last, for the round robin from MBX_0 (R245, ch06). [D 16] -/
  turn : Nat := 9
  /-- DB_STAT (R258, ch06 Table 06-19). [S] -/
  dbStat : Word := 0
  /-- DB_MASK (ch06 Table 06-19). [S] -/
  dbMask : Word := 0xFFFFFFFF
  /-- HEARTBEAT.COUNT (R260, ch06 Table 06-22). [S] -/
  heartbeat : Word := 0
  /-- SYS.CONFIG parameters (ch06 Table 06-13). [S] -/
  config : SysConfig := {}
  /-- Number of SYS.AUDIT commands since reset (R283, ch06). [S] -/
  audits : Nat := 0
  /-- The book snapshot, 2,880 bytes once an audit ran (R284, ch06). [S] -/
  snapshot : List Byte := []
  /-- A SYS.RESET was answered and its millisecond runs (R282, ch06). [S] -/
  resetDue : Bool := false
  deriving DecidableEq, Repr

/-! ### PD_AON, domains, clocks, boot (ch03) -/

/-- Where boot stands (Table 03-9). -/
inductive BootPhase where
  /-- A reset is held: RESET_N low, a brownout, or a fuse row under way. -/
  | held
  /-- Released; waiting for REFCLK and the CCLK PLL (step 1). -/
  | pll
  /-- The fuse load runs (step 2). -/
  | fuses
  /-- Control-SRAM self-test and valid-map clear run (step 3). -/
  | selfTest
  /-- The boot ROM trains HBM3 and looks for an image (steps 5 to 7), or holds. -/
  | rom
  /-- Fjarma initialises (steps 8 to 10). -/
  | init
  /-- Fjarma runs: READY or SAFE. -/
  | running
  /-- BOOT_FAIL. -/
  | failed
  /-- A reset of sources 0x6 to 0x9 has asserted and its freeze copy runs; the switched domains are reset after it. -/
  | copying
  /-- Standby: only PD_AON runs. -/
  | standby
  deriving DecidableEq, Repr

/-- The freeze buffer's 64-byte header (Table 18-3) and the units it holds. -/
structure FreezeBuf where
  /-- The header is valid: MAGIC and CRC good (R764, ch18; R833, ch03). [S] -/
  valid : Bool := false
  /-- FREEZE_REASON (ch18 Table 18-3). [S] -/
  reason : Byte := 0
  /-- RESET_CODE, 0xFF when no reset has followed (ch18 Table 18-3). [S] -/
  resetCode : Byte := 0
  /-- BOOT (ch18 Table 18-3). [S] -/
  boot : Byte := 0
  /-- EPOCH (ch18 Table 18-3). [S] -/
  epoch : BitVec 16 := 0
  /-- FIRST (ch18 Table 18-3). [S] -/
  first : BitVec 48 := 0
  /-- LAST (ch18 Table 18-3). [S] -/
  last : BitVec 48 := 0
  /-- FW_VERSION (ch18 Table 18-3). [S] -/
  version : Word := 0
  /-- DIGEST8 (ch18 Table 18-3). [S] -/
  digest8 : BitVec 64 := 0
  /-- The units copied, newest first (R130, ch03; R750, ch18). [S] -/
  units : List (BitVec 128) := []
  deriving DecidableEq, Repr

/-- A freeze copy under way at a reset: what the buffer will hold, and how many of its units are still to be copied
(R130, R833). -/
structure FreezeJob where
  buf : FreezeBuf
  todo : Nat
  deriving DecidableEq, Repr

/-- Always-on state (PD_AON, ch03 Table 03-2). -/
structure Aon where
  /-- RST_CAUSE.CAUSE (R121, R132, ch03 Table 03-17). [S] -/
  cause : BitVec 4 := 0
  /-- RST_CAUSE.ALSO, bit k for source code k (R121, ch03 Table 03-17). [S] -/
  also : BitVec 11 := 0
  /-- RST_CAUSE.DETAIL (R217, ch03 Table 03-17). [S] -/
  detail : BitVec 8 := 0
  /-- RST_COUNT.RESETS, saturating (ch03 Table 03-18). [S] -/
  resets : BitVec 8 := 0
  /-- RST_COUNT.PERST, saturating (ch03 Table 03-18). [S] -/
  persts : BitVec 8 := 0
  /-- FAULT_LAST (R234, R235, ch05 Table 05-14). [S] -/
  faultLast : Word := 0
  /-- STRAP_STAT: bits [1:0] BOOTSEL, [3:2] I2CADDR as last sampled (R69, R133, ch02 Table 02-18). [D 8] -/
  straps : BitVec 4 := 0
  /-- The freeze buffer (R130 to R132, ch03). [S] -/
  freeze : FreezeBuf := {}
  /-- The freeze copy that a reset waits for (R130, R833, ch03). [S] -/
  copying : Option FreezeJob := none
  /-- RESET_N is taken as low by its filter (R115, ch03). [D 8] -/
  resetLow : Bool := true
  /-- PERST_N is low (R126, ch03). [D 8] -/
  perstLow : Bool := true
  /-- A VAON brownout has not been released (R718, ch17). [D 8] -/
  vaonLow : Bool := false
  /-- A VCORE brownout has not been released (R718, ch17). [D 8] -/
  vcoreLow : Bool := false
  /-- VAON stands below the power-on crossing of 1.20 V (R718, ch17). [D 8] -/
  vaonDown : Bool := false
  /-- The VAON brownout monitor is armed (R96, ch02; R718, ch17). [D 8] -/
  vaonArmed : Bool := false
  /-- The VCORE brownout monitor is armed (R96, ch02; R718, ch17). [D 8] -/
  vcoreArmed : Bool := false
  /-- REFCLK counts as lost (R113, R114, ch03). [D 8] -/
  refclkLost : Bool := false
  /-- The NV inhibit is in force: SUPPLY_STAT.NV_INHIBIT (R507, ch11; R718, R834, ch17). [D 9] -/
  nvInhibit : Bool := true
  /-- WAKE_N is asserted (R109, ch03). [S] -/
  wakeN : Bool := false
  /-- A wake request arrived between the standby ACK and standby entry (R123, ch03). [S] -/
  wakeLate : Bool := false
  /-- AUX pins in the interlock-input function at standby entry, with the polarity that makes them logical (R109, ch03). [S] -/
  wakePins : BitVec 24 := 0
  /-- AUX_POL as it stood at standby entry (R109, ch03). [S] -/
  wakePol : BitVec 24 := 0
  deriving DecidableEq, Repr

/-- A domain switch waiting or under way (R116 to R118). -/
structure DomSwitch where
  dom : Nat
  on : Bool
  /-- The ticket of the SYS.POWER command; none for an automatic switch by GOV. -/
  ticket : Option Nat
  deriving DecidableEq, Repr

/-- Domains, clocks and the boot ROM (ch03). -/
structure Power where
  /-- PD_STAT.ON in the bit order of Table 03-19 (ch03). [S] -/
  on : BitVec 12 := 0xFFF
  /-- Domain switches waiting, in arrival order (R118, ch03). [S] -/
  queue : List DomSwitch := []
  /-- The switch under way: PD_STAT.SWITCHING (R116, ch03 Table 03-19). [S] -/
  switching : Option DomSwitch := none
  /-- PD_STAT.AUTO_VRF (R101, ch03 Table 03-19). [S] -/
  autoVrf : Bool := false
  /-- PLL_STAT bits [12:1]: HBM, PCIE, ETH_0, ETH_1, TRN_0 to TRN_7 (ch03 Table 03-21). [S] -/
  pll : BitVec 12 := 0
  /-- The CCLK PLL is locked: CCLK runs (R129, ch03). [D 8] -/
  cclk : Bool := false
  /-- A standby request was accepted and entry is awaited (R106, ch03). [S] -/
  standbyAcked : Bool := false
  deriving DecidableEq, Repr

/-- How the boot ROM reads the flash, from its SFDP table (R147). -/
structure FlashMode where
  /-- 1-4-4; 1-1-4 otherwise. -/
  quadAddr : Bool
  /-- 4-byte addressing; 3-byte otherwise. -/
  addr4 : Bool
  deriving DecidableEq, Repr

/-- FW_STATE, FW_LOAD and the image that runs (ch03). -/
structure Boot where
  /-- Where boot stands (ch03 Table 03-9). [S] -/
  phase : BootPhase := .held
  /-- FW_STATE.STATE (ch03 Table 03-13). [S] -/
  fwState : BitVec 4 := 0
  /-- FW_STATE.REASON (R138, ch03 Table 03-13). [S] -/
  reason : BitVec 8 := 0
  /-- FW_STATE.HBM_READY (ch03 Table 03-13). [S] -/
  hbmReady : Bool := false
  /-- FW_STATE.SLOT (R146, ch03 Table 03-13). [S] -/
  slot : Bool := false
  /-- FW_LOAD.LENGTH (R148, ch03 Table 03-14). [S] -/
  loadLength : BitVec 23 := 0
  /-- BOOT_TIME (ch03 Table 03-20). [S] -/
  bootTime : Word := 0
  /-- The fuse load has completed (R493, ch11). [S] -/
  fusesLoaded : Bool := false
  /-- The flash slot the boot ROM tries (R146, ch03). [S] -/
  trySlot : Bool := false
  /-- The check of a host-loaded image is under way (R148, ch03). [S] -/
  checking : Bool := false
  /-- The QSPI controller drives QSPI_CLK and QSPI_CS_N (ch02 Table 02-6; ch03 Table 03-9 step 5). [S] -/
  qspiOn : Bool := false
  /-- The read mode taken from the SFDP table (R147, ch03). [S] -/
  flashMode : Option FlashMode := none
  /-- The flash has been tried and refused, in mode 1, 0 (R139, ch03). [S] -/
  flashSpent : Bool := false
  /-- Firmware version of the accepted image (Table 03-11, ch03; Table 06-9, ch06). [S] -/
  version : Word := 0
  /-- Security version of the accepted image (Table 03-11, ch03; Table 06-9, ch06). [S] -/
  secver : Word := 0
  /-- SHA-384 digest of the running image: wide-value item 0x01 (ch04 Table 04-6). [S] -/
  digest : Option (BitVec 384) := none
  deriving DecidableEq, Repr

/-! ### AUX pins (ch02) -/

/-- One AUX pin (R72 to R84, Tables 02-8 to 02-19). -/
structure AuxPin where
  /-- The pin's function code in AUX_FUNC (ch02 Table 02-17). [S] -/
  fn : BitVec 4 := 0
  /-- The function that holds the pad; during a park, the one that held it last (R76, ch02). [S] -/
  active : BitVec 4 := 0
  /-- The pad is parked (R76, R78, ch02 Table 02-9). [S] -/
  parked : Bool := false
  /-- The pin's AUX_IN bit: the debounced logical level (ch02 Table 02-13). [S] -/
  level : Bool := false
  /-- The debounce has accepted a level since the function took the pad (R79, ch02). [S] -/
  started : Bool := false
  /-- The interlock-input function's value, held while that function is away (R77, ch02). [S] -/
  ilk : Bool := false
  /-- In a park: the level that the weak keeper holds on the pad, where the formatter knew one (R76, ch02 Table 02-9;
  log 162). [S] -/
  keeper : Option Bool := none
  deriving DecidableEq, Repr

/-- The AUX block (ch02). -/
structure Aux where
  /-- AUX_0 to AUX_23 (ch02 R89). [S] -/
  pin : Vector AuxPin 24 := Vector.replicate 24 {}
  /-- AUX_OUT (R81, ch02 Table 02-14). [S] -/
  out : BitVec 24 := 0
  /-- AUX_POL (R75, ch02 Table 02-15). [S] -/
  pol : BitVec 24 := 0
  /-- AUX_CONT (R83, R84, ch02 Table 02-16). [S] -/
  cont : BitVec 24 := 0
  /-- The 2 Hz LED wave (R835, ch00; ch02 Table 02-8). [D 10] -/
  wave : Bool := true
  deriving DecidableEq, Repr

/-! ### What the block sends out (log 4) -/

/-- One thing the block does toward the outside. The trace of these is the model's own: the spec gives the events, the
state keeps them so that a claim can speak of them. -/
inductive Out where
  /-- A register read's completion, by origin, offset and value (R155). -/
  | readData (o : Origin) (off : Nat) (v : Word)
  /-- A request answered with Unsupported Request (R157, R158). -/
  | unsupported (off : Nat)
  /-- A write aborted as Completer Abort (R243). -/
  | completerAbort (off : Nat)
  /-- A flash read: single-bit at 20 MHz of the SFDP table, or quad of the image at a flash address (R145, R147). -/
  | sfdpRead
  | flashRead (mode : FlashMode) (addr : Nat)
  /-- PME_TO_Ack (R106). -/
  | pmeToAck
  /-- Bytes the I2C target returns to a read (R175). -/
  | i2cRead (bs : List Byte)
  /-- An I2C byte acknowledged or not (R87, R176, R177). -/
  | i2cAck (ack : Bool)
  /-- An MSI-X message on vector 0 (R208). -/
  | msix
  /-- A memory write to the host: address, bytes, and whether it carries Relaxed Ordering and No Snoop (R296, R306, R307,
  R689). -/
  | hostWrite (addr : Nat) (bs : List Byte) (ro ns : Bool)
  /-- Memory reads of a host range, with the same two attributes (R303, R307, R312, R315). -/
  | hostRead (addr len : Nat) (ro ns : Bool)
  /-- A BAR2 read's completion (R418, R419). -/
  | bar2Read (off : Nat) (bs : List Byte) (poisoned : Bool)
  /-- A control message on a transport's CTL role: TYPE, ARG and body words, and the 64-bit words of the whole message
  (R570, Table 13-5). -/
  | control (n : Trn) (type : Nat) (arg : BitVec 32) (body : List Nat) (words : List (BitVec 64))
  /-- A multiblock on an outbound lane, its blocks with their sync headers, before scrambling (R568). -/
  | multiblock (n : Trn) (lane : Nat) (blocks : List (Bool × BitVec 64))
  /-- A row's blocks on the WD roles: DSN, REWRITE, row, the C1 codeword of each channel, and the multiblocks of WD_0 and
  WD_1 (R531, R568, R603). -/
  | row (n : Trn) (dsn rewrite row : Nat) (codewords : List (List Byte)) (wd0 wd1 : List (List (Bool × BitVec 64)))
  /-- The last row of a writing is out: the data-set information that its ID words carried (R537). -/
  | dataSet (n : Trn) (dsi : List Byte)
  /-- A lead-in or lead-out, and the multiblocks of WD_0 and WD_1 (R549, R568). -/
  | leadIn (n : Trn) (wd0 wd1 : List (List (Bool × BitVec 64)))
  | leadOut (n : Trn) (wd0 wd1 : List (List (Bool × BitVec 64)))
  /-- A session's manifest and END data set (R550): first DSN, bytes, DSI of the END data set. -/
  | session (n : Trn) (dsn : Nat) (manifest endDsi : List Byte)
  /-- A RoCE acknowledgement with the QP's credits (R360, R364). -/
  | ack (p : Port) (q : Fin 64) (psn : BitVec 24) (credits : Nat)
  /-- A RoCE NAK by kind: sequence error, invalid request, remote access error, RNR with its timer code, else 0 (R365, Table
  08-6). -/
  | nak (p : Port) (q : Fin 64) (psn : BitVec 24) (kind timer : Nat)
  /-- A CNP (Table 08-1). -/
  | cnp (p : Port) (q : Fin 64)
  /-- A PFC frame: priorities and quanta (R366). -/
  | pfc (p : Port) (prios : BitVec 8) (quanta : BitVec 16)
  /-- An ARP reply or neighbour advertisement, a request for one, or an echo reply (R345, R346, R385). -/
  | neighbourReply (p : Port) (dest : Ip) (mac : BitVec 48)
  | neighbourAsk (p : Port) (ip : Ip)
  | echo (p : Port) (dest : Ip) (len : Nat)
  /-- An outbound RDMA WRITE message: remote address, rkey and bytes (R369). -/
  | rdmaWrite (p : Port) (q : Fin 64) (addr : Nat) (rkey : Word) (bs : List Byte)
  /-- What the debug agent reads through SBA or an abstract command (R775). -/
  | debugRead (v : BitVec 64)
  /-- What TDO shifts out of the selected data register: its length in bits and its contents (Table 19-1, R770). -/
  | tdo (width : Nat) (v : BitVec 120)
  deriving DecidableEq, Repr

/-! ### PCIe and DMA (ch07) -/

/-- The PCIe controller and its configuration space (ch07 Tables 07-1, 07-11). -/
structure Pcie where
  /-- The controller answers configuration requests (R128, R141, ch03). [S] -/
  cfgUp : Bool := false
  /-- PCIE_LINK.SPEED, 0 when the link is down (ch07 Table 07-11). [S] -/
  speed : BitVec 4 := 0
  /-- PCIE_LINK.WIDTH (ch07 Table 07-11). [S] -/
  width : BitVec 5 := 0
  /-- PCIE_LINK.MPS code (ch07 Table 07-11). [S] -/
  mps : BitVec 3 := 0
  /-- PCIE_LINK.MRRS code (ch07 Table 07-11). [S] -/
  mrrs : BitVec 3 := 2
  /-- PCIE_LINK.TAG10 (ch07 Table 07-11). [S] -/
  tag10 : Bool := false
  /-- PCIE_LINK.RO_EN (R307, ch07 Table 07-11). [S] -/
  roEn : Bool := false
  /-- PCIE_LINK.NS_EN (R307, ch07 Table 07-11). [S] -/
  nsEn : Bool := false
  /-- PCIE_LINK.BME (R327, ch07 Table 07-11). [S] -/
  bme : Bool := false
  /-- The function is in D3hot: PCIE_LINK.DSTATE (R327, ch07 Table 07-11). [S] -/
  d3 : Bool := false
  /-- MSI-X Enable bit (R209, ch05; R294, ch07). [D 13] -/
  msixEnable : Bool := false
  /-- MSI-X Function Mask bit (R209, ch05). [D 13] -/
  msixFnMask : Bool := false
  /-- MSI-X table entry 0: address, low and high (R294, ch07). [D 13] -/
  msixAddrLo : Word := 0
  msixAddrHi : Word := 0
  /-- MSI-X table entry 0: data (R294, ch07). [D 13] -/
  msixData : Word := 0
  /-- The vector's Mask bit, in Vector Control (R209, ch05; R294, ch07). [D 13] -/
  msixVecMask : Bool := true
  /-- The base of BAR0, and of BAR2, as the host assigned them (R293, ch07). [D 13] -/
  bar0 : Word := 0
  bar2 : BitVec 64 := 0
  deriving DecidableEq, Repr

/-- One host DMA channel, 24 to 31 (R315, Tables 07-14 to 07-19). -/
structure HostChan where
  /-- DMA_c_RING_LO (ch07 Table 07-14). [S] -/
  ringLo : Word := 0
  /-- DMA_c_RING_HI (ch07 Table 07-15). [S] -/
  ringHi : Word := 0
  /-- DMA_c_SIZE.LOG2 (ch07 Table 07-16). [S] -/
  log2 : BitVec 4 := 4
  /-- DMA_c_TAIL (ch07 Table 07-17). [S] -/
  tail : BitVec 12 := 0
  /-- DMA_c_HEAD (R325, R337, ch07 Table 07-17). [S] -/
  head : BitVec 12 := 0
  /-- DMA_c_CTRL.ENABLE (R315, R325, ch07 Table 07-18). [S] -/
  enable : Bool := false
  /-- DMA_c_STAT.HALTED (R330, ch07 Table 07-19). [S] -/
  halted : Bool := false
  /-- DMA_c_STAT.CODE (R330, ch07 Table 07-19). [S] -/
  code : BitVec 16 := 0
  /-- DMA_c_STAT.DETAIL (R330, ch07 Table 07-19). [S] -/
  detail : BitVec 8 := 0
  /-- The descriptor in progress: DMA_c_STAT.BUSY (R315, ch07 Table 07-19). [S] -/
  desc : Option (BitVec 256) := none
  /-- A descriptor fetch is outstanding (R315, R327, ch07). [S] -/
  fetching : Bool := false
  /-- Host address of the descriptor fetched last, under the ring's geometry at its fetch (R324, ch07). [S] -/
  place : Nat := 0
  /-- The descriptor's reads of host memory have been issued (R327, R339, ch07). [S] -/
  asked : Bool := false
  /-- ENABLE was cleared while the descriptor is in progress: after it the channel goes to index 0 (R325, ch07). [S] -/
  rewind : Bool := false
  deriving DecidableEq, Repr

/-- The DMA engine (ch07). -/
structure Dma where
  /-- Host channels 24 to 31 (ch07 Table 07-4). [S] -/
  chan : Vector HostChan 8 := Vector.replicate 8 {}
  /-- DMA_HDONE (R317, R337, ch07 Table 07-20). [S] -/
  hdone : BitVec 8 := 0
  /-- DMA_ERR_INFO (ch07 Table 07-20, ch21 Table 21-3; after a PCIe reset 0, R337, log 14). [D 14] -/
  errInfo : Word := 0xFFFF0000
  /-- Host read share in sixteenths (R337, R339, ch07). [S] -/
  shareRd : BitVec 4 := 2
  /-- Host write share in sixteenths (R337, R339, ch07). [S] -/
  shareWr : BitVec 4 := 2
  /-- Fjarma has enabled the engine (R142, ch03 Table 03-10). [S] -/
  enabled : Bool := false
  /-- The SQ pull that is outstanding: its stream, and how many entries its batch may have (R300, R320, R327, ch07). [S] -/
  sqOut : Option (Strm × Nat) := none
  deriving DecidableEq, Repr

/-! ### Ethernet ports and RoCE (ch08) -/

/-- State of a queue pair (R348). -/
inductive QpState where
  | rts | error | draining
  deriving DecidableEq, Repr

/-- Form of a queue pair (Table 08-2). -/
inductive QpForm where
  | w | s | r
  deriving DecidableEq, Repr

/-- A record's footprint in a landing partition, in the order filled (R351, R353). -/
structure Footprint where
  /-- Byte offset in the partition. -/
  start : Nat
  /-- Bytes, skipped ones before it included in `start` of the next. -/
  len : Nat
  /-- CMP has coded every block of the record, or the record was refused. -/
  released : Bool
  deriving DecidableEq, Repr

/-- The inbound message a queue pair is receiving. -/
structure InMsg where
  /-- It is a SEND (form S). -/
  send : Bool
  /-- Partition offset where the message began. -/
  start : Nat
  /-- Bytes received so far. -/
  got : Nat
  /-- The length its RETH gave; 0 for a SEND. -/
  dmaLen : Nat
  /-- PSN of its first packet. -/
  first : BitVec 24
  /-- The closing message began with a receive credit (R365). -/
  credited : Bool
  /-- Bytes of a message without a credit, not written until it is known to close no record (R365). -/
  held : List Byte
  deriving DecidableEq, Repr

/-- An outbound RDMA WRITE message not yet acknowledged (R369). -/
structure OutMsg where
  psn : BitVec 24
  packets : Nat
  /-- The restore request it serves, by ticket. -/
  ticket : Nat
  addr : Nat
  rkey : Word
  bytes : List Byte
  /-- It carries restored data, not a result entry. -/
  data : Bool
  /-- Packets acknowledged, from the first. -/
  acked : Nat
  /-- Retries left. -/
  retries : Nat
  deriving DecidableEq, Repr

/-- A queue pair (R347 to R358, Table 08-9). -/
structure Qp where
  state : QpState
  /-- The next hop has resolved, so that the QP carries traffic (R389). -/
  resolved : Bool
  stream : Strm
  form : QpForm
  prio : Nat
  remoteQpn : BitVec 24
  /-- Expected inbound PSN. -/
  expPsn : BitVec 24
  /-- Next outbound PSN. -/
  outPsn : BitVec 24
  remote : Ip
  rkey : Word
  udpPort : BitVec 16
  /-- First extent of the landing partition and its length in extents. -/
  base : Nat
  mib : Nat
  slot : Nat
  depth : Nat
  ackExp : Nat
  retry : Nat
  rnr : Nat
  /-- Kind of the last error, from Table 08-6. -/
  lastErr : Nat
  /-- Next SEQ expected. -/
  seq : Word
  /-- Fill point, bytes. -/
  fill : Nat
  /-- Receive buffers posted and unused. -/
  credits : Nat
  footprints : List Footprint
  msg : Option InMsg
  /-- Bytes of a record have landed whose closing message has not been taken. -/
  partialRec : Bool
  /-- Stamp at which the last CNP was sent (Table 08-1). -/
  cnpAt : Option Nat
  /-- A sequence-error NAK was sent and the expected packet has not come. -/
  nakSent : Bool
  outstanding : List OutMsg
  /-- Records discarded while draining (R390). -/
  discarded : Nat
  /-- The NET.QP_DESTROY ticket (R376). -/
  ticket : Option Nat
  deriving DecidableEq, Repr

/-- State of a neighbour entry (R345, R392). -/
inductive NeighState where
  | resolving | resolved | failed
  deriving DecidableEq, Repr

/-- One neighbour-table entry (R345). -/
structure Neigh where
  ip : Ip
  state : NeighState
  mac : BitVec 48
  tries : Nat
  deriving DecidableEq, Repr

/-- One Ethernet port (ch08). -/
structure EthPort where
  /-- ETH_p_STAT.ENABLED (R387, ch08 Table 08-10). [S] -/
  enabled : Bool := false
  /-- ETH_p_STAT.LINK (R385, ch08 Table 08-10). [S] -/
  link : Bool := false
  /-- ETH_p_STAT.ALIGNED (R385, ch08 Table 08-10). [S] -/
  aligned : Bool := false
  /-- PFC-enabled priorities (R366, ch08 Table 08-8). [S] -/
  pfcEn : BitVec 8 := 0x08
  /-- XOFF level, KiB (R366, ch08 Table 08-8). [S] -/
  xoff : Nat := 3072
  /-- XON level, KiB (R366, ch08 Table 08-8). [S] -/
  xon : Nat := 2048
  /-- Link hold, seconds (R381, ch08 Table 08-8). [S] -/
  linkHold : Nat := 10
  /-- VLAN tag and outbound marking: P7 of NET.PORT (ch08 Table 08-8). [S] -/
  vlan : Word := 0x001A6000
  /-- IPv4 address and prefix length, none until NET.ADDR gives one (R344, R385, ch08). [S] -/
  ip4 : Option (BitVec 32 × Nat) := none
  /-- IPv6 global address and prefix length (R344, ch08). [S] -/
  ip6 : Option (BitVec 128 × Nat) := none
  /-- IPv4 gateway (R344, R388, ch08). [S] -/
  gw4 : Option (BitVec 32) := none
  /-- IPv6 gateway (R344, R388, ch08). [S] -/
  gw6 : Option (BitVec 128) := none
  /-- Duplicate address detection has ended: bit 0 link-local, bit 1 global (R385, ch08). [S] -/
  dad : BitVec 2 := 0
  /-- Priorities paused by the formatter (R366, ch08 Table 08-10). [S] -/
  pausedTx : BitVec 8 := 0
  /-- Priorities under received pause (R368, ch08 Table 08-10). [S] -/
  pausedRx : BitVec 8 := 0
  /-- PFC_LONG_TX (R383, ch08 Table 08-10). [S] -/
  longTx : Bool := false
  /-- PFC_LONG_RX (R383, ch08 Table 08-10). [S] -/
  longRx : Bool := false
  /-- The link hold runs since the link was lost (R381, ch08). [S] -/
  holdRuns : Bool := false
  /-- The queue pairs that exist (R347, R348, ch08). [S] -/
  qp : Vector (Option Qp) 64 := Vector.replicate 64 none
  /-- Neighbour table, at most 256 entries, in order of creation (R345, ch08). [S] -/
  neigh : List Neigh := []
  /-- Frames that wait for the end of a received pause: priority, bytes and frame, oldest first (R368, ch08). [S] -/
  txq : List (Nat × Nat × Out) := []
  /-- Packets standing in the receive buffer behind a closing packet, oldest first (R366, R373, R374, ch08). [S] -/
  rx : List RocePkt := []
  /-- Stamps of the echo requests answered within the last second (R346, ch08). [S] -/
  echoes : List Nat := []
  deriving DecidableEq, Repr

/-- The network side (ch08). -/
structure Net where
  /-- ETH_0 and ETH_1 (ch08). [S] -/
  port : Vector EthPort 2 := Vector.replicate 2 {}
  /-- RDMA_ERR_INFO (R379, ch08 Table 08-11). [S] -/
  errInfo : Word := 0
  /-- A hold of Table 08-5 was in force when last looked at (R373, ch08). [S] -/
  held : Bool := false
  /-- CCLKs for which the ingest pipe still takes its packet (R370, ch08). [S] -/
  pipe : Nat := 0
  /-- The port whose receive buffer ING serves next (R370, ch08). [D 186] -/
  turn : Port := 0
  deriving DecidableEq, Repr

/-! ### Staging memory (ch09) -/

/-- Owner of an extent (Table 09-2). -/
inductive Owner where
  | free | ingest | compressed | assembling | awaiting | restore | tether
  deriving DecidableEq, Repr

/-- One line in the merge buffer (R415). -/
structure MergeLine where
  line : Nat
  /-- The 64 bytes as merged so far. -/
  data : List Byte
  /-- Bytes written since the line was read, bit b for byte b. -/
  mask : BitVec 64
  deriving DecidableEq, Repr

/-- Staging (ch09). -/
structure Stg where
  /-- Staging bytes by offset; an unlisted byte reads 0 (R412, R430, ch09; log 11). [S] -/
  mem : List Host.Cell := []
  /-- The valid map: 4 KiB blocks whose bit is 1 (R412, R413, R430, ch09). [S] -/
  valid : Sparse Bool := []
  /-- Symbol errors standing in a stored line: line number, then symbol and pattern (R407, R433, ch09). [S] -/
  errs : Sparse (List (Nat × BitVec 16)) := []
  /-- MARK of each line, where it is not 0 (R406, R407, R409, ch09). [S] -/
  poison : Sparse Byte := []
  /-- Owners of payload extents; an unlisted one is free (R397, ch09 Table 09-2). [S] -/
  owner : Sparse Owner := []
  /-- Extents whose move is not over: they count under IN_TRANSIT (R37, R397, ch09). [S] -/
  moving : List Nat := []
  /-- The control regions and the tether ring are laid out (R395, R431, ch09). [S] -/
  laidOut : Bool := false
  /-- T, the extents of the tether ring as laid out (R395, ch09 Table 09-1). [S] -/
  ringExtents : Nat := 0
  /-- Extents lent to the host (R418, ch09 Table 09-4). [S] -/
  lent : List Nat := []
  /-- The merge buffer, at most 256 lines (R415, R420, ch09). [S] -/
  merge : List MergeLine := []
  /-- STG_CTRL.MERGE (R414, ch09 Table 09-7). [S] -/
  mergeMode : Bool := false
  /-- STG_STAT.BAR2_OPEN (R431, ch09 Table 09-8). [S] -/
  bar2Open : Bool := false
  /-- STG_STAT.SCRUBBING (R417, ch09 Table 09-8). [S] -/
  scrubbing : Bool := false
  /-- STG_STAT.STACK_OK (R429, ch09 Table 09-8). [S] -/
  stackOk : BitVec 4 := 0
  /-- STG_FLIP_CTRL (R433, ch09 Table 09-10). [S] -/
  flipCtrl : Word := 0
  /-- STG_FLIP_ADDR_LO (R433, ch09 Table 09-11). [S] -/
  flipLo : Word := 0
  /-- STG_FLIP_ADDR_HI (R433, ch09 Table 09-12). [S] -/
  flipHi : Word := 0
  /-- STG_ERR_ADDR as a staging offset (R408, R409, ch09 Tables 09-11, 09-12). [S] -/
  errAddr : BitVec 37 := 0
  /-- STG_ERR_INFO (ch09 Table 09-13). [S] -/
  errInfo : Word := 0x3F00
  /-- Cycle stamps of the uncorrectable lines of each stack, newest first (R429, ch09). [S] -/
  ueTimes : Vector (List Nat) 4 := Vector.replicate 4 []
  deriving DecidableEq, Repr

/-! ### Compression (ch10) -/

/-- What a compression engine holds. -/
inductive CmpJob where
  /-- Block `k` of the record of descriptor `r`. -/
  | code (r k : Nat)
  /-- A restore block of the request with ticket `t`. -/
  | decode (t : Nat)
  deriving DecidableEq, Repr

/-- One compression engine (R455, R457, R465). -/
structure Engine where
  /-- CMP_STAT.ENGINE_BUSY: the block in the engine (ch10 Table 10-10). [S] -/
  job : Option CmpJob := none
  /-- CMP_STAT.ENGINE_OFF: out of service (ch10 Table 10-10). [S] -/
  off : Bool := false
  /-- A self-check mismatch awaits its known-answer test (R465, ch10). [S] -/
  katDue : Bool := false
  /-- A known-answer test of a self-check runs (R465, ch10). [S] -/
  kat : Bool := false
  deriving DecidableEq, Repr

/-- CMP (ch10). -/
structure Cmp where
  /-- Profiles 0 to 31; in PD_SUP (R434, R466, ch10). [S] -/
  profile : Vector (Option Profile) 32 := (Vector.replicate 32 none).set 0 (some profile0)
  /-- Fjarma's copies of the loadable tables, in the layout of R469; in PD_SUP (R444, ch10). [S] -/
  table : Vector (Option (BitVec 256)) 16 := Vector.replicate 16 none
  /-- CMP_TABLES.LOADED: tables in force in CMP (R444, ch10 Table 10-11). [S] -/
  loaded : BitVec 16 := 0
  /-- The 16 engines (ch10). [S] -/
  engine : Vector Engine 16 := Vector.replicate 16 {}
  /-- The stream served last, for the round robin (R457, ch10). [D 16] -/
  turn : Nat := 63
  /-- Fjarma has enabled CMP (R466, ch10). [S] -/
  enabled : Bool := false
  deriving DecidableEq, Repr

/-! ### Cipher, keys, fuses (ch11) -/

/-- State of a data-key slot (R487, Table 11-5). -/
inductive SlotState where
  | empty | valid | invalid | clearing
  deriving DecidableEq, Repr

/-- One data-key slot (R487 to R491). -/
structure KeySlot where
  /-- The slot's state (R514, ch11). [S] -/
  state : SlotState := .empty
  /-- Its key ID (Table 11-4, ch11). [D 18] -/
  keyId : Word := 0
  /-- Its AES-256 data key (Table 11-4, ch11). [D 18] -/
  key : BitVec 256 := 0
  /-- The KEK slot that unwrapped it (Table 11-5, ch11). [D 18] -/
  kek : Nat := 0
  deriving DecidableEq, Repr

/-- A stream's cipher context (R481, R482, R520). -/
structure CipherCtx where
  keyId : Word
  session : BitVec 29
  count : BitVec 64
  /-- Blocks encrypted since the last reseed. -/
  blocks : Word
  reseeds : Word
  /-- SESSION values of the context whose blocks are not all taken by FMT. -/
  old : List (BitVec 29)
  deriving DecidableEq, Repr

/-- What a cipher unit holds. -/
inductive CipJob where
  /-- Block `k` of the record of descriptor `r`, first encryption. -/
  | encrypt (r k : Nat)
  /-- Block `k` of the record of descriptor `r`, encrypted again (R485). -/
  | again (r k : Nat)
  /-- A restore block of the request with ticket `t`. -/
  | decrypt (t : Nat)
  deriving DecidableEq, Repr

/-- One cipher unit (R472, R474). -/
structure Unit8 where
  /-- CIP_STAT.UNIT_BUSY: the block in the unit (ch11 Table 11-11). [S] -/
  job : Option CipJob := none
  /-- CIP_STAT.UNIT_OFF: out of service (ch11 Table 11-11). [S] -/
  off : Bool := false
  /-- AES blocks since the mask generator was reseeded (R474, ch11). [S] -/
  aes : Nat := 0
  /-- Stamp of that reseed (R474, ch11). [S] -/
  seedAt : Nat := 0
  deriving DecidableEq, Repr

/-- CIP and the data-key slots; PD_CIP (ch11). -/
structure Cip where
  /-- The 16 data-key slots (R487, ch11). [S] -/
  slot : Vector KeySlot 16 := Vector.replicate 16 {}
  /-- Cipher contexts of the open streams (R481, ch11). [S] -/
  ctx : Vector (Option CipherCtx) 64 := Vector.replicate 64 none
  /-- The 8 units (ch11). [S] -/
  unit : Vector Unit8 8 := Vector.replicate 8 {}
  /-- The stream served last (R499, ch11). [D 16] -/
  turn : Nat := 63
  /-- KEY_STAT.ENTROPY_OK (R498, ch11 Table 11-12). [S] -/
  entropyOk : Bool := false
  /-- Blocks to be encrypted again before FMT takes them: descriptor and block (R485, ch11). [S] -/
  again : List (Nat × Nat) := []
  /-- Fjarma has enabled CIP (R514, ch11). [S] -/
  enabled : Bool := false
  deriving DecidableEq, Repr

/-- One fuse row (R492). -/
structure FuseRow where
  started : Bool := false
  value : BitVec 384 := 0
  crc : Word := 0
  commit : Bool := false
  deriving DecidableEq, Repr

/-- A fuse change waiting or under way (R505). -/
structure NvOp where
  /-- Setting 0 to 3 (Table 11-6), or 4 + k for KEK slot k. -/
  item : Nat
  value : BitVec 384
  ticket : Option Nat
  /-- Unlock windows expired so far (R506). -/
  tries : Nat
  deriving DecidableEq, Repr

/-- Where the NV controller stands (R492, R494). -/
inductive NvPhase where
  | idle
  /-- The unlock writes were made; the start has not come. -/
  | unlocked (op : NvOp)
  /-- A row is being programmed. -/
  | row (op : NvOp) (row : Nat)
  deriving DecidableEq, Repr

/-- The fuses and the NV controller (ch11). The rows themselves outlive every reset. -/
structure Nv where
  /-- Rows of settings 0 to 3 and KEK slots 0 to 7: 8, 4, 16, 2 and 8 × 16 rows; MAC_BASE row 0 committed (R492, R495, ch11 Table 11-6). [S] -/
  rows : Vector (List FuseRow) 12 := #v[
    List.replicate 8 {}, List.replicate 4 {}, List.replicate 16 {},
    [{ started := true, value := Config.factoryMac, crc := crc32c (leBytes 48 Config.factoryMac.toNat), commit := true }, {}],
    List.replicate 16 {}, List.replicate 16 {}, List.replicate 16 {}, List.replicate 16 {},
    List.replicate 16 {}, List.replicate 16 {}, List.replicate 16 {}, List.replicate 16 {}]
  /-- The row under way, or the open unlock window (R494, ch11). [S] -/
  phase : NvPhase := .idle
  /-- Fuse changes waiting, in take order (R505, ch11). [S] -/
  queue : List NvOp := []
  /-- Lifecycle code as the last boot read it, for the key hash and debug gating (R497, ch11). [D 19] -/
  bootLife : BitVec 4 := 1
  deriving DecidableEq, Repr

/-! ### Streams and records (ch01, ch07, ch14) -/

/-- Where a compressed block stands (Table 01-2, steps 4 to 6). -/
inductive BlkState where
  /-- Not yet dispatched to CMP. -/
  | waiting
  /-- In a compression engine. -/
  | inEngine
  /-- Coded; waits for its turn to be packed in block order. -/
  | coded
  /-- Packed in compressed extents, not yet dispatched to CIP. -/
  | packed
  /-- In a cipher unit. -/
  | inUnit
  /-- Encrypted in place. -/
  | encrypted
  deriving DecidableEq, Repr

/-- One block of a record. -/
structure Blk where
  st : BlkState := .waiting
  /-- Coded bytes before packing. -/
  coded : List Byte := []
  raw : Bool := false
  /-- STORED_LEN. -/
  len : Nat := 0
  /-- Staging ranges of its STORED_LEN + 32 bytes, offset and length, in order. -/
  segs : List (Nat × Nat) := []
  /-- IV, once assigned: 12 bytes. -/
  iv : List Byte := []
  /-- GOV evaluation in which it entered the backlog. -/
  since : Nat := 0
  deriving DecidableEq, Repr

/-- How a record came in. -/
inductive RecSrc where
  | sq (idx : Nat)
  | roce (p : Port) (q : Fin 64) (seq : Word)
  deriving DecidableEq, Repr

/-- The block that holds a record (R22, Table 01-2). -/
inductive Holder where
  | ing | cmp | cip | fmt | vrf | sup
  deriving DecidableEq, Repr

/-- A part of a record's item run placed in one data set (R543, R551). -/
structure Part where
  trn : Nat
  dsn : Nat
  /-- Data-area offset of its first byte. -/
  off : Nat
  len : Nat
  /-- Bytes of the item run before it. -/
  before : Nat
  /-- STREAM_SEQ of the data set. -/
  seq : Nat
  /-- Wrap and LPOS of the data set's first writing. -/
  wrap : Nat
  lpos : Nat
  deriving DecidableEq, Repr

/-- A record's descriptor (R39). -/
structure Rec where
  stream : Strm
  number : Nat
  hostTag : Nat
  origLen : Nat
  src : RecSrc
  /-- Staging ranges of the original bytes, offset and length, in order. -/
  segs : List (Nat × Nat)
  holder : Holder
  /-- The last line, where it is still to be written: line number and bytes (R303). -/
  lastLine : Option (Nat × List Byte)
  /-- The last line is written: the record has landed. -/
  landed : Bool
  /-- A STAGED completion is owed. -/
  stagedDue : Bool
  blocks : List Blk
  /-- The key slot bound at the record's first block (R489). -/
  slot : Option Nat
  /-- Bytes of the item run placed in data areas. -/
  placed : Nat
  /-- Rows holding the record's bytes that have passed on no copy: transport, DSN, row (R610). -/
  rowsDue : List (Nat × Nat × Nat)
  /-- Parts of the item run placed (R551). -/
  pieces : List Part
  /-- The verdict, once there is one: return code, and whether it is poison. -/
  verdict : Option (Nat × Bool)
  /-- Stamp at which the last byte entered FMT, and the transport (R614, R616). -/
  entered : Option (Nat × Nat)
  /-- R614 no longer bounds the VERIFIED: a row needed a copy, or the stream left OPEN. -/
  lateExempt : Bool
  deriving DecidableEq, Repr

/-- A completion entry before its PHASE is known (Table 07-3). -/
structure Cpl where
  record : Nat
  hostTag : Nat
  code : Nat
  kind : Nat
  flags : Nat
  sqIndex : Nat
  detail : Nat
  /-- Byte 0x17 (R362). -/
  via : Nat
  storedLen : Nat
  deriving DecidableEq, Repr

/-- State of a stream (Table 14-1). -/
inductive StrmState where
  | closed | isOpen | detached | closing
  deriving DecidableEq, Repr

/-- An SQ entry pulled and neither accepted nor refused (R303, R304). -/
structure Pull where
  /-- Its number among the stream's pulls; an SQ smaller than its CQ may have two pulls at one index. -/
  no : Nat
  idx : Nat
  addr : Nat
  len : Nat
  swap : Nat
  hostTag : Nat
  /-- Ingest extents taken for the payload. -/
  exts : List Nat
  /-- Its payload reads have been issued (R303, R327). -/
  asked : Bool
  /-- The payload, once its last completion arrived, and the refusal's code and detail, if it is refused. -/
  data : Option (List Byte)
  refused : Option (Nat × Nat)
  deriving DecidableEq, Repr

/-- Rings attached to a stream (R295, R636). -/
structure Rings where
  hasSq : Bool
  cqStg : Bool
  sqBase : Nat
  sqLog : Nat
  cqBase : Nat
  cqLog : Nat
  deriving DecidableEq, Repr

/-- One stream (Table 14-1, R598). -/
structure Stream where
  /-- State (R597, ch14 Table 14-1). [S] -/
  state : StrmState := .closed
  /-- STAGED completions enabled (R598, ch14). [S] -/
  staged : Bool := false
  /-- Transport set (R598, ch14). [S] -/
  set : BitVec 8 := 0
  /-- Compression profile (R598, ch14). [S] -/
  profile : Nat := 0
  /-- Key ID (R598, ch14). [S] -/
  keyId : Word := 0
  /-- Next record number (R24, ch01). [S] -/
  next : Nat := 0
  /-- Next STREAM_SEQ (R547, ch12). [S] -/
  seq : Nat := 0
  /-- The member its turn names (R600, ch14). [S] -/
  turn : Nat := 0
  /-- NO_TRANSPORT (R623, ch14). [S] -/
  noTransport : Bool := false
  /-- Rings attached, if any (R636, ch14; R634). [S] -/
  rings : Option Rings := none
  /-- STRM_s_SQ.TAIL (ch07 Table 07-12). [S] -/
  sqTail : BitVec 16 := 0
  /-- STRM_s_SQ.HEAD (ch07 Table 07-12). [S] -/
  sqHead : BitVec 16 := 0
  /-- STRM_s_CQ.TAIL (ch07 Table 07-13). [S] -/
  cqTail : BitVec 16 := 0
  /-- STRM_s_CQ.HEAD (ch07 Table 07-13). [S] -/
  cqHead : BitVec 16 := 0
  /-- PHASE of the current pass through the CQ (R296, ch07). [S] -/
  phase : Bool := true
  /-- CQ entries reserved (R301, ch07). [S] -/
  reserved : Nat := 0
  /-- SQ entries pulled and undecided, in SQ order (R303, R304, ch07). [S] -/
  pulls : List Pull := []
  /-- Completions held while DETACHED, oldest first, each with its descriptor (R127, ch03; R636, ch14). [S] -/
  held : List (Nat × Cpl) := []
  /-- Record book: accepted, verified, rejected, poisoned (R38, ch01; Table 06-14, ch06). [S] -/
  accepted : BitVec 48 := 0
  verified : BitVec 48 := 0
  rejected : BitVec 48 := 0
  poisoned : BitVec 48 := 0
  /-- Descriptors of records without a final completion, in record-number order (R45, ch01). [S] -/
  order : List Nat := []
  /-- The compressed extent being filled, and the bytes in it (ch01, Compression). [S] -/
  outExt : Option (Nat × Nat) := none
  /-- The data set open on a transport and not placed in full: transport and DSN (R601, ch14). [S] -/
  openDs : Option (Nat × Nat) := none
  /-- Number of the last record accepted (R637, ch14). [S] -/
  last : Option Nat := none
  /-- Flushes in flight: ticket and the last record each waits for (R637, ch14). [S] -/
  flushes : List (Nat × Option Nat) := []
  /-- The STREAM.CLOSE ticket (R638, ch14). [S] -/
  closeTicket : Option Nat := none
  /-- Bytes added to the backlog since the last GOV evaluation (R646, ch15). [S] -/
  addedNow : Nat := 0
  /-- Bytes added in each of the last RATE_WINDOW milliseconds, newest first (R646, ch15). [S] -/
  added : List Nat := []
  deriving DecidableEq, Repr

/-- Streams, descriptors and ING (ch01, ch07, ch14). -/
structure Ing where
  /-- Streams 0 to 63 (ch14). [S] -/
  stream : Vector Stream 64 := Vector.replicate 64 {}
  /-- Record descriptors in use, by index below 262,144 (R39, ch01). [S] -/
  recs : Sparse (Option Rec) := []
  /-- Descriptors whose verdict is not yet posted, in the order in which they became final (R33, ch01). [S] -/
  finals : List Nat := []
  /-- Fjarma has enabled ING; new submissions are refused once the safe state stops it (ch03 Table 03-10; R221, ch05). [S] -/
  enabled : Bool := false
  /-- The stream whose SQ was pulled last, for the round robin (R300, ch07). [D 16] -/
  turn : Nat := 63
  /-- Bytes accepted that the rate cap has not let through yet (R43, ch01; Table 08-5). [S] -/
  debt : Nat := 0
  deriving DecidableEq, Repr

/-! ### Searching a tape (ch12, ch16) -/

/-- One session of a restore index (R682). -/
structure IdxSession where
  no : Nat
  floor : Nat
  /-- The session list of its manifest. -/
  list : List Nat
  sets : List (Nat × List Nat)
  pieces : List Piece
  /-- Where its manifest begins: DSN, wrap, LPOS. -/
  dsn : Nat
  wrap : Nat
  lpos : Nat
  deriving DecidableEq, Repr

/-- Where a search of a tape stands (R552, R682, R695). -/
inductive ScanPhase where
  /-- The number of wraps with sync marks is one of `lo` to `hi`. -/
  | search (lo hi : Nat)
  /-- A wrap is read to its END data set. -/
  | wrap
  /-- Manifests are read, each naming the one before. -/
  | chain
  /-- A rebuild reads forward. -/
  | forward
  /-- Everything needed was read. -/
  | ended
  deriving DecidableEq, Repr

/-- What a search of a tape is for (R590, R682, R695). -/
inductive ScanFor where
  | load
  | index
  | rebuild (commit : Bool)
  deriving DecidableEq, Repr

/-- An item run that a rebuild has met (R695). -/
structure ScanRun where
  stream : Nat
  record : Nat
  hostTag : Nat
  /-- 64 + STORED_LEN, once the envelope is read. -/
  len : Nat
  /-- The envelope and the first block's prefix, as far as they are read. -/
  head : List Byte
  /-- STREAM_SEQ of the data set in which it goes on. -/
  seq : Nat
  /-- Bytes of the run before that place. -/
  pos : Nat
  /-- The open piece. -/
  piece : Piece
  deriving DecidableEq, Repr

/-- The search for the end of data, an indexing or a rebuild under way (R552, R590, R682, R695). -/
structure Scan where
  ticket : Nat
  purpose : ScanFor
  phase : ScanPhase
  /-- Wrap, DSN and LPOS at which what it needs begins. -/
  goal : Nat × Nat × Nat
  /-- Wraps that hold sync marks, once known. -/
  wraps : Nat := 0
  /-- Information of the END data set. -/
  endDsi : Option Dsi := none
  /-- One more than the highest GROUP read, and data sets read in the last wrap. -/
  group : Nat := 0
  inWrap : Nat := 0
  /-- First data set of the newest manifest met in a wrap without an END data set. -/
  met : Option (Nat × Nat × Nat) := none
  /-- The manifest being read: bytes so far, and wrap, DSN and LPOS at which it begins. -/
  manifest : List Byte := []
  place : Nat × Nat × Nat := (0, 0, 0)
  /-- The newest manifest that passed its CRC. -/
  newest : Option IdxSession := none
  /-- The highest DSN taken: of the manifest being read, or by the rebuild. -/
  lastDsn : Option Nat := none
  /-- A rebuild: information of the newest data set read, first DSN of its session, open item runs, piece entries found,
  one more than the largest INV and the SESSION values read, sessions found before, data sets left unrecovered. -/
  last : Option Dsi := none
  firstDsn : Nat := 0
  runs : List ScanRun := []
  pieces : List Piece := []
  inv : Nat := 0
  values : List Nat := []
  older : List IdxSession := []
  lost : Nat := 0
  deriving DecidableEq, Repr

/-! ### Transports and gondola links (ch13) -/

/-- State of a transport port (R588). -/
inductive PortState where
  | off | idle | starting | up | offline
  deriving DecidableEq, Repr

/-- What a cartridge was loaded for (R590). -/
inductive LoadedFor where
  | nothing | reading | writing
  deriving DecidableEq, Repr

/-- Where a load stands (R581, R590). -/
inductive LoadPhase where
  /-- LOAD was sent. -/
  | threading
  /-- The next LOCATE is held back by an interlock. -/
  | waiting
  /-- LOCATE was sent: to the start of wrap 0, or to what the search reads next. -/
  | seeking
  /-- The tape is read for the end of data. -/
  | reading
  /-- LOCATE to the END data set was sent. -/
  | positioning
  deriving DecidableEq, Repr

/-- A load in progress (R590). -/
structure Loading where
  ticket : Nat
  forWrite : Bool
  phase : LoadPhase
  /-- The search for the end of data (R552). -/
  scan : Scan
  deriving DecidableEq, Repr

/-- One transport port and what the formatter knows of the transport (ch13). -/
structure TrnPort where
  /-- TRN_n_STAT.PORT (R587, ch13 Table 13-13). [S] -/
  port : PortState := .idle
  /-- The XPORT.LINK ticket (R589, ch13). [S] -/
  linkTicket : Option Nat := none
  /-- HELLO has arrived in this link start (ch13 Table 13-10). [S] -/
  hello : Bool := false
  /-- The identity check has passed in this link start (ch13 Table 13-10). [S] -/
  identified : Bool := false
  /-- Gondola serial (R588, ch13). [S] -/
  serial : BitVec 48 := 0
  /-- The transport reported RESTORED after HOLDUP (R586, ch13). [S] -/
  restored : Bool := false
  /-- HOLDUP is in force; the port goes OFFLINE at rest (R586, ch13). [S] -/
  holdup : Bool := false
  /-- TRN_n_STAT.DEGRADED (R584, ch13 Table 13-13). [S] -/
  degraded : Bool := false
  /-- TRN_n_STAT.SPARE_IN_USE (R574, ch13 Table 13-13). [S] -/
  spareInUse : Bool := false
  /-- TRN_n_STAT.SPARE_ROLE (R574, ch13 Table 13-13). [S] -/
  spareRole : BitVec 2 := 0
  /-- Roles reported lost, bit r (R574, R579, ch13). [S] -/
  lostRoles : BitVec 4 := 0
  /-- SYSREF_n runs (R566, R587, ch13). [S] -/
  sysref : Bool := false
  /-- The downlinks are driven, out of electrical idle (R587, ch13). [S] -/
  downlink : Bool := false
  /-- TRN_n_STAT.CART (R595, ch13 Table 13-13). [S] -/
  cart : BitVec 2 := 0
  /-- Write protected (R588, ch13). [S] -/
  wp : Bool := false
  /-- Medium not XT1 (ch13 Table 13-6). [S] -/
  notXt1 : Bool := false
  /-- TRN_n_CART_LO and _HI (ch13 Table 13-14). [S] -/
  cartId : BitVec 64 := 0
  /-- Usable length in mm (R625, ch14). [S] -/
  lengthMm : Nat := 0
  /-- What the cartridge is loaded for (R590, ch13). [S] -/
  loaded : LoadedFor := .nothing
  /-- The load in progress (R590, ch13). [S] -/
  loading : Option Loading := none
  /-- The XPORT.UNLOAD ticket, and whether UNLOAD was sent (R591, ch13). [S] -/
  unloading : Option (Nat × Bool) := none
  /-- TRN_n_STAT.MOTION (ch13 Table 13-13). [S] -/
  motion : BitVec 3 := 0
  /-- TRN_n_STAT.SPEED, mm/s (ch13 Table 13-13). [S] -/
  speed : BitVec 16 := 0
  /-- TRN_n_WRAP (ch13 Table 13-14). [S] -/
  wrap : Nat := 0
  /-- TRN_n_LPOS (ch13 Table 13-14). [S] -/
  lpos : Word := 0
  /-- TRN_n_PES (ch13 Table 13-14). [S] -/
  pes : BitVec 16 := 0
  /-- TRN_n_CREDIT.WD_0, blocks (R573, ch13 Table 13-14). [S] -/
  credit0 : Nat := 0
  /-- TRN_n_CREDIT.WD_1, blocks (R573, ch13 Table 13-14). [S] -/
  credit1 : Nat := 0
  /-- NEXT_SEQ of the WD roles (R569, ch13 Table 13-4). [S] -/
  nextSeq : BitVec 24 := 0
  /-- Data blocks of WD_0 and WD_1 that wait for a credit (R573, ch13). [S] -/
  wait0 : Nat := 0
  wait1 : Nat := 0
  /-- SEQ of the next control message (R571, ch13). [S] -/
  msgSeq : Byte := 0
  /-- Control messages that wait to be sent, in order of arrival: TYPE, ARG and body (R572, ch13). [S] -/
  ctlq : List (Nat × Nat × List Nat) := []
  /-- TRN_n_STAT.WRITING: the write gate is on (ch13 Table 13-13). [S] -/
  gate : Bool := false
  /-- Consecutive servo frames found invalid (ch13 Table 13-8). [S] -/
  servoBad : Nat := 0
  /-- Consecutive servo frames within OFFTRACK_NM (R631, ch14). [S] -/
  servoGood : Nat := 0
  /-- Head temperature, 0.1 °C (ch13 Table 13-6). [S] -/
  headTemp : BitVec 16 := 0
  /-- Far accesses, the first in progress (R578, ch13). [S] -/
  far : List FarReq := []
  /-- Gondola registers last written or read through far space, by address (R596, ch13 Table 13-16). [S] -/
  gondola : Sparse (Option Word) := []
  /-- ACCEL, 0.1 m/s² (ch13 Table 13-12). [S] -/
  accel : Nat := 40
  /-- LOAD_TIMEOUT, s (ch13 Table 13-12). [S] -/
  loadTimeout : Nat := 120
  /-- OFFTRACK_NM (ch13 Table 13-12). [S] -/
  offtrack : Nat := 100
  deriving DecidableEq, Repr

/-! ### Formatter and verify (ch12, ch14) -/

/-- Kind of a data set (Table 12-5). -/
inductive DsKind where
  | data | tail | manifest | endOfData
  deriving DecidableEq, Repr

/-- One writing of a data set (R548, R617). -/
structure CopyOf where
  rewrite : Nat
  wrap : Nat
  lpos : Nat
  /-- Rows built, 0 to 96. -/
  built : Nat
  /-- Rows ruled, and rows passed. -/
  ruled : BitVec 96
  passed : BitVec 96
  deriving DecidableEq, Repr

/-- A data set in a transport's window (R624). -/
structure DataSet where
  dsn : Nat
  kind : DsKind
  stream : Nat
  seq : Nat
  group : Nat
  pos : Nat
  /-- K of a tail. -/
  k : Nat
  /-- Data-area bytes placed, pads included. -/
  area : List Byte
  /-- Pads of the data area, each by its first offset and the offset that ends it (R544, R545). -/
  pads : List (Nat × Nat)
  firstItem : Option Nat
  recordAtStart : Option Nat
  bytesBefore : Nat
  /-- Staging extents its bytes came from (R611). -/
  exts : List Nat
  /-- Every byte of the data area holds an item byte or a pad (R601). -/
  full : Bool
  /-- Copies, the newest first. -/
  copies : List CopyOf
  /-- It failed finally (R621). -/
  failed : Bool
  deriving DecidableEq, Repr

/-- The writing session on a cartridge (R550, R551). -/
structure Session where
  no : Nat
  firstDsn : Nat
  /-- Newest earlier manifest: DSN, wrap, LPOS. -/
  prev : Option (Nat × Nat × Nat)
  floor : Nat
  /-- The old session list and the values written in this session. -/
  old : List Nat
  added : List Nat
  /-- One more than the largest INV written. -/
  inv : Nat
  pieces : List Piece
  sets : List (Nat × List Nat)
  /-- Data sets written in the session. -/
  written : Nat
  /-- It is to end: XPORT.UNLOAD, or the cartridge is FULL (R591, R625). -/
  ending : Bool
  deriving DecidableEq, Repr

/-- FMT and VRF for one transport (ch14). -/
structure FmtTrn where
  /-- The window, oldest first (R624, ch14). [S] -/
  window : List DataSet := []
  /-- DSN of the data set being written (R605, ch14). [S] -/
  cur : Option Nat := none
  /-- A row's build has begun and waits for bytes: FMT holds this row open (R604, ch14). [S] -/
  rowOpen : Bool := false
  /-- The open data set closes short at the next row boundary (R606, ch14). [S] -/
  closing : Bool := false
  /-- DSNs whose copies are due, in order; FMT_STAT.COPY_DUE (R617, ch14 Table 14-6). [S] -/
  copyDue : List Nat := []
  /-- Tails still to be written of a closed group; FMT_STAT.TAIL_DUE (R599, ch14 Table 14-6). [S] -/
  tailsDue : Nat := 0
  /-- GROUP of the open group (R546, ch12). [S] -/
  group : Nat := 0
  /-- Members of the open or closing group (R540, ch12). [S] -/
  members : Nat := 0
  /-- C3 parity of the members so far, tails 14 and 15 (R541, ch12). [S] -/
  tail14 : List Byte := []
  tail15 : List Byte := []
  /-- Next DSN of the cartridge (R546, ch12). [S] -/
  nextDsn : Nat := 0
  /-- U, copies placed in this wrap (R620, ch14). [S] -/
  u : Nat := 0
  /-- N, data sets first written in this wrap (R620, ch14). [S] -/
  n : Nat := 0
  /-- Data sets written in this wrap, copies included (R527, ch12; R625, ch14). [S] -/
  inWrap : Nat := 0
  /-- The writing session (R550, ch12). [S] -/
  session : Option Session := none
  /-- Data sets written in the last session ended, for XPORT.UNLOAD (R591, ch13). [S] -/
  written : Nat := 0
  /-- The cartridge is FULL (R625, ch14). [S] -/
  full : Bool := false
  /-- The window held 48 DSNs and has not fallen to 40 (R624, ch14). [S] -/
  windowHold : Bool := false
  /-- Stream served last at a boundary (R600, ch14). [S] -/
  lastServed : Nat := 63
  /-- Stream of the last DATA data set, for fill (R545, ch12). [S] -/
  lastStream : Nat := 0
  /-- Rows built and not ruled, oldest first: DSN, REWRITE, row (R608, ch14). [S] -/
  unruled : List (Nat × Nat × Nat) := []
  /-- The write gate dropped off track; writing resumes after 8 good frames (R631, ch14). [S] -/
  offTrack : Bool := false
  /-- Codewords in the deep decoder's queue (R677, ch16). [S] -/
  deep : Nat := 0
  deriving DecidableEq, Repr

/-- FMT and VRF (ch14, ch16). -/
structure Fmt where
  /-- Per transport (ch14). [S] -/
  trn : Vector FmtTrn 8 := Vector.replicate 8 {}
  /-- Fjarma has enabled FMT (R634, ch14). [S] -/
  enabled : Bool := false
  deriving DecidableEq, Repr

/-! ### The governor (ch15) -/

/-- What GOV does with a member (R670). -/
inductive GovState where
  | parked | held | stopping | restarting | running | turning
  deriving DecidableEq, Repr

/-- One transport under GOV (ch15). -/
structure GovMember where
  /-- GOV_SET CODE_n, 0xFF when stopped (ch15 Table 15-9). [S] -/
  code : Nat := 255
  /-- State (R670, ch15). [S] -/
  state : GovState := .parked
  /-- Fill count (R651, ch15). [S] -/
  fill : Nat := 0
  /-- The member is at its park point: GOV_STAT.PARKED (R653, ch15 Table 15-8). [S] -/
  parked : Bool := false
  /-- LOCATE to the park point was sent (R653, ch15). [S] -/
  locating : Bool := false
  /-- LPOS at the first channel bit of the last lead-out (R654, ch15). [S] -/
  stopLpos : Word := 0
  /-- A stop falls due at the next data-set boundary (R653, R657, ch15). [S] -/
  stopDue : Bool := false
  /-- A restart that fell due waits until the member is parked or its half is on (R656, ch15). [S] -/
  restartDue : Bool := false
  /-- The group as last formed, by mask; 0 when in none (R642, ch15). [S] -/
  group : BitVec 8 := 0
  /-- Set point of the group (R646, ch15). [S] -/
  setPoint : Nat := 0
  /-- k_req of the latest evaluation (R646, ch15). [S] -/
  kReq : Nat := 0
  /-- Evaluations for which k_req has stayed below the set point (R647, ch15). [S] -/
  below : Nat := 0
  /-- Hold mode of the group: 0 AUTO, 1 FIXED, 2 STOP (R672, ch15). [S] -/
  mode : Nat := 0
  /-- Code of FIXED (R672, ch15). [S] -/
  fixed : Nat := 0
  deriving DecidableEq, Repr

/-- GOV (ch15). -/
structure Gov where
  /-- The members (ch15). [S] -/
  mem : Vector GovMember 8 := Vector.replicate 8 {}
  /-- TAU, RATE_WINDOW, DOWN_DWELL, PAD_LIMIT, RESTART_MARK, RESTART_AGE, EXT_HOLD, THERM_CAP (ch15 Table 15-7). [S] -/
  param : Vector Nat 8 := #v[100, 64, 100, 3, 2048, 10000, 10000, 68]
  /-- The parameters as last set, in force from the next evaluation (R666, R671, ch15). [S] -/
  next : Vector Nat 8 := #v[100, 64, 100, 3, 2048, 10000, 10000, 68]
  /-- GOV_STAT.EXT_HOLD (R658, ch15 Table 15-8). [S] -/
  extHold : Bool := false
  /-- An external-start event awaits the next evaluation (R658, ch15). [S] -/
  extEvent : Bool := false
  /-- Evaluations made, the governor's millisecond count (R646, ch15). [S] -/
  evals : Nat := 0
  /-- Fjarma has enabled GOV (R669, ch15). [S] -/
  enabled : Bool := false
  deriving DecidableEq, Repr

/-! ### Restore (ch16) -/

/-- A transport's restore index (R682, R683). -/
structure RestIndex where
  /-- Sessions indexed, newest first. -/
  sessions : List IdxSession := []
  /-- A session was left unindexed: NO_END, MANIFEST_CRC. -/
  noEnd : Bool := false
  manifestCrc : Bool := false
  /-- A session did not fit. -/
  overflow : Bool := false
  deriving DecidableEq, Repr

/-- A restore request in flight (R684 to R694). -/
structure Request where
  ticket : Nat
  trn : Trn
  stream : Nat
  number : Nat
  output : Nat
  rawItem : Bool
  swap : Nat
  notify : Bool
  dest : Nat
  bufLen : Nat
  port : Port
  qp : Fin 64
  rkey : Word
  resAddr : Nat
  /-- Pieces not read yet, with the transport of each, in order of BYTES_BEFORE. -/
  todo : List (Nat × Piece)
  /-- The first of them is read in part. -/
  mid : Bool
  /-- The pieces found do not reach the end of the run. -/
  cut : Bool
  /-- Host tag of the first piece's entry. -/
  hostTag : Nat
  /-- Item-run bytes read so far, and the working extents they stand in. -/
  got : Nat
  exts : List Nat
  /-- The run breaks after `got`: a byte stays unknown (R694). -/
  broken : Bool
  env : Option Envelope
  slot : Option Nat
  /-- Offset in the item run of the next block to decrypt, and its index. -/
  pos : Nat
  index : Nat
  /-- Plaintext blocks handed to CMP and not decoded, with the good-tag flag of each. -/
  plain : List (List Byte × Bool)
  decoded : Nat
  delivered : Nat
  /-- Bytes of the blocks whose tags and tests passed (R694). -/
  good : Nat
  /-- Output bytes that wait for the rest of a swap unit. -/
  carry : List Byte
  verdict : BitVec 8
  ladder : Nat
  sets : Nat
  /-- Lent extents of staging output: first and count. -/
  lent : Option (Nat × Nat)
  /-- The code the request ends with, once it is known. -/
  code : Option Nat
  /-- Its result entry went out. -/
  told : Bool
  /-- RDMA output: bytes of the message being gathered, and bytes sent in earlier ones. -/
  msg : List Byte
  sent : Nat
  /-- Messages on the QP not acknowledged. -/
  unacked : Nat
  /-- Bytes acknowledged by the peer. -/
  acked : Nat
  deriving DecidableEq, Repr

/-- The timing recovery of one read-back channel (R674). -/
structure ChanLock where
  /-- Sync marks missed in a row. -/
  missed : Nat := 0
  /-- The rest of the data set is erased. -/
  lost : Bool := false
  /-- The next sync mark is sought within 64 channel bits. -/
  seeking : Bool := false
  deriving DecidableEq, Repr

/-- A data set with needed bytes unknown, on its way through the retry ladder (R691). -/
structure HeldSet where
  dsi : Dsi
  /-- The data area as written. -/
  area : List Byte
  /-- Codewords that no pass over any copy has decoded, and the information bytes of those decoded wrongly. -/
  fails : List (Nat × Nat)
  wrong : List ((Nat × Nat) × List Byte)
  /-- Passes made over it, and data sets read past it in the first. -/
  pass : Nat
  past : Nat
  /-- The highest ladder step used, and AVERAGED. -/
  step : Nat
  averaged : Bool
  deriving DecidableEq, Repr

/-- A decoded data set kept for the requests that wait on it (R698, R699). -/
structure CachedSet where
  dsi : Dsi
  /-- Its place among the 16 data areas that the cache's extents hold. -/
  slot : Nat
  /-- Information bytes left unknown, by codeword. -/
  gaps : Gaps
  /-- Highest ladder step, and C2_USED, C3_USED and AVERAGED as the verdict holds them. -/
  step : Nat
  bits : BitVec 8
  deriving DecidableEq, Repr

/-- The sweep over a data set's group, ladder step 5 (R693). -/
structure GroupSweep where
  group : Nat
  /-- Bytes left unknown in each member and tail read, by POS. -/
  mates : List (Nat × Gaps) := []
  /-- K, once a tail has told it. -/
  k : Option Nat := none
  /-- Where the part of the sweep under way begins. -/
  place : Nat × Nat × Nat
  /-- The end of the wrap before, and the start of the one after, have been swept too. -/
  before : Bool := false
  after : Bool := false
  deriving DecidableEq, Repr

/-- Restore on one transport (ch16). -/
structure RestTrn where
  /-- The restore index (R682, R709, ch16). [S] -/
  index : Option RestIndex := none
  /-- VRF_STAT.READING (ch16 Table 16-9). [S] -/
  reading : Bool := false
  /-- VRF_STAT.RETRYING (ch16 Table 16-9). [S] -/
  retrying : Bool := false
  /-- RESTORE.INDEX or RESTORE.REBUILD under way (R682, R695, ch16). [S] -/
  scan : Option Scan := none
  /-- Those that wait behind it: ticket and what it is for (R267, ch06; R700, ch16). [S] -/
  scans : List (Nat × ScanFor) := []
  /-- DSN being read (R714, ch16). [S] -/
  dsn : Nat := 0
  /-- Extents that hold the restore index, 48 bytes an entry (R683, R714, ch16). [S] -/
  extents : List Nat := []
  /-- Timing recovery of the 64 channels (R674, ch16). [S] -/
  lock : Vector ChanLock 64 := Vector.replicate 64 {}
  /-- Data sets on the retry ladder (R691, ch16). [S] -/
  held : List HeldSet := []
  /-- Number of the retry pass under way, and the last data set that it is to cover (R691, ch16). [S] -/
  passNo : Nat := 1
  sweepTo : Nat := 0
  /-- Ladder step 5 under way (R693, ch16). [S] -/
  sweep : Option GroupSweep := none
  /-- The last 16 data sets decoded, newest first, and the extents that hold them (R698, R699, ch16). [S] -/
  cache : List CachedSet := []
  cacheExts : List Nat := []
  /-- Extents for the samples of retry passes (R691, R698, ch16). [S] -/
  sampleExts : List Nat := []
  deriving DecidableEq, Repr

/-- Restore (ch16). -/
structure Rst where
  /-- Per transport (ch16). [S] -/
  trn : Vector RestTrn 8 := Vector.replicate 8 {}
  /-- Requests in flight, in take order (R697, R709, ch16). [S] -/
  reqs : List Request := []
  /-- Runs lent to the host: first extent, count, and the ticket still writing them (R688, R716, ch16). [S] -/
  lent : List (Nat × Nat × Option Nat) := []
  /-- READ_SPEED, RETRY_SPEED, MAX_PASSES, DEEP_ITER, C3_ENABLE (ch16 Table 16-8). [S] -/
  param : Vector Nat 5 := #v[128, 0, 5, 8, 1]
  deriving DecidableEq, Repr

/-! ### Supply and heat (ch17) -/

/-- Junction sensors and the thermal states (ch17). -/
structure Therm where
  /-- THERM_STAT.VALID (R735, R737, ch17 Table 17-8). [S] -/
  valid : BitVec 8 := 0xFF
  /-- Consecutive samples in which each sensor stood apart from the others' median (R735, ch17). [S] -/
  apart : Vector Nat 8 := Vector.replicate 8 0
  /-- THERM_TEMP_j: last readings, 0.1 °C (ch17 Table 17-9). [S] -/
  temp : Vector (BitVec 16) 8 := Vector.replicate 8 0
  /-- Consecutive samples at or above the throttle's entry level, at most 16 (R722, ch17 Table 17-8). [S] -/
  hot : Nat := 0
  /-- Consecutive samples at or below the throttle's leaving level, at most 16 (R722, ch17 Table 17-8). [S] -/
  cool : Nat := 0
  /-- The same two counts of the critical condition (R723, ch17). [S] -/
  critHot : Nat := 0
  critCool : Nat := 0
  /-- THERM_STAT.THROTTLE: the throttle is in force (R722, R736, ch17 Table 17-8). [S] -/
  throttle : Bool := false
  /-- THERM_STAT.CRITICAL (R723, ch17 Table 17-8). [S] -/
  critical : Bool := false
  /-- THERM_N is asserted (R725, ch17 Table 17-8). [S] -/
  thermN : Bool := false
  /-- THERM_MAX.NOW (ch17 Table 17-10). [S] -/
  now : BitVec 16 := 0
  /-- THERM_MAX.PEAK (ch17 Table 17-10). [S] -/
  peak : BitVec 16 := 0
  /-- A sample has been taken since reset (R737, ch17). [S] -/
  sampled : Bool := false
  deriving DecidableEq, Repr

/-! ### The tether log (ch18) -/

/-- A running EXPORT (R751, R752). -/
structure Export where
  ticket : Nat
  /-- 0 RING, 1 FREEZE_BUF, 2 FOLLOW. -/
  source : Nat
  toStaging : Bool
  addr : Nat
  buf : Nat
  /-- Content bytes written so far. -/
  done : Nat
  /-- FOLLOW: units of the log written to the buffer or standing before its start, as TETHER_UNITS counts them. -/
  units : Nat
  /-- Lent extents of a staging destination: first and count. -/
  lent : Option (Nat × Nat)
  /-- Epoch and stamp of the first unit, once there is one, and stamp of the last. -/
  first : Option (Nat × Nat)
  last : Nat
  /-- FOLLOW: anchor slots whose image was written, and images that wait until requests may be issued again (R327). -/
  anchors : BitVec 2
  owed : List (Fin 2 × Nat) := []
  deriving DecidableEq, Repr

/-- A complete anchor (R747). -/
structure Anchor where
  /-- Epoch and stamp of its ANCHOR entry. -/
  epoch : Nat
  stamp : Nat
  /-- Number of the first of the free values that its image is made of (log 5). -/
  image : Nat
  deriving DecidableEq, Repr

/-- The tether log (ch18). -/
structure Tether where
  /-- TETHER_CYCLE: the stamp (R741, R763, ch18). [S] -/
  stamp : BitVec 48 := 0
  /-- TETHER_EPOCH (R742, ch18 Table 18-10). [S] -/
  epoch : BitVec 16 := 0
  /-- Units in the entry ring, newest first (R743, R746, ch18). [S] -/
  ring : List (BitVec 128) := []
  /-- Units written to the ring since it was laid out; the next one's place in its line and in the ring (R743, R746, ch18). [S] -/
  ringPos : Nat := 0
  /-- TETHER_STAT.FROZEN (R749, ch18 Table 18-10). [S] -/
  frozen : Bool := false
  /-- The writer runs: START was recorded (R748, ch18). [S] -/
  running : Bool := false
  /-- Epoch count at the newest unit of the ring (R751, R757, ch18). [S] -/
  ringEpoch : BitVec 16 := 0
  /-- The complete anchor of each slot (R747, ch18). [S] -/
  anchor : Vector (Option Anchor) 2 := Vector.replicate 2 none
  /-- The slot being copied: TETHER_STAT.ANCHORING (R747, ch18 Table 18-10). [S] -/
  anchoring : Option (Fin 2) := none
  /-- ANCHOR_MS (R767, ch18). [S] -/
  anchorMs : Nat := 1000
  /-- The RING or FREEZE_BUF EXPORT: TETHER_STAT.EXPORTING (R765, ch18 Table 18-10). [S] -/
  exporting : Option Export := none
  deriving DecidableEq, Repr

/-! ### Debug and test (ch19) -/

/-- The TAP and the debug module; these outlive resets of PD_SUP (R771, R794). -/
structure DebugModule where
  /-- TAP instruction (R769, ch19). [S] -/
  ir : BitVec 5 := 0x02
  /-- dmcontrol.dmactive: DBG_STAT.DMACTIVE (R792, ch19 Table 19-9). [S] -/
  dmactive : Bool := false
  /-- The halt-on-reset request (R794, ch19). [S] -/
  resetHalt : Bool := false
  /-- A halt request waits for the first instruction boundary of Fjarma (R774, ch19). [S] -/
  haltDue : Bool := false
  /-- sbcs.sberror (R776, ch19). [S] -/
  sberror : BitVec 3 := 0
  /-- sbaddress0: the address of the next system bus access (ch19, The debug module). [D 20] -/
  sbaddress : Word := 0
  /-- sbdata0 as last read (ch19, The debug module). [S] -/
  sbdata : Word := 0
  /-- abstractcs.cmderr (R773, ch19). [S] -/
  cmderr : BitVec 3 := 0
  /-- data0 and data1 as last read (ch19, The debug module). [S] -/
  data : BitVec 64 := 0
  /-- The program buffer (ch19 Table 19-7). [D 20] -/
  progbuf : Vector Word 4 := Vector.replicate 4 0
  /-- The boundary register's cells (R771, ch19 Table 19-7). [D 20] -/
  boundary : BitVec 120 := 0
  deriving DecidableEq, Repr

/-- An armed injector (R785). -/
structure Injector where
  code : Nat
  p2 : Word
  p3 : Word
  deriving DecidableEq, Repr

/-- Debug and test state in PD_SUP (ch19). -/
structure Dbg where
  /-- The core is halted by the debug module: DBG_STAT.HALTED (R779, ch19 Table 19-9). [S] -/
  halted : Bool := false
  /-- DBG_STAT.TAINT (R778, ch19 Table 19-9). [S] -/
  taint : Bool := false
  /-- DBG_STAT.WD_ARMED (R782, ch19 Table 19-9). [S] -/
  wdArmed : Bool := false
  /-- WD_STAT.REMAIN, ms (R782, ch19 Table 19-10). [S] -/
  wdRemain : Nat := 0
  /-- Supervisor SRAM words that the boot ROM or the debug agent stored, by SBA address (ch19 Table 19-3). [D 20] -/
  sram : Sparse (Option Word) := []
  /-- Hart registers that the debug agent wrote in this halt, by abstract register number (R773, ch19). [D 20] -/
  reg : Sparse (Option (BitVec 64)) := []
  /-- How often code ran whose registers and data the model does not follow; other words and registers read as open values
  of this number, or as zero when it is 0 (R773, ch19). [M 20] -/
  runs : Nat := 0
  /-- tselect, and tdata1 and tdata2 of the 4 triggers (ch19 Table 19-7). [D 20] -/
  tselect : BitVec 2 := 0
  trigger : Vector (BitVec 64 × BitVec 64) 4 := Vector.replicate 4 (0, 0)
  /-- Armed injectors: DIAG_ARMED (R785, ch19 Table 19-11). [S] -/
  armed : List Injector := []
  /-- SRAM words stored with flipped bits: SBA address, and whether two bits flip (R785, ch19 Table 19-6). [S] -/
  flipped : List (Nat × Bool) := []
  /-- Sensor offset in force: sensor, offset (R785, ch19). [S] -/
  offsets : List (Nat × Int) := []
  /-- DIAG_LOOP_STAT.TRN (ch19 Table 19-12). [S] -/
  loopTrn : BitVec 8 := 0
  /-- DIAG_LOOP_STAT ETH modes (ch19 Table 19-12). [S] -/
  loopEth : Vector (BitVec 2) 2 := Vector.replicate 2 0
  /-- Lanes whose PRBS checker is locked (R793, ch19). [S] -/
  locked : List Nat := []
  deriving DecidableEq, Repr

/-! ### The whole machine -/

/-- The state of the block. -/
structure State where
  /-- Commands waiting, first in first out (log 1). [M 1] -/
  pending : List Instr := []
  /-- Windows, wide-value port, counters and parity (ch04). [S] -/
  regs : Regs := {}
  /-- The I2C target (ch04). [S] -/
  i2c : I2cBus := {}
  /-- The interrupt tree (ch05). [S] -/
  irq : Irq := {}
  /-- Faults and their handling (ch05). [S] -/
  faults : Faults := {}
  /-- Mailboxes, doorbells and tickets (ch06). [S] -/
  mbx : Mbx := {}
  /-- PD_AON (ch03). [S] -/
  aon : Aon := {}
  /-- Power domains and clocks (ch03). [S] -/
  power : Power := {}
  /-- Boot ROM and firmware (ch03). [S] -/
  boot : Boot := {}
  /-- AUX pins (ch02). [S] -/
  aux : Aux := {}
  /-- PCIe controller (ch07). [S] -/
  pcie : Pcie := {}
  /-- DMA engine (ch07). [S] -/
  dma : Dma := {}
  /-- Ethernet and RoCE (ch08). [S] -/
  net : Net := {}
  /-- Staging (ch09). [S] -/
  stg : Stg := {}
  /-- Compression (ch10). [S] -/
  cmp : Cmp := {}
  /-- Cipher and data-key slots (ch11). [S] -/
  cip : Cip := {}
  /-- Fuses and the NV controller (ch11). [S] -/
  nv : Nv := {}
  /-- Streams, records and ING (ch01, ch14). [S] -/
  ing : Ing := {}
  /-- Transport ports (ch13). [S] -/
  trn : Vector TrnPort 8 := Vector.replicate 8 {}
  /-- Formatter and verify (ch12, ch14). [S] -/
  fmt : Fmt := {}
  /-- The governor (ch15). [S] -/
  gov : Gov := {}
  /-- Restore (ch16). [S] -/
  rst : Rst := {}
  /-- Heat (ch17). [S] -/
  therm : Therm := {}
  /-- The tether log (ch18). [S] -/
  tether : Tether := {}
  /-- TAP and debug module (ch19). [S] -/
  dm : DebugModule := {}
  /-- Debug and test (ch19). [S] -/
  dbg : Dbg := {}
  /-- What the block sent out, newest first (log 4). [M 4] -/
  out : List Out := []
  /-- How many free values were used (log 5). [M 5] -/
  free : Nat := 0
  /-- The model's own: how many bytes accepted beyond the cap make acceptance stand at it (R43). The spec gives no time over
  which the rate is taken. [D 187] -/
  rateRoom : Nat := 140000000
  deriving DecidableEq, Repr

/-- The machine right after power-on, RESET_N still low (R129 code 0x0, R237; log 8). -/
def State.reset : State := {}

end Sys2Proof.Machine
end

