-- ==== Sys2Proof/Machine/Ops.lean ====
section
/-!
DEFINITION. The plainest operations over the state: the output trace, free values, counters, leaves, control messages,
tickets and the tether log.
-/
namespace Sys2Proof.Machine
open Sys2Proof

/-- Record what the block sends out (log 4). -/
def emit (o : Out) (s : State) : State := { s with out := o :: s.out }

/-- A value the spec leaves open, and the state that has used it (log 5). -/
def freeValue (s : State) : BitVec 64 × State := (Config.freeValue s.free, { s with free := s.free + 1 })

/-- Domain `d` is on, in the bit order of PD_STAT.ON (Table 03-19). -/
def domOn (d : Nat) (s : State) : Bool := s.power.on.getLsbD d

/-- Source `src`'s block is halted at level 2 (R220). -/
def haltedSrc (src : Nat) (s : State) : Bool := s.faults.halted.getLsbD src

/-- The domain of a transport's link port (Table 03-2). -/
def tlDomain (n : Nat) : Nat := if n < 4 then 10 else 11

/-- The domain of a SerDes lane (Table 02-3, R784). -/
def laneDomain (i : Nat) : Nat :=
  if i < 112 then tlDomain (i / 14) else if i < 128 then 1 else if i < 136 then 2 else 3

/-- The domain in which the registers of a summary source lie, where it can be switched; RDMA's and VRF's lie in PD_SUP
(Table 03-2, R156). -/
def srcDomain (src : Nat) : Option Nat :=
  match src with
  | 3 => some 2
  | 4 => some 3
  | 7 => some 5
  | 8 => some 6
  | 9 => some 6
  | 10 => some 7
  | k => if 11 ≤ k ∧ k < 19 then some (tlDomain (k - 11)) else none

/-- The registers of the source are in a domain that is on. -/
def srcOn (src : Nat) (s : State) : Bool :=
  match srcDomain src with
  | some d => domOn d s
  | none => true

/-- The summary sources whose registers a domain's switch resets (R98, R156). -/
def domainSources (d : Nat) : List Nat := (List.range 28).filter (fun k => srcDomain k == some d)

/-- The summary source of the block that owns a counter, where it has one that can halt (Table 21-4). -/
def counterSource (off : Nat) : Option Nat :=
  if off < 0x8200 then none
  else if off < 0x8210 then some 2
  else if off < 0x8220 then some 1
  else if off < 0x8280 then some 2
  else if off < 0x8400 then some (if off % 0x80 < 0x48 then 3 + (off - 0x8300) / 0x80 else 5)
  else if off < 0x8500 then some 6
  else if off < 0x8600 then some 7
  else if off < 0x8620 then some 8
  else if off < 0x8700 then some 9
  else if off < 0x8900 then some (11 + (off - 0x8700) / 0x40)
  else if off < 0x8A00 then some 10
  else if off < 0x8B00 then some 20
  else if off < 0x8C00 then some 19
  else if off < 0x9000 then none
  else
    let i := (off - 0x9000) / 8
    some (if i < 112 then 11 + i / 14 else if i < 128 then 1 else 3 + (i - 128) / 8)

/-- The counter is powered. -/
def counterOn (off : Nat) (s : State) : Bool := (counterSource off).all (fun k => srcOn k s)

/-- The counter counts: it is powered, and its block is not halted (R156; ch05, Fault levels). -/
def counterRuns (off : Nat) (s : State) : Bool := counterOn off s && !(counterSource off).any (fun k => haltedSrc k s)

/-- A 48-bit counter counts up by `k`, wrapping (R183). -/
def count (off k : Nat) (s : State) : State :=
  { s with regs.counters := if counterRuns off s then
      spSet 0 s.regs.counters off (spGet 0 s.regs.counters off + BitVec.ofNat 48 k) else s.regs.counters }

/-- A counter's value. -/
def counter (off : Nat) (s : State) : BitVec 48 := spGet 0 s.regs.counters off

/-- An event leaf of a first-level cause register latches, where the register is powered (R156, R211). -/
def setLeaf (src bit : Nat) (s : State) : State :=
  { s with irq.cause := updN s.irq.cause src (fun w => if srcOn src s then setBit w bit else w) }

/-- An event leaf of a TRN second-level register latches: 1 LINK, 2 SERVO, 3 VERIFY (Table 05-3). -/
def setTrnLeaf (n reg bit : Nat) (s : State) : State :=
  { s with irq.trn := updN s.irq.trn n (fun t =>
      if !srcOn (11 + n) s then t
      else match reg with
      | 1 => { t with link := setBit t.link bit }
      | 2 => { t with servo := setBit t.servo bit }
      | _ => { t with verify := setBit t.verify bit }) }

/-- A leaf's code as FAULT_LAST has it (Table 05-14): register 0 to 3, bit. -/
def leafCode (reg bit : Nat) : BitVec 8 := BitVec.ofNat 8 (32 * reg + bit)

/-- A leaf coded as in FAULT_LAST (Table 05-14) latches in its register. -/
def latch (src : Nat) (leaf : BitVec 8) (s : State) : State :=
  match field leaf 5 3 with
  | 0 => setLeaf src (field leaf 0 5) s
  | r => setTrnLeaf (src - 11) r (field leaf 0 5) s

/-- A doorbell bit sets (R258). -/
def ring (bit : Nat) (s : State) : State := { s with mbx.dbStat := setBit s.mbx.dbStat bit }

/-- FW_STATE.STATE reads READY, or SAFE (Table 03-13). -/
def fwReady (s : State) : Bool := s.boot.fwState == 5
def fwSafe (s : State) : Bool := s.boot.fwState == 7

/-- The supervisor takes commands: READY was reached, and no debug agent holds the core (R245, R271). -/
def supRuns (s : State) : Bool := (fwReady s || fwSafe s) && s.boot.phase == .running && !s.dbg.halted

/-- The cycle stamp as a number (R741). -/
def now (s : State) : Nat := s.tether.stamp.toNat

/-! ### Parts of the state -/

def modTrn (n : Trn) (f : TrnPort → TrnPort) (s : State) : State := { s with trn := upd s.trn n f }
def modFmt (n : Trn) (f : FmtTrn → FmtTrn) (s : State) : State := { s with fmt.trn := upd s.fmt.trn n f }
def modGov (n : Trn) (f : GovMember → GovMember) (s : State) : State := { s with gov.mem := upd s.gov.mem n f }
def modRst (n : Trn) (f : RestTrn → RestTrn) (s : State) : State := { s with rst.trn := upd s.rst.trn n f }
def modStream (i : Strm) (f : Stream → Stream) (s : State) : State := { s with ing.stream := upd s.ing.stream i f }
def modPort (p : Port) (f : EthPort → EthPort) (s : State) : State := { s with net.port := upd s.net.port p f }
def modTicket (t : Nat) (f : Ticket → Ticket) (s : State) : State := { s with mbx.ticket := updN s.mbx.ticket t f }
def modChan (c : Chan) (f : Channel → Channel) (s : State) : State := { s with mbx.chan := upd s.mbx.chan c f }

/-- The descriptor at index `r`. -/
def getRec (r : Nat) (s : State) : Option Rec := spGet none s.ing.recs r
def setRec (r : Nat) (v : Option Rec) (s : State) : State := { s with ing.recs := spSet none s.ing.recs r v }
def modRec (r : Nat) (f : Rec → Rec) (s : State) : State :=
  match getRec r s with
  | none => s
  | some v => setRec r (some (f v)) s

/-- Indices of the descriptors in use, rising. -/
def recsWhere (p : Rec → Bool) (s : State) : List Nat :=
  s.ing.recs.filterMap (fun e => match e.2 with
    | some v => if p v then some e.1 else none
    | none => none)

def allTrn : List Trn := List.finRange 8
def allStrm : List Strm := List.finRange 64

/-- Streams from the one after `turn`, round. -/
def roundFrom (turn : Nat) : List Strm :=
  (List.range 64).map (fun k => (⟨(turn + 1 + k) % 64, Nat.mod_lt _ (by decide)⟩ : Strm))

/-! ### Control messages (R570) -/

/-- A control message for TRN_n's CTL role, while its downlinks are driven: it waits for its turn (R572). -/
def sendCtl (n : Trn) (type : Nat) (arg : Nat) (body : List Nat) (s : State) : State :=
  if s.trn[n].downlink then modTrn n (fun t => { t with ctlq := t.ctlq ++ [(type, arg, body)] }) s else s

/-- Place of a control message in the order of R572, by TYPE. -/
def ctlRank (type : Nat) : Nat :=
  match type with
  | 0x10 => 0
  | 0x12 => 1
  | 0x20 => 2
  | 0x11 => 3
  | 0x21 => 4
  | _ => 5

/-- Waiting messages in the order in which they go out: by priority, and by arrival within one (R572). -/
def ctlOrder (q : List (Nat × Nat × List Nat)) : List (Nat × Nat × List Nat) :=
  (List.range 6).flatMap (fun r => q.filter (fun m => ctlRank m.1 = r))

/-- One message goes out with its number (R570, R571). -/
def emitCtl (n : Trn) (m : Nat × Nat × List Nat) (s : State) : State :=
  let t := s.trn[n]
  modTrn n (fun t => { t with msgSeq := t.msgSeq + 1 })
    (emit (.control n m.1 (BitVec.ofNat 32 m.2.1) m.2.2 (messageWords m.1 t.msgSeq.toNat m.2.1 m.2.2)) s)

/-- The messages that wait on TRN_n's CTL role go out. -/
def drainCtl (n : Trn) (s : State) : State :=
  match s.trn[n].ctlq with
  | [] => s
  | q => (ctlOrder q).foldl (fun s m => emitCtl n m s) (modTrn n (fun t => { t with ctlq := [] }) s)

/-- Messages that one command makes contend; when it ends, all have gone out (log 165). -/
def drainAll (s : State) : State := allTrn.foldl (fun s n => drainCtl n s) s

/-! ### The downlink (R566 to R569, R573) -/

/-- MBCOUNT of the formatter's multiblock boundary count for port n (R565, R566; log 166). -/
def mbCount (n : Trn) (s : State) : Nat := (s.tether.stamp.toNat + 16384 - 2048 * n.val) % 16384 * 200 / 16384

/-- SYSREF_n is in its pulse (R566; log 166). -/
def sysrefHigh (n : Trn) (s : State) : Bool :=
  s.trn[n].sysref && decide ((s.tether.stamp.toNat + 16384 - 2048 * n.val) % 16384 < 8)

/-- The role of an outbound lane, 10 to 13, by the codes of Table 13-4: the spare carries the role it took, and the lane
that lost it carries none any more (R568, R574). -/
def laneRole (n : Trn) (lane : Nat) (s : State) : Option Nat :=
  let t := s.trn[n]
  if lane = 13 then some (if t.spareInUse then t.spareRole.toNat else 3)
  else if t.spareInUse && decide (t.spareRole.toNat = lane - 10) then none
  else some (lane - 10)

/-- An outbound lane sends a multiblock of its marker and idle blocks. -/
def sendMarker (n : Trn) (lane : Nat) (s : State) : State :=
  match laneRole n lane s with
  | none => s
  | some r => emit (.multiblock n lane
      (multiblock (markerBlock r n.val (mbCount n s) (if r < 2 then s.trn[n].nextSeq.toNat else 0)) [])) s

/-- The multiblocks of WD role `r` that carry the channels' bits, `k` data blocks (R568, R569). -/
def wdLanes (n : Trn) (r k : Nat) (channels : List (List Bool)) (s : State) : List (List (Bool × BitVec 64)) :=
  wdMultiblocks r n.val ((k + 30) / 31) (mbCount n s) s.trn[n].nextSeq.toNat (wdBlocks channels k)

/-- The waiting data blocks go out as far as credits reach, and each spends one (R573). -/
def spendCredits (n : Trn) (s : State) : State :=
  let t := s.trn[n]
  count (0x8700 + 0x40 * n.val) (min t.wait0 t.credit0 + min t.wait1 t.credit1)
    (modTrn n (fun t => { t with
      credit0 := t.credit0 - t.wait0, wait0 := t.wait0 - t.credit0
      credit1 := t.credit1 - t.wait1, wait1 := t.wait1 - t.credit1 }) s)

/-- `k` data blocks are numbered in each WD role, and sent as credits allow (R569, R573). -/
def sendWd (n : Trn) (k : Nat) (s : State) : State :=
  spendCredits n (modTrn n (fun t => { t with
    nextSeq := t.nextSeq + BitVec.ofNat 24 k, wait0 := t.wait0 + k, wait1 := t.wait1 + k }) s)

/-- Data blocks of one row in each WD role, and of a lead-in or lead-out (R549, R603). -/
def rowBlocks : Nat := 4785

/-- A lead-in or lead-out goes out on all channels (R549, R569). -/
def sendLead (out : Trn → List (List (Bool × BitVec 64)) → List (List (Bool × BitVec 64)) → Out) (n : Trn) (s : State) : State :=
  let chans := List.replicate 32 leadBits
  sendWd n rowBlocks (emit (out n (wdLanes n 0 rowBlocks chans s) (wdLanes n 1 rowBlocks chans s)) s)

/-- WRITE_GATE off, naming the first block not written (Table 13-5). -/
def gateOff (n : Trn) (s : State) : State :=
  if s.trn[n].gate then
    modTrn n (fun t => { t with gate := false }) (sendCtl n 0x12 (256 * s.trn[n].nextSeq.toNat) [] s)
  else s

/-- WRITE_GATE on, naming the first block to write (Table 13-5). -/
def gateOn (n : Trn) (s : State) : State :=
  if s.trn[n].gate then s
  else modTrn n (fun t => { t with gate := true }) (sendCtl n 0x12 (1 + 256 * s.trn[n].nextSeq.toNat) [] s)

/-- MOTION with speed code `k` (0xFF stop), direction and acceleration limit (Table 13-5). -/
def sendMotion (n : Trn) (k : Nat) (rev : Bool) (accel : Nat) (s : State) : State :=
  sendCtl n 0x20 (k + 256 * b2n rev + 65536 * accel) [] s

/-- LOCATE to a wrap and LPOS (Table 13-5). -/
def sendLocate (n : Trn) (wrap lpos : Nat) (s : State) : State := sendCtl n 0x21 wrap [lpos] s

/-! ### Tickets (R252 to R256) -/

/-- The ticket's command is in flight. -/
def inFlight (t : Nat) (s : State) : Bool := match s.mbx.ticket[t]? with
  | some k => k.work.isSome
  | none => false

/-- The completion slot of ticket `t` is written, its CQ_DONE bit sets, and CMD_DONE_n of the issuing channel sets
(R254); `ws` holds W2 to W7. A command that has completed is not completed again (R256). -/
def completeTicket (t : Nat) (code : Nat) (ws : List Word) (s : State) : State :=
  match s.mbx.ticket[t]? with
  | none => s
  | some k =>
    if k.work.isNone then s else
    let w0 := (BitVec.ofNat 32 k.chan <<< 24) ||| (k.header &&& 0x00FFFFFF)
    ring k.chan (modTicket t (fun k => { k with
      done := true, work := none
      slot := Vector.ofFn (fun i =>
        if i.val = 0 then w0 else if i.val = 1 then BitVec.ofNat 32 code else ws.getD (i.val - 2) 0) }) s)

/-- Tickets in flight whose work meets `p`, rising. -/
def ticketsOf (p : LongOp → Bool) (s : State) : List Nat :=
  (List.range 64).filter (fun t => match s.mbx.ticket[t]? with
    | some k => match k.work with
      | some w => p w
      | none => false
    | none => false)

/-- Every ticket in flight whose work meets `p` completes. -/
def completeWhere (p : LongOp → Bool) (code : Nat) (ws : List Word) (s : State) : State :=
  (ticketsOf p s).foldl (fun s t => completeTicket t code ws s) s

/-- The tickets of a channel's pool (Table 06-1). -/
def poolOf (c : Chan) : List Nat :=
  if c.val = 9 then [60, 61, 62, 63] else if c.val = 8 then [56, 57, 58, 59] else List.range 56

/-- The lowest free ticket of the channel's pool (R252, R253). -/
def freeTicket (c : Chan) (s : State) : Option Nat :=
  (poolOf c).find? (fun t => match s.mbx.ticket[t]? with
    | some k => !k.held
    | none => false)

/-! ### Return codes (Table 06-6) -/

def rOk : Nat := 0x0000
def rAccepted : Nat := 0x0001
def rOpcode : Nat := 0x0101
def rParam : Nat := 0x0102
def rLength : Nat := 0x0103
def rState : Nat := 0x0201
def rBusy : Nat := 0x0202
def rNores : Nat := 0x0301
def rLimit : Nat := 0x0302
def rMedia : Nat := 0x0401
def rVerify : Nat := 0x0402
def rNotfound : Nat := 0x0403
def rAuth : Nat := 0x0501
def rKeyAmbig : Nat := 0x0502
def rKeyAbsent : Nat := 0x0503
def rNonce : Nat := 0x0504
def rNvBlocked : Nat := 0x0505
def rNvSpent : Nat := 0x0506
def rFault : Nat := 0x0601
def rThermal : Nat := 0x0602

/-! ### Injectors (R785) -/

/-- The armed injector of a code fires, where it meets `p`, and is no longer armed (Table 19-6). -/
def takeInjector (code : Nat) (p : Injector → Bool) (s : State) : Option Injector × State :=
  match s.dbg.armed.find? (fun a => a.code == code && p a) with
  | none => (none, s)
  | some a => (some a, { s with dbg.armed := s.dbg.armed.filter (fun a => a.code != code) })

/-- Injectors whose target's block is reset, recovered or switched off are disarmed (R788). -/
def disarm (p : Injector → Bool) (s : State) : State := { s with dbg.armed := s.dbg.armed.filter (fun a => !p a) }

/-! ### Resets of blocks (R164, R183) -/

/-- LANE_POLARITY of the lanes that `p` names takes its reset value (Table 02-20). -/
def resetLanes (p : Nat → Bool) (s : State) : State :=
  { s with regs.polarity := Vector.ofFn (fun i => if p i.val then 0 else s.regs.polarity[i]) }

/-- RX_INV_AUTO of a lane is what its receiver found at the lock (R91). -/
def setInverted (lane : Nat) (inv : Bool) (s : State) : State :=
  { s with regs.polarity := updN s.regs.polarity lane (fun v => (v &&& 0b011) ||| (if inv then 0b100 else 0)) }

/-- Counters of a block that is reset return to zero, and so do their shadows, by their _LO offsets (R182, R183). -/
def dropCounters (lo hi : Nat) (s : State) : State :=
  let mine (k : Nat) : Bool := decide (lo ≤ k ∧ k < hi)
  { s with
    regs.counters := spDrop mine s.regs.counters
    regs.shPcie := spDrop mine s.regs.shPcie
    regs.shI2c := spDrop mine s.regs.shI2c
    regs.shDebug := spDrop mine s.regs.shDebug
    regs.shSup := spDrop mine s.regs.shSup }

/-- Registers of a block that is reset hold matching parity again, and their mismatches may be reported anew (R165). -/
def dropParity (p : Nat → Bool) (s : State) : State :=
  { s with
    regs.badParity := s.regs.badParity.filter (fun k => !p k)
    regs.parityReported := s.regs.parityReported.filter (fun k => !p k) }

end Sys2Proof.Machine
end

