-- ==== Sys2Proof/Machine/Staging.lean ====
section
/-!
DEFINITION. Operations on staging memory: extents and the extent book, lines, the line code's outcomes, poison, the valid
map, whole-line and narrow writes (ch09).
-/
namespace Sys2Proof.Machine
open Sys2Proof

def stgBytes : Nat := 96 * 2 ^ 30
def extBytes : Nat := 2 ^ 20
def allExtents : Nat := 98304

/-- Staging memory is in its canonical form: addresses strictly rising, and no zero byte listed (log 11). -/
def Memory.wf (m : List Host.Cell) : Bool := spWf 0 m

/-! ### The extent book (R36, R397) -/

/-- The owner of extent `e`; control extents and the tether ring once laid out (R395, Table 09-1). -/
def ownerOf (s : State) (e : Nat) : Owner :=
  if s.stg.laidOut && decide (e < 256) then .ingest
  else if s.stg.laidOut && decide (e < 256 + s.stg.ringExtents) then .tether
  else spGet .free s.stg.owner e

/-- Extents in transit (R37, R397; Table 06-14 offset 0x02C). -/
def transitCount (s : State) : Nat := s.stg.moving.length

/-- Extents of one owner, those in transit apart (R397; Table 06-14 offset 0x010). -/
def ownerCount (o : Owner) (s : State) : Nat :=
  let listed := (s.stg.owner.filter (fun e => e.2 = o ∧ s.stg.moving.contains e.1 = false)).length
  let fixed := if s.stg.laidOut then 256 + s.stg.ringExtents else 0
  match o with
  | .free => allExtents - fixed - s.stg.owner.length -
      (s.stg.moving.filter (fun e => spGet .free s.stg.owner e = .free)).length
  | .ingest => listed + (if s.stg.laidOut then 256 else 0)
  | .tether => listed + (if s.stg.laidOut then s.stg.ringExtents else 0)
  | _ => listed

/-- F, the free extents (ch09, Ballast and high-water mark). -/
def freeCount (s : State) : Nat := ownerCount .free s

/-- Occupied extents, 98,304 − F. -/
def occupied (s : State) : Nat := allExtents - freeCount s

/-- The first payload extent. -/
def payloadBase (s : State) : Nat := 256 + s.stg.ringExtents

/-- The lowest free extent from `e`, looking at no more than `fuel` extents. -/
def lowestFree (owned : List (Nat × Owner)) : Nat → Nat → Option Nat
  | 0, _ => none
  | fuel + 1, e =>
    match owned with
    | [] => some e
    | (k, _) :: t => if k < e then lowestFree t fuel e else if k = e then lowestFree t fuel (e + 1) else some e

/-- Extents that are not free to take: owned, or on their way to free (R397). -/
def takenMap (s : State) : Sparse Owner :=
  s.stg.moving.foldl (fun m e => if spGet .free m e = .free then spSet .free m e .ingest else m) s.stg.owner

/-- Extent `e` moves to an owner, and is in transit until the next CCLK (R37, R397; log 188). -/
def setOwner (e : Nat) (o : Owner) (s : State) : State :=
  { s with stg.owner := spSet .free s.stg.owner e o, stg.moving := e :: s.stg.moving.filter (fun k => decide (k ≠ e)) }

/-- The taking blocks hold what was in transit (R397). -/
def endTransit (s : State) : State := { s with stg.moving := [] }

/-- The lowest free payload extent is taken for `o`. Which free extent a taker gets is the model's choice (log 21). -/
def takeExtent (o : Owner) (s : State) : Option (Nat × State) :=
  if freeCount s = 0 then none
  else (lowestFree (takenMap s) ((takenMap s).length + 1) (payloadBase s)).map (fun e => (e, setOwner e o s))

/-- ING and the restore pipeline take an extent only while F > B (R399). -/
def takeAbove (o : Owner) (s : State) : Option (Nat × State) :=
  if freeCount s > s.mbx.config.ballastMib then takeExtent o s else none

/-- `k` extents taken one after another, above the ballast. -/
def takeMany (o : Owner) : Nat → State → Option (List Nat × State)
  | 0, s => some ([], s)
  | k + 1, s =>
    match takeAbove o s with
    | none => none
    | some (e, s) => (takeMany o k s).map (fun r => (e :: r.1, r.2))

/-- The start of the lowest run of `k` consecutive free extents at or above `e` (R688). -/
def lowestRun (owned : List (Nat × Owner)) (k : Nat) : Nat → Nat
  | e => owned.foldl (fun acc x => if x.1 < acc then acc else if x.1 < acc + k then x.1 + 1 else acc) e

/-- A run of `k` extents is taken for `o`, under R399; none where there is no such run. -/
def takeRun (o : Owner) (k : Nat) (s : State) : Option (Nat × State) :=
  let e := lowestRun (takenMap s) k (payloadBase s)
  if e + k ≤ allExtents ∧ freeCount s ≥ s.mbx.config.ballastMib + k then
    some (e, (List.range k).foldl (fun s i => setOwner (e + i) o s) s)
  else none

/-- An extent moves from one owner to another, if it has the first (Table 09-3). -/
def moveExtent (o o' : Owner) (e : Nat) (s : State) : State := if ownerOf s e = o then setOwner e o' s else s

/-- Occupancy stands at or above the high-water mark (R401). -/
def highWater (s : State) : Bool := s.stg.laidOut && decide (occupied s ≥ s.mbx.config.highWaterMib)

/-- F < B (R402). -/
def ballastDraw (s : State) : Bool := s.stg.laidOut && decide (freeCount s < s.mbx.config.ballastMib)

/-! ### Lines -/

/-- The valid bit of the 4 KiB block that holds line `l`; every line of extents 0 to 255 is written at layout (R395). -/
def lineValid (l : Nat) (s : State) : Bool :=
  (s.stg.laidOut && decide (l < 256 * 16384)) || spGet false s.stg.valid (l / 64)

/-- The 64 bytes of line `l` as stored. -/
def lineBytes (l : Nat) (s : State) : List Byte := (List.range 64).map (fun i => spGet 0 s.stg.mem (64 * l + i))

/-- A line lies in a control region or the tether ring (R395, R396). -/
def isControl (l : Nat) (s : State) : Bool := s.stg.laidOut && decide (64 * l / extBytes < payloadBase s)

/-- STG_ERR_ADDR and STG_ERR_INFO record line `l` (R408, R409). -/
def recordLine (l kind symbol : Nat) (s : State) : State :=
  { s with
    stg.errAddr := BitVec.ofNat 37 (64 * l)
    stg.errInfo := pack [(16, kind), (8, symbol), (0, l / 4 % 4)] }

def setBytes (off : Nat) (bs : List Byte) (s : State) : State :=
  { s with stg.mem := (bs.zipIdx).foldl (fun m b => spSet 0 m (off + b.2) b.1) s.stg.mem }

/-- A line is stored with a fresh line code: data, no error, no poison; its block becomes valid (R413). -/
def storeLine (l : Nat) (bs : List Byte) (s : State) : State :=
  let s := setBytes (64 * l) bs s
  { s with
    stg.valid := spSet false s.stg.valid (l / 64) true
    stg.errs := spSet [] s.stg.errs l []
    stg.poison := spSet 0 s.stg.poison l 0 }

/-- The poison pattern is stored in line `l` (R409). -/
def poisonLine (l : Nat) (s : State) : State :=
  let s := storeLine l (List.replicate 64 0) s
  { s with stg.poison := spSet 0 s.stg.poison l 0xA5 }

/-- The flip mask fires on a requester's write of the armed line (R433). -/
def fireFlip (l : Nat) (s : State) : State :=
  let c := s.stg.flipCtrl
  if c.getLsbD 31 = true ∧ (s.stg.flipHi.toNat % 32) * 2 ^ 26 + s.stg.flipLo.toNat / 64 = l then
    let a := field c 18 6
    let b := field c 24 6
    let two := c.getLsbD 30
    let pat := BitVec.ofNat 16 (field c 0 16)
    let s := dropParity (fun k => decide (k = 0x534C)) { s with stg.flipCtrl := clrBit c 31 }
    if a > 34 ∨ (two = true ∧ (b > 34 ∨ a = b)) ∨ pat = 0 then s
    else { s with stg.errs := spSet [] s.stg.errs l ((a, pat) :: (if two then [(b, pat)] else [])) }
  else s

/-- A line is stored whole for a requester, or for a merge's write-back. -/
def storeWhole (l : Nat) (bs : List Byte) (s : State) : State := fireFlip l (storeLine l bs s)

/-- A merge-buffer entry of line `l` is written back (R415, R416): bytes written over the line, with a new line code. -/
def writeBack (l : Nat) (s : State) : State :=
  match s.stg.merge.find? (fun m => m.line = l) with
  | none => s
  | some m =>
    count 0x8410 1 (storeWhole l m.data { s with stg.merge := s.stg.merge.filter (fun m => m.line ≠ l) })

/-- An extent moves to free: writes to it are acknowledged first, so its merge-buffer entries are written back; then its
valid bits clear, and nothing of it can be read again (R397, R398, R410, R416). -/
def freeExtent (e : Nat) (s : State) : State :=
  let inExt (unit : Nat) (k : Nat) : Bool := decide (k * unit / extBytes = e)
  let s := (s.stg.merge.filter (fun m => inExt 64 m.line)).foldl (fun s m => writeBack m.line s) s
  { s with
    stg.owner := spSet .free s.stg.owner e .free
    stg.moving := e :: s.stg.moving.filter (fun k => decide (k ≠ e))
    stg.valid := spDrop (inExt 4096) s.stg.valid
    stg.mem := spDrop (inExt 1) s.stg.mem
    stg.errs := spDrop (inExt 64) s.stg.errs
    stg.poison := spDrop (inExt 64) s.stg.poison
    stg.lent := s.stg.lent.filter (fun x => decide (x ≠ e)) }

def freeExtents (es : List Nat) (s : State) : State := es.foldl (fun s e => freeExtent e s) s

/-- A requester writes a whole line, once an entry of the merge buffer for it is written back (R422). -/
def writeLine (l : Nat) (bs : List Byte) (s : State) : State := storeWhole l bs (writeBack l s)

/-- A part of a line is written by the block that owns the extent and holds no more of it: the line's standing errors and its
poison stay, since only a whole write clears poison (R410, R411). -/
def patchLine (l at' : Nat) (bs : List Byte) (s : State) : State :=
  let s := writeBack l s
  if lineValid l s then fireFlip l (setBytes (64 * l + at') bs s)
  else storeWhole l (patch (List.replicate 64 0) at' bs) s

/-- A whole-line write by a writer that holds the rest of the line (R363). -/
def writeInLine (off : Nat) (bs : List Byte) (s : State) : State :=
  let l := off / 64
  let old := if lineValid l s then lineBytes l s else List.replicate 64 0
  writeLine l (patch old (off % 64) bs) s

/-- Whole lines written from a line-aligned offset; the last line is filled with zeros (R310, R352). -/
def writeLines (off : Nat) (bs : List Byte) (s : State) : State :=
  let n := (bs.length + 63) / 64
  (List.range n).foldl (fun s i => writeLine (off / 64 + i) (slice bs (64 * i) 64) s) s

/-- Bytes written in order by the block that owns the extent: whole lines, and parts of the first and the last one. -/
def writeOwn (off : Nat) (bs : List Byte) (s : State) : State :=
  let first := off / 64
  let last := (off + bs.length + 63) / 64
  (List.range (last - first)).foldl (fun s i =>
    let l := first + i
    let lo := max off (64 * l)
    let hi := min (off + bs.length) (64 * l + 64)
    let part := (bs.drop (lo - off)).take (hi - lo)
    if hi - lo = 64 then writeLine l part s else patchLine l (lo - 64 * l) part s) s

/-- Bytes written in order over staging ranges that may begin and end inside a line. -/
def writeRanges : List (Nat × Nat) → List Byte → State → State
  | [], _, s => s
  | (o, n) :: t, bs, s => writeRanges t (bs.drop n) (writeOwn o (bs.take n) s)

/-- The staging ranges of `len` bytes laid over extents in order, 1 MiB in each. -/
def rangesOver : List Nat → Nat → List (Nat × Nat)
  | [], _ => []
  | e :: es, len => if len = 0 then [] else (e * extBytes, min len extBytes) :: rangesOver es (len - extBytes)

/-! ### Reading lines (R407 to R412) -/

/-- How a read of a line ends. -/
inductive LineOutcome where
  | ok
  /-- Uncorrectable or poisoned, in a payload line. -/
  | bad
  /-- Uncorrectable in a control region: a level-4 fault (R396). -/
  | control
  deriving DecidableEq, Repr

/-- Upsets found in line `l` join its stored errors; symbol 35 is MARK. -/
def upsetLine (l : Nat) (u : Upset) (s : State) : State :=
  if !lineValid l s then s
  else u.foldl (fun s e =>
    if e.1 ≠ l ∨ e.2.2 = 0 then s
    else if e.2.1 = 35 then { s with stg.poison := spSet 0 s.stg.poison l (spGet 0 s.stg.poison l ^^^ e.2.2.truncate 8) }
    else if e.2.1 > 34 then s
    else
      let es := spGet [] s.stg.errs l
      let p := ((es.find? (fun x => x.1 = e.2.1)).map (·.2)).getD 0 ^^^ e.2.2
      let rest := es.filter (fun x => x.1 ≠ e.2.1)
      { s with stg.errs := spSet [] s.stg.errs l (if p = 0 then rest else (e.2.1, p) :: rest) }) s

/-- A payload line found uncorrectable is poisoned, counted and recorded (R409); the stack's errors are dated (R429). -/
def ueLine (l : Nat) (s : State) : State :=
  let st := l / 4 % 4
  let s := recordLine l 2 0x3F (count 0x8408 1 (poisonLine l s))
  { s with stg.ueTimes := updN s.stg.ueTimes st (fun ts => now s :: (ts.filter (fun t => now s < t + 1000000))) }

/-- A corrected line is written back, counted and recorded (R408). -/
def corrLine (l sym : Nat) (s : State) : State :=
  let s := { s with stg.errs := spSet [] s.stg.errs l [] }
  setLeaf 6 0 (recordLine l 1 sym (count 0x8400 1 s))

/-- STG reads and decodes line `l`, finding the upsets `u` in it (R407, R412). Three or more erroneous symbols have no
guaranteed outcome: a free value says whether the line is found uncorrectable, and stays so, or decoded to other bytes. -/
def readLine (l : Nat) (u : Upset) (s : State) : List Byte × LineOutcome × State :=
  let s := upsetLine l u s
  if !lineValid l s then (List.replicate 64 0, .ok, s)
  else if spGet 0 s.stg.poison l ≠ 0 then
    if isControl l s then (List.replicate 64 0, .control, s)
    else (List.replicate 64 0, .bad, recordLine l 3 0x3F (poisonLine l s))
  else
    match spGet [] s.stg.errs l with
    | [] => (lineBytes l s, .ok, s)
    | [e] => (lineBytes l s, .ok, corrLine l e.1 s)
    | _ :: _ :: rest =>
      let f := freeValue s
      if rest ≠ [] ∧ f.1.getLsbD 0 = true then
        let other := (List.range 64).map (fun i => BitVec.ofNat 8 (Config.freeValue (f.2.free + i)).toNat)
        let s := setBytes (64 * l) other { f.2 with free := f.2.free + 64 }
        (other, .ok, corrLine l (f.1.toNat / 2 % 35) s)
      else
        let s := if rest ≠ [] then f.2 else s
        if isControl l s then (List.replicate 64 0, .control, { s with stg.errs := spSet [] s.stg.errs l ((spGet [] s.stg.errs l).take 2) })
        else (List.replicate 64 0, .bad, ueLine l s)

/-- The worse of two outcomes. -/
def worse : LineOutcome → LineOutcome → LineOutcome
  | .control, _ => .control
  | _, .control => .control
  | .bad, _ => .bad
  | _, .bad => .bad
  | .ok, .ok => .ok

/-- Bytes read from `len` bytes at `off`, the worst outcome of their lines, and the state; an entry of the merge buffer
is written back first (R422). -/
def readRange (off len : Nat) (u : Upset) (s : State) : List Byte × LineOutcome × State :=
  let first := off / 64
  let n := if len = 0 then 0 else (off + len + 63) / 64 - first
  let r := (List.range n).foldl (fun (acc : List (List Byte) × LineOutcome × State) i =>
    let x := readLine (first + i) u (writeBack (first + i) acc.2.2)
    (x.1 :: acc.1, worse acc.2.1 x.2.1, x.2.2)) ([], .ok, s)
  (((r.1.reverse.flatten).drop (off - 64 * first)).take len, r.2.1, r.2.2)

/-- Several ranges read one after another. -/
def readRanges (rs : List (Nat × Nat)) (s : State) : List Byte × LineOutcome × State :=
  rs.foldl (fun (acc : List Byte × LineOutcome × State) r =>
    let x := readRange r.1 r.2 [] acc.2.2
    (acc.1 ++ x.1, worse acc.2.1 x.2.1, x.2.2)) ([], .ok, s)

/-- More than 64 lines of one stack read uncorrectable within 1 ms (R429). -/
def stackSick (st : Nat) (s : State) : Bool :=
  decide (((s.stg.ueTimes[st]?.getD []).filter (fun t => now s < t + 1000000)).length > 64)

/-- The parts of staging ranges that cover bytes `off` to `off + len` of what they hold in order. -/
def subRanges : List (Nat × Nat) → Nat → Nat → List (Nat × Nat)
  | [], _, _ => []
  | (o, l) :: t, off, len =>
    if len = 0 then []
    else if off ≥ l then subRanges t (off - l) len
    else
      let k := min (l - off) len
      (o + off, k) :: subRanges t 0 (len - k)

/-- The extents that ranges touch. -/
def extentsOf (rs : List (Nat × Nat)) : List Nat :=
  (rs.flatMap (fun r => if r.2 = 0 then [] else
    (List.range ((r.1 + r.2 - 1) / extBytes - r.1 / extBytes + 1)).map (fun i => r.1 / extBytes + i))).eraseDups

/-! ### The tether log and its ring (R395, R396, R743 to R749, R761) -/

/-- One 16-byte unit (Table 18-1). -/
def unitOf (stamp : BitVec 48) (kind cont : Nat) (data : Nat) : BitVec 128 :=
  BitVec.ofNat 128 (stamp.toNat + 2 ^ 48 * (kind % 256) + 2 ^ 56 * (cont % 256) + 2 ^ 64 * (data % 2 ^ 64))

/-- Units the entry ring holds: T − 8 MiB of 16-byte units (R746). -/
def ringUnits (s : State) : Nat := (s.mbx.config.tetherRingMib - 8) * 65536

/-- The first line of the entry ring, behind the two anchor slots of four extents (Table 09-1, R746). -/
def ringBase : Nat := 264 * 16384

/-- Lines of the entry ring as laid out. -/
def ringLines (s : State) : Nat := (s.stg.ringExtents - 8) * 16384

/-- The `k`th line written since the ring was laid out stands in staging: its block turns valid, and a standing error or a flip
mask meets it as any whole-line write (R395, R413, R433). -/
def storeRing (s : State) (k : Nat) : State :=
  let l := ringBase + k % ringLines s
  fireFlip l { s with
    stg.valid := spSet false s.stg.valid (l / 64) true
    stg.errs := spSet [] s.stg.errs l []
    stg.poison := spSet 0 s.stg.poison l 0 }

/-- Units join the ring, newest first; the writer stores whole lines, once the ring is laid out (R743, R745, R746). -/
def pushUnits (us : List (BitVec 128)) (s : State) : State :=
  let pos := s.tether.ringPos + us.length
  let done := pos / 4 - s.tether.ringPos / 4
  let first := s.tether.ringPos / 4
  let s := count 0x8D08 us.length { s with tether.ring := (us ++ s.tether.ring).take (ringUnits s), tether.ringPos := pos }
  if s.stg.laidOut then (List.range done).foldl (fun s i => storeRing s (first + i)) s else s

/-- An entry is written, unless the writer is stopped: PAD units first when it would cross a 64-byte line (R743). -/
def logEntry (kind : Nat) (data : Nat) (conts : List Nat) (s : State) : State :=
  if s.tether.frozen || !s.tether.running then s
  else
    let n := conts.length + 1
    let at' := s.tether.ringPos % 4
    let pads := if at' + n > 4 then 4 - at' else 0
    pushUnits ((conts.reverse.map (BitVec.ofNat 128)) ++ [unitOf s.tether.stamp kind conts.length data] ++
      List.replicate pads 0) { s with tether.ringEpoch := s.tether.epoch }

/-- A word that Fjarma draws from the entropy source: a free value, recorded as ENTROPY (R498, R744; log 24). -/
def entropyWord (s : State) : BitVec 64 × State :=
  let f := freeValue s
  (f.1, logEntry 0x13 f.1.toNat [] f.2)

/-- CCLKs, of 1 ns, since the stamp read `t` (R742). -/
def stampAge (t : Nat) (s : State) : Nat := (now s + 2 ^ 48 - t) % 2 ^ 48

/-- Which of the lines written stands in staging line `l`: the last one there. -/
def ringAt (l : Nat) (s : State) : Option Nat :=
  let n := s.tether.ringPos / 4
  let i := l - ringBase
  if l < ringBase ∨ ringLines s ≤ i ∨ n ≤ i then none else some (i + (n - 1 - i) / ringLines s * ringLines s)

/-- The four units of the `k`th line, oldest first. -/
def lineUnits (k : Nat) (s : State) : List (BitVec 128) :=
  (List.range 4).map (fun i => s.tether.ring.getD (s.tether.ringPos - 1 - (4 * k + i)) 0)

/-- They take new values. -/
def setUnits (k : Nat) (us : List (BitVec 128)) (s : State) : State :=
  { s with tether.ring := us.zipIdx.foldl (fun r u => r.set (s.tether.ringPos - 1 - (4 * k + u.2)) u.1) s.tether.ring }

/-- STG reads a line of any region. A line of the entry ring is fetched from the ring's units, and what is decoded goes back to
them (R396, R407, R761). -/
def readAny (l : Nat) (u : Upset) (s : State) : LineOutcome × State :=
  match ringAt l s with
  | none => (readLine l u s).2
  | some k =>
    let old := (lineUnits k s).flatMap (fun u => leBytes 16 u.toNat)
    let r := readLine l u (setBytes (64 * l) old s)
    let t := setBytes (64 * l) (List.replicate 64 0) r.2.2
    (r.2.1, if r.2.1 = .ok ∧ r.1 ≠ old then
      setUnits k ((List.range 4).map (fun i => BitVec.ofNat 128 (leAt r.1 (16 * i) 16))) t else t)

/-- Lines from `lo` to below `hi` in which something is wrong, rising. -/
def dirtyLines (lo hi : Nat) (s : State) : List Nat :=
  ((s.stg.poison.map (·.1)).foldl (fun m l => spSet false m l true) (s.stg.errs.foldl (fun m e => spSet false m e.1 true) [])).filterMap
    (fun x => if lo ≤ x.1 ∧ x.1 < hi then some x.1 else none)

/-- Every line of the tether ring from the `a`th to below the `b`th written is read: those that are uncorrectable (R761). A line
in which nothing is wrong reads as written. -/
def sweepRing (a b : Nat) (s : State) : List Nat × State :=
  (dirtyLines ringBase (ringBase + ringLines s) s).foldl (fun (acc : List Nat × State) l =>
    match ringAt l acc.2 with
    | none => acc
    | some k =>
      if a ≤ k ∧ k < b then
        let r := readAny l [] acc.2
        (if r.1 = .ok then acc.1 else acc.1 ++ [k], r.2)
      else acc) ([], s)

/-- Staging lines of an anchor image in slot `k`: 3,149,824 bytes (R746, R747). -/
def slotLines (k : Nat) : Nat × Nat := ((256 + 4 * k) * 16384, (256 + 4 * k) * 16384 + 49216)

/-- The anchor image of slot `k` stands in staging, written whole (R395, R747). -/
def storeAnchor (k : Nat) (s : State) : State :=
  let lo := (slotLines k).1
  let inSlot := fun (l : Nat) => decide (lo ≤ l ∧ l < (slotLines k).2)
  { s with
    stg.valid := (List.range 769).foldl (fun m i => spSet false m (lo / 64 + i) true) s.stg.valid
    stg.errs := spDrop inSlot s.stg.errs
    stg.poison := spDrop inSlot s.stg.poison }

/-- The anchor image of slot `k` is read: whether a line of it is uncorrectable (R761). -/
def sweepAnchor (k : Nat) (s : State) : Bool × State :=
  (dirtyLines (slotLines k).1 (slotLines k).2 s).foldl (fun (acc : Bool × State) l =>
    let r := readAny l [] acc.2
    (acc.1 || r.1 != .ok, r.2)) (false, s)

/-- A replay break: BREAK entry, leaf and count (R760). -/
def replayBreak (reason : Nat) (s : State) : State :=
  count 0x8D10 1 (setLeaf 24 2 (logEntry 0x05 reason [] s))

/-- What a copy of the last 256 KiB of the ring leaves in the freeze buffer (R130, R749, R750); the lines of `bad` are replaced
by four BREAK units of reason LINE_UE (R761). `code` is the reset's, or 0xFF. -/
def freezeImage (bad : List Nat) (reason code : Nat) (s : State) : FreezeBuf :=
  let units := s.tether.ring.take 16384
  let units := if bad.isEmpty then units else units.zipIdx.map (fun u =>
    if bad.contains ((s.tether.ringPos - 1 - u.2) / 4) then unitOf s.tether.stamp 5 0 5 else u.1)
  let keep := s.tether.frozen && s.aon.freeze.valid
  { valid := true
    reason := if keep then s.aon.freeze.reason else BitVec.ofNat 8 reason
    resetCode := BitVec.ofNat 8 code
    boot := s.aon.resets
    epoch := s.tether.epoch
    first := (units.getLastD 0).truncate 48
    last := if keep then s.aon.freeze.last else s.tether.stamp
    version := s.boot.version
    digest8 := BitVec.ofNat 64 (leNat ((beBytes 48 (s.boot.digest.getD 0).toNat).take 8))
    units := units }

/-- The lines that a freeze copy reads: the last 16,384 units (R749). -/
def sweepCopy (s : State) : List Nat × State :=
  let n := s.tether.ringPos / 4
  sweepRing (n - 4096) n s

/-- The whole copy in one step, where no reset waits for it. -/
def freezeCopy (reason code : Nat) (s : State) : State :=
  let r := sweepCopy s
  { r.2 with aon.freeze := freezeImage r.1 reason code r.2 }

/-- The copy begins that a reset waits for: the buffer's header is valid again only when it ends (R130, R833). Each failing line
is a replay break (R760, R761). -/
def beginCopy (reason code : Nat) (s : State) : State :=
  let r := sweepCopy s
  let b := freezeImage r.1 reason code r.2
  let t : State := { r.2 with aon.copying := some { buf := b, todo := b.units.length }, aon.freeze.valid := false }
  if r.1.isEmpty then t else count 0x8D10 (4 * r.1.length) (setLeaf 24 2 t)

/-- The ring freezes: FREEZE entry, flush, copy, leaf; an anchor in progress is abandoned (R749). A ring already frozen is
only copied again; while a reset waits for its copy nothing more is copied. -/
def freezeWith (copy : Nat → Nat → State → State) (reason code : Nat) (s : State) : State :=
  if s.aon.copying.isSome then s
  else if s.tether.frozen then copy reason code s
  else
    let s := logEntry 0x04 reason [] s
    let s := if s.tether.running then pushUnits (List.replicate ((4 - s.tether.ringPos % 4) % 4) 0) s else s
    let s := copy reason code s
    setLeaf 24 0 { s with tether.frozen := true, tether.anchoring := none }

end Sys2Proof.Machine
end

