-- ==== Sys2Proof/Machine/Records.lean ====
section
/-!
DEFINITION. Records, completions, receive credits and the extents that records hold (ch01, ch07, ch08, ch14).
-/
namespace Sys2Proof.Machine
open Sys2Proof

/-! ### Completion rings (R295 to R301, R362, R363) -/

/-- Entries the CQ can still take. -/
def cqFree (m : Stream) (r : Rings) : Nat :=
  2 ^ r.cqLog - 1 - (m.cqTail.toNat + 2 ^ r.cqLog - m.cqHead.toNat) % 2 ^ r.cqLog

/-- The controller and the DMA engine work: what is outstanding completes (R220, R327, R334; Table 03-10). -/
def pcieAlive (s : State) : Bool := s.dma.enabled && !haltedSrc 1 s && !haltedSrc 2 s && !s.aon.perstLow

/-- The formatter may issue PCIe requests (R327, R334). -/
def pcieIssues (s : State) : Bool := s.pcie.bme && !s.pcie.d3 && pcieAlive s

/-- The completions a record of the stream may need (R301). -/
def cplNeed (m : Stream) : Nat := if m.staged then 2 else 1

/-- The stream's CQ has room for one more record's completions (R301). -/
def cqRoom (m : Stream) : Bool :=
  match m.rings with
  | none => false
  | some r => decide (m.reserved + cplNeed m ≤ cqFree m r)

/-- SUP can write a completion of stream `i` now: the core runs outside the safe state, the rings are attached, the CQ has
room, and the bus lets it (R51, R127, R327, R781). -/
def canPost (i : Strm) (s : State) : Bool :=
  let m := s.ing.stream[i]
  match m.rings with
  | none => false
  | some r => supRuns s && !s.faults.safe && m.state != .detached && m.state != .closed &&
      decide (cqFree m r > 0) && (r.cqStg || pcieIssues s)

/-- The 32 bytes of Table 07-3. -/
def cplBytes (c : Cpl) (phase : Bool) : List Byte :=
  leBytes 8 c.record ++ leBytes 8 c.hostTag ++ leBytes 2 c.code ++ leBytes 1 c.kind ++ leBytes 1 c.flags ++
  leBytes 2 c.sqIndex ++ leBytes 1 c.detail ++ leBytes 1 c.via ++ leBytes 4 c.storedLen ++
  leBytes 4 (if phase then 2 ^ 31 else 0)

/-- A completion entry is written at the CQ tail, one reservation is used, and CPL_RING sets (R296, R297, R363). -/
def writeCpl (i : Strm) (c : Cpl) (s : State) : State :=
  let m := s.ing.stream[i]
  match m.rings with
  | none => s
  | some r =>
    let bs := cplBytes c m.phase
    let tail := m.cqTail.toNat
    let wrap := decide (tail + 1 = 2 ^ r.cqLog)
    let s := if r.cqStg then writeInLine (0x05000000 + i.val * 0x200000 + 32 * tail) bs s
      else count 0x8208 32 (emit (.hostWrite (r.cqBase + 32 * tail) bs false false) s)
    ring 10 (modStream i (fun m => { m with
      cqTail := if wrap then 0 else m.cqTail + 1
      phase := if wrap then !m.phase else m.phase
      reserved := m.reserved - 1 }) s)

/-- Byte 0x17 and SQ_INDEX of a record's completions (Table 07-3, R362). -/
def srcVia : RecSrc → Nat
  | .sq _ => 0
  | .roce p q _ => 128 + 64 * p.val + q.val

def srcIndex : RecSrc → Nat
  | .sq i => i
  | .roce _ _ seq => seq.toNat % 65536

/-- STORED_LEN of the record's envelope (Table 12-7). -/
def storedLen (v : Rec) : Nat := (v.blocks.map (fun b => b.len + 32)).sum

/-- The FAILED completion of a refused submission (R40, R41, R361). -/
def refusal (src : RecSrc) (tag code detail : Nat) : Cpl :=
  { record := 0xFFFFFFFFFFFF, hostTag := tag, code := code, kind := 3, flags := 1, sqIndex := srcIndex src,
    detail := detail, via := srcVia src, storedLen := 0 }

def stagedCpl (v : Rec) : Cpl :=
  { record := v.number, hostTag := v.hostTag, code := 0, kind := 1, flags := 0, sqIndex := srcIndex v.src,
    detail := 0, via := srcVia v.src, storedLen := 0 }

/-- VERIFIED or FAILED, by the record's verdict (R30, R612). -/
def finalCpl (v : Rec) (code : Nat) (poison : Bool) : Cpl :=
  { record := v.number, hostTag := v.hostTag, code := code, kind := if code = 0 then 2 else 3,
    flags := if poison then 2 else 0, sqIndex := srcIndex v.src, detail := 0, via := srcVia v.src,
    storedLen := if code = 0 then storedLen v else 0 }

/-! ### Extents of records -/

/-- Some record not yet final, data set not yet ruled or stream's output still needs compressed extent `e`. -/
def extNeeded (e : Nat) (s : State) : Bool :=
  s.ing.recs.any (fun x => match x.2 with
    | some v => (v.verdict = none ∨ (v.verdict.map (·.1)) = some 0) && v.blocks.any (fun b => (extentsOf b.segs).contains e)
    | none => false) ||
  allTrn.any (fun n => s.fmt.trn[n].window.any (fun d => d.exts.contains e && !d.failed)) ||
  allStrm.any (fun i => match s.ing.stream[i].outExt with
    | some x => x.1 = e
    | none => false)

/-- Compressed, assembling and awaiting-verify extents that nothing needs any more return to free (R50, R611). -/
def collect (es : List Nat) (s : State) : State :=
  es.foldl (fun s e =>
    match ownerOf s e with
    | .compressed | .assembling | .awaiting => if extNeeded e s then s else freeExtent e s
    | _ => s) s

/-- Every extent outside ingest, restore and tether that holds compressed data. -/
def dataExtents (s : State) : List Nat :=
  s.stg.owner.filterMap (fun x => match x.2 with
    | .compressed | .assembling | .awaiting => some x.1
    | _ => none)

/-! ### Receive credits (R364, R373) -/

/-- The cap on combined acceptance, in bytes in a CCLK of 1 ns; lower under the throttle (R43, R378, Table 17-3). -/
def acceptCap (s : State) : Nat := if s.therm.throttle then 70 else 140

/-- Bytes accepted over either pipe, or brought in by a host channel, count toward the cap (R43, R323; log 187). -/
def countAccepted (n : Nat) (s : State) : State := { s with ing.debt := s.ing.debt + n }

/-- One CCLK of the cap goes by (R43, R378). -/
def acceptTick (s : State) : State := { s with ing.debt := s.ing.debt - acceptCap s }

/-- Combined acceptance stands at its cap: more was accepted than the cap let through, by the room that the rate's
measure leaves (Table 08-5; log 187, DESIGN CHOICE). -/
def rateHold (s : State) : Bool := decide (s.rateRoom < s.ing.debt)

/-- A hold of Table 08-5 is in force: rate, descriptors or high water. -/
def holdInForce (s : State) : Bool := rateHold s || decide (s.ing.recs.length ≥ 262144) || highWater s

/-! ### Reads that the DMA engine issues (R300, R301, R303, R307, R315, R327) -/

/-- SQ entries ready on the stream. -/
def sqReady (m : Stream) : Nat := match m.rings with
  | some r => if r.hasSq then (m.sqTail.toNat + 2 ^ r.sqLog - m.sqHead.toNat) % 2 ^ r.sqLog else 0
  | none => 0

/-- The most entries a batch of the stream may have: 8, the ready ones, those before the ring's end, and those whose
completions the CQ has room for (R300, R301). -/
def batchLimit (m : Stream) : Nat := match m.rings with
  | none => 0
  | some r => min (min 8 (sqReady m)) (min (2 ^ r.sqLog - m.sqHead.toNat) ((cqFree m r - m.reserved) / cplNeed m))

/-- SQ entries of the stream may be pulled (R44, R300, R301, R327, R401). -/
def pullable (i : Strm) (s : State) : Bool :=
  let m := s.ing.stream[i]
  m.rings.isSome && m.state != .detached && s.ing.enabled && supRuns s && pcieIssues s && decide (0 < batchLimit m) &&
    !holdInForce s

/-- The next SQ pull is issued, of the stream next in turn among those that have entries to pull (R300). -/
def issueSq (s : State) : State :=
  if s.dma.sqOut.isSome then s
  else match (roundFrom s.ing.turn).find? (fun i => pullable i s) with
    | none => s
    | some i => { s with dma.sqOut := some (i, batchLimit s.ing.stream[i]), ing.turn := i.val }

/-- The payload reads of the stream's pulled entries are issued, with Relaxed Ordering where the host enables it (R303,
R307). -/
def issuePayloads (i : Strm) (s : State) : State :=
  let due := s.ing.stream[i].pulls.filter (fun p => !p.asked && p.refused.isNone)
  if due.isEmpty then s
  else due.foldl (fun s p => emit (.hostRead p.addr p.len s.pcie.roEn false) s)
    (modStream i (fun m => { m with pulls := m.pulls.map (fun p => { p with asked := p.asked || p.refused.isNone }) }) s)

/-- The channel has a descriptor to fetch (R314, R315, R339). -/
def fetchable (h : HostChan) (s : State) : Bool :=
  h.enable && !h.halted && h.desc.isNone && !h.fetching && h.head != h.tail && s.dma.shareRd != 0

/-- The attributes a descriptor's data requests carry: those that CTRL asks for and the host enables (R307). -/
def descRo (d : BitVec 256) (s : State) : Bool := d.getLsbD 163 && s.pcie.roEn
def descNs (d : BitVec 256) (s : State) : Bool := d.getLsbD 164 && s.pcie.nsEn

/-- A host channel's reads are issued: a descriptor fetch, which latches the descriptor's place, or a descriptor's data
(R307, R315, R324, R339). -/
def issueChan (c : Fin 8) (s : State) : State :=
  let h := s.dma.chan[c]
  if fetchable h s then
    let a := h.ringLo.toNat + 2 ^ 32 * h.ringHi.toNat + 32 * h.head.toNat
    emit (.hostRead a 32 false false) { s with dma.chan := upd s.dma.chan c (fun h => { h with fetching := true, place := a }) }
  else match h.desc with
    | some d => if h.asked || d.getLsbD 160 || s.dma.shareRd = 0 then s
        else emit (.hostRead (field d 0 64) (field d 128 25) (descRo d s) (descNs d s))
          { s with dma.chan := upd s.dma.chan c (fun h => { h with asked := true }) }
    | none => s

/-- Every read that may go out does, while requests may be issued. -/
def issueReads (s : State) : State :=
  if !pcieIssues s then s
  else issueSq ((List.finRange 8).foldl (fun s c => issueChan c s) (allStrm.foldl (fun s i => issuePayloads i s) s))

/-- Receive buffers of a queue pair. -/
def qpBuffers (q : Qp) : Nat :=
  match q.form with
  | .w => q.depth
  | .s => if q.slot = 0 then 0 else q.mib * extBytes / q.slot
  | .r => 0

/-- Buffers in use: records landed and not released, and the message that took one. -/
def qpUsed (q : Qp) : Nat := q.footprints.length + (match q.msg with
  | some m => b2n m.credited
  | none => 0)

/-- Buffers are posted while R364 lets them, each reserving its record's completions. -/
def postBuffersQp (p : Port) (i : Fin 64) : Nat → State → State
  | 0, s => s
  | fuel + 1, s =>
    match s.net.port[p].qp[i] with
    | none => s
    | some q =>
      let m := s.ing.stream[q.stream]
      if q.state = .rts ∧ q.credits + qpUsed q < qpBuffers q ∧ cqRoom m = true ∧ holdInForce s = false then
        postBuffersQp p i fuel
          (modStream q.stream (fun m => { m with reserved := m.reserved + cplNeed m })
            (modPort p (fun e => { e with qp := upd e.qp i (fun o => o.map (fun q => { q with credits := q.credits + 1 })) }) s))
      else s

/-- Every queue pair posts the buffers it may (R364). -/
def postBuffers (s : State) : State :=
  (List.finRange 2).foldl (fun s p => (List.finRange 64).foldl (fun s i =>
    match s.net.port[p].qp[i] with
    | none => s
    | some q => postBuffersQp p i (qpBuffers q) s) s) s

/-- Footprints with the one at `start` marked, the released ones at the front dropped. -/
def dropReleased (start : Nat) (fs : List Footprint) : List Footprint :=
  let marked := fs.map (fun f => if f.start = start then { f with released := true } else f)
  marked.dropWhile (fun f => f.released)

/-- A queue pair changed, where it exists. -/
def modQp (p : Port) (i : Fin 64) (f : Qp → Qp) (s : State) : State :=
  modPort p (fun e => { e with qp := upd e.qp i (fun o => o.map f) }) s

/-- A record's footprint is released, in the order filled (R353). -/
def releaseFootprint (p : Port) (i : Fin 64) (start : Nat) (s : State) : State :=
  postBuffers (modQp p i (fun q => { q with footprints := dropReleased start q.footprints }) s)

/-- Partition offset of a RoCE record's landing header. -/
def headerOffset (q : Qp) (v : Rec) : Nat := ((v.segs.head?.map (·.1)).getD 0) - q.base * extBytes - 64

/-- The block is still to be coded. -/
def uncoded (b : Blk) : Bool := b.st == .waiting || b.st == .inEngine

/-- Landing ranges of a record, its header included, while its blocks are not all coded. -/
def landingRanges (v : Rec) : List (Nat × Nat) :=
  match v.src with
  | .sq _ => []
  | .roce _ _ _ =>
    if v.verdict.isNone && v.blocks.any uncoded then
      v.segs.map (fun r => (r.1 - 64, r.2 + 64))
    else []

/-- A record whose QP ceased to exist at a port's recovery is released: the extents it landed in that no other such record
needs return to free (R384). -/
def releaseOrphan (v : Rec) (s : State) : State :=
  let others := s.ing.recs.flatMap (fun x => match x.2 with
    | some r => if r.stream = v.stream ∧ r.number = v.number then [] else extentsOf (landingRanges r)
    | none => [])
  freeExtents ((extentsOf (v.segs.map (fun r => (r.1 - 64, r.2 + 64)))).filter (fun e =>
    ownerOf s e = .ingest && !others.contains e)) s

/-- The profile of a stream (R598). -/
def profileOf (i : Strm) (s : State) : Profile := (getN s.cmp.profile s.ing.stream[i].profile none).getD profile0

/-- Staging ranges of the original bytes of a record's block `k` (R438). -/
def blockRanges (p : Profile) (v : Rec) (k : Nat) : List (Nat × Nat) :=
  subRanges v.segs (k * blockBytes p) (min (blockBytes p) (v.origLen - k * blockBytes p))

/-- Source extents that hold bytes of a block still to be coded (ch01, Compression). -/
def heldSource (p : Profile) (v : Rec) : List Nat :=
  (v.blocks.zipIdx.flatMap (fun b => if uncoded b.1 then extentsOf (blockRanges p v b.2) else [])).eraseDups

/-- The record's source space is given back: its ingest extents, or its footprint (Table 09-3, R353). -/
def releaseSource (v : Rec) (s : State) : State :=
  match v.src with
  | .sq _ => freeExtents ((heldSource (profileOf v.stream s) v).filter (fun e => ownerOf s e = .ingest)) s
  | .roce p i _ =>
    let e := ((v.segs.head?.map (·.1)).getD 0) / extBytes
    match s.net.port[p].qp[i] with
    | none => releaseOrphan v s
    | some q => if q.base ≤ e ∧ e < q.base + q.mib then releaseFootprint p i (headerOffset q v) s else releaseOrphan v s

/-! ### Verdicts and final completions -/

/-- Descriptors of `rs` in record-number order, stream by stream (R612). -/
def inOrder (rs : List Nat) (s : State) : List Nat :=
  (allStrm.flatMap (fun i => s.ing.stream[i].order)).filter (fun r => rs.contains r)

/-- The record's verdict is `code`: it is final, and SUP holds it (R33, R612). -/
def setVerdict (r code : Nat) (poison : Bool) (s : State) : State :=
  modRec r (fun v => { v with verdict := some (code, poison), holder := .sup })
    { s with ing.finals := s.ing.finals ++ [r] }

/-- Blocks of a failed record that engines and units hold are finished and discarded: they are no descriptor's any more
(R463). -/
def orphanJobs (r : Nat) (s : State) : State :=
  { s with
    cmp.engine := s.cmp.engine.map (fun e => match e.job with
      | some (.code x k) => if x = r then { e with job := some (.code 262144 k) } else e
      | _ => e)
    cip.unit := s.cip.unit.map (fun u => match u.job with
      | some (.encrypt x k) => if x = r then { u with job := some (.encrypt 262144 k) } else u
      | some (.again x k) => if x = r then { u with job := some (.again 262144 k) } else u
      | _ => u)
    cip.again := s.cip.again.filter (fun a => decide (a.1 ≠ r)) }

/-- The record's verdict is FAILED with `code` (R50); one verdict stands, and the record's landing space is given back. -/
def failRec (r code : Nat) (poison : Bool) (s : State) : State :=
  match getRec r s with
  | none => s
  | some v =>
    if v.verdict.isSome then s
    else
      let s := orphanJobs r (setVerdict r code poison s)
      let s := if v.blocks.any uncoded then releaseSource v s else s
      collect (extentsOf (v.blocks.flatMap (·.segs))) s

def failRecs (rs : List Nat) (code : Nat) (poison : Bool) (s : State) : State :=
  (inOrder rs s).foldl (fun s r => failRec r code poison s) s

/-- The descriptor is owed to a fault whose handling is not done (R832). -/
def owedToFault (r : Nat) (s : State) : Bool :=
  (s.faults.queue ++ s.faults.suspended ++ s.faults.inHand.toList).any (fun f => f.owes.contains r)

/-- The record's final completion is posted with these FLAGS beside its own: entry, book, descriptor (R30, R38, R39,
R612). -/
def postFinalAs (flags r : Nat) (s : State) : State :=
  match getRec r s with
  | none => s
  | some v =>
    match v.verdict with
    | none => s
    | some (code, poison) =>
      let c := finalCpl v code poison
      let s := writeCpl v.stream { c with flags := c.flags + flags } s
      let s := modStream v.stream (fun m => { m with
        order := m.order.filter (fun x => decide (x ≠ r))
        verified := if code = 0 then m.verified + 1 else m.verified
        poisoned := if code ≠ 0 ∧ poison = true then m.poisoned + 1 else m.poisoned
        rejected := if code ≠ 0 ∧ poison = false then m.rejected + 1 else m.rejected }) s
      let late := match v.entered with
        | some (t, n) => if code = 0 ∧ v.lateExempt = false ∧ now s > t + 5000000 then some n else none
        | none => none
      let s := setRec r none { s with ing.finals := s.ing.finals.filter (fun x => decide (x ≠ r)) }
      let s := collect (extentsOf (v.blocks.flatMap (·.segs))) s
      match late with
      | some n => count 0x8928 1 (setTrnLeaf n 3 3 s)
      | none => s

/-- The record's final completion is posted (R612). -/
def postFinal (r : Nat) (s : State) : State := postFinalAs 0 r s

/-- Held completions go out with FLAGS.HELD, oldest first, as far as the ring has room; a key above the descriptors'
numbers belongs to a refused entry (R127, R636). -/
def postHeld (i : Strm) : Nat → State → State
  | 0, s => s
  | fuel + 1, s =>
    match s.ing.stream[i].held with
    | [] => s
    | (r, c) :: rest =>
      if !canPost i s then s
      else
        let s := modStream i (fun m => { m with held := rest }) s
        postHeld i fuel (if c.flags % 2 = 0 ∧ c.kind ≠ 1 then postFinalAs 4 r s else writeCpl i { c with flags := c.flags + 4 } s)

/-- A completion waits on its stream while the stream is DETACHED (R127); HELD sets when it is posted. -/
def holdCpl (r : Nat) (c : Cpl) (i : Strm) (s : State) : State :=
  modStream i (fun m => { m with held := m.held ++ [(r, c)] }) s

/-- No record of the stream became final before `r` and is still to be posted (R33). -/
def firstFinal (r : Nat) (i : Strm) (s : State) : Bool :=
  s.ing.finals.find? (fun x => match getRec x s with
    | some v => decide (v.stream = i)
    | none => false) == some r

/-- The verdict is posted, or held on a DETACHED stream, once its STAGED completion is out (R33, R46, R127). -/
def tryFinal (r : Nat) (s : State) : State :=
  match getRec r s with
  | none => s
  | some v =>
    match v.verdict with
    | none => s
    | some (code, poison) =>
      if v.stagedDue || !firstFinal r v.stream s then s
      else if s.ing.stream[v.stream].state = .detached then
        holdCpl r (finalCpl v code poison) v.stream { s with ing.finals := s.ing.finals.filter (fun x => decide (x ≠ r)) }
      else if canPost v.stream s && s.ing.stream[v.stream].held.isEmpty then postFinal r s
      else s

/-- Records of the stream before `r` in record-number order that still owe their STAGED completion (R32). -/
def stagedBefore (m : Stream) (r : Nat) (s : State) : Bool :=
  (m.order.takeWhile (fun x => decide (x ≠ r))).any (fun x => match getRec x s with
    | some v => v.stagedDue
    | none => false)

end Sys2Proof.Machine
end

