-- ==== Sys2Proof/Machine/Fault.lean ====
section
/-!
DEFINITION. Resets, fault levels, lost transports, halted blocks and safe-state entry (ch03 Table 03-7, ch05, R273, R274,
R585, R632, R633).
-/
namespace Sys2Proof.Machine
open Sys2Proof

/-! ### Resets (R121, R122, R129 to R133) -/

/-- Something still holds the formatter in reset. -/
def resetHeld (s : State) : Bool :=
  s.aon.resetLow || s.aon.vaonLow || s.aon.vaonDown || s.aon.vcoreLow || s.aon.refclkLost || (match s.nv.phase with
    | .row _ _ => true
    | _ => false)

/-- What every reset of PD_SUP leaves: PD_AON, the fuse rows, the TAP and debug module, and the model's own queue, trace,
free-value count and rate measure stay; everything else takes its reset value (R52, R132, R275, R794). -/
def clearDomains (s : State) : State :=
  { pending := s.pending, out := s.out, free := s.free, rateRoom := s.rateRoom, aon := s.aon, dm := s.dm,
    nv := { rows := s.nv.rows, phase := (match s.nv.phase with
              | .row op r => .row { op with ticket := none } r
              | _ => .idle), bootLife := s.nv.bootLife } }

/-- The switched domains are reset, and boot follows once nothing holds the reset (R129, R794). -/
def resetDomains (s : State) : State :=
  let s := { clearDomains s with dm.haltDue := s.dm.haltDue || s.dm.resetHalt }
  { s with boot.phase := if resetHeld s then .held else .pll }

/-- A brownout abandons a fuse row uncommitted (R122). -/
def abandonRow (code : Nat) (s : State) : State :=
  if code = 2 ∨ code = 3 then { s with nv.phase := (.idle : NvPhase) } else s

/-- A source that asserts while a reset is held, or while its freeze copy runs, shows in ALSO, unless CAUSE holds it
(R121, R833). -/
def noteAlso (code : Nat) (s : State) : State :=
  if s.aon.cause = BitVec.ofNat 4 code then s else { s with aon.also := setBit s.aon.also code }

/-- A freeze copy is cut off: the buffer holds no valid header, and of its old units those not yet overwritten (R833). -/
def cutCopy (s : State) : State :=
  match s.aon.copying with
  | none => s
  | some j => { s with
      aon.copying := none
      aon.freeze := { s.aon.freeze with
        valid := false
        units := s.aon.freeze.units.take (s.aon.freeze.units.length + j.todo - j.buf.units.length) ++
          j.buf.units.drop j.todo } }

/-- FAULT_LAST as Table 05-14 has it; a level-3 fault leaves a level-4 one standing (R234). -/
def writeFaultLast (lvl src : Nat) (leaf : BitVec 8) (s : State) : State :=
  if lvl = 3 ∧ field s.aon.faultLast 0 3 = 4 then s
  else { s with aon.faultLast := pack [(31, 1), (8, leaf.toNat), (3, src), (0, lvl)] }

/-- The formatter resets as source `code` of Table 03-7: sources 0x6 to 0x9 copy the ring first (R130). While a reset is
held, or its copy runs, the source shows in ALSO, as a level-4 fault does that the copy itself meets (R396); a brownout, REFCLK loss or a lost PLL cuts the copy off (R121, R122,
R833). -/
def enterReset (code detail : Nat) (s : State) : State :=
  if s.boot.phase = .held then abandonRow code (noteAlso code s)
  else if s.boot.phase = .copying then
    let s := abandonRow code (noteAlso code s)
    if 2 ≤ code ∧ code ≤ 5 then resetDomains (cutCopy s) else s
  else
    let copy := decide (6 ≤ code ∧ code ≤ 9)
    let s := if copy then freezeWith beginCopy code code s else s
    let s := { s with aon := { s.aon with
      cause := BitVec.ofNat 4 code, also := 0, detail := BitVec.ofNat 8 detail, resets := satInc s.aon.resets
      wakeN := false, wakeLate := false } }
    let s := abandonRow code s
    if copy then
      let s := { s with
        boot.phase := .copying, power.standbyAcked := false, mbx.resetDue := false, dbg.wdArmed := false }
      if (sweepCopy s).1.isEmpty || code == 7 then s else noteAlso 7 (writeFaultLast 4 6 (leafCode 0 7) s)
    else resetDomains s

/-- The freeze copy that a reset waits for moves on by a line; when it has ended its header is valid, and the switched
domains are reset (R130, R833; log 33). -/
def copyTick (s : State) : State :=
  match s.aon.copying with
  | none => s
  | some j =>
    if j.todo ≤ 4 then resetDomains { s with aon.copying := none, aon.freeze := j.buf }
    else { s with aon.copying := some { j with todo := j.todo - 4 } }

/-! ### Fault records (R225 to R234, R286) -/

/-- A level-4 fault: FAULT_LAST, and an immediate reset as source 0x7 (R217, R229, R234). -/
def raise4 (src : Nat) (leaf : BitVec 8) (s : State) : State := enterReset 7 src (writeFaultLast 4 src leaf s)

/-- The ring freezes with no reset to follow; an uncorrectable line that its copy reads is a level-4 fault (R396, R749, R761). -/
def freeze (reason code : Nat) (s : State) : State :=
  let t := freezeWith freezeCopy reason code s
  if t.aon.copying.isNone && !(sweepCopy t).1.isEmpty then raise4 6 (leafCode 0 7) t else t

/-- The fault log is full (R264). -/
def logFull (s : State) : Bool := decide (s.faults.log.length ≥ 65536)

/-- A log entry is appended (R286); a full log takes no more, and PENDING_OVF sets (R264). -/
def appendLog (f : FaultRec) (unhandled : Bool) (s : State) : State :=
  if logFull s then setLeaf 26 2 s
  else { s with
    faults.log := s.faults.log ++ [{ index := s.faults.nextLog, flt := f, unhandled := unhandled }]
    faults.nextLog := s.faults.nextLog + 1 }

/-- FAULT_PENDING before saturation: faults queued or suspended (R227, R228). -/
def pendingCount (s : State) : Nat := s.faults.queue.length + s.faults.suspended.length

/-! ### Restore requests that end early -/

def findReq (t : Nat) (s : State) : Option Request := s.rst.reqs.find? (fun q => q.ticket = t)

def modReq (t : Nat) (f : Request → Request) (s : State) : State :=
  { s with rst.reqs := s.rst.reqs.map (fun q => if q.ticket = t then f q else q) }

/-- W2 to W6 of a request's completion slot (R712). -/
def reqWords (q : Request) : List Word :=
  let off := (q.lent.map (fun l => l.1 * extBytes)).getD 0
  [pack [(0, q.verdict.toNat), (8, q.ladder), (16, q.sets)], BitVec.ofNat 32 q.delivered,
   BitVec.ofNat 32 ((q.env.map (·.origLen)).getD 0), BitVec.ofNat 32 off, BitVec.ofNat 32 (off / 2 ^ 32)]

/-- A request that TRN_n is to read for. -/
def reads (n : Trn) (q : Request) : Bool :=
  q.code.isNone && (match q.todo with
    | (k, _) :: _ => decide (k = n.val)
    | [] => false)

/-- Some request or scan needs TRN_n. -/
def needsTrn (n : Trn) (s : State) : Bool := s.rst.trn[n].scan.isSome || s.rst.reqs.any (reads n)

/-- Nothing is on TRN_n's retry ladder any more; its cache and its samples return to free (R698; log 194). -/
def clearLadder (n : Trn) (s : State) : State :=
  let es := s.rst.trn[n].cacheExts ++ s.rst.trn[n].sampleExts
  freeExtents es (modRst n (fun r => { r with
    retrying := false, held := [], sweep := none, cache := [], cacheExts := [], sampleExts := [] }) s)

/-- A reading transport that no request needs stops where it is (R680). -/
def stopIdle (n : Trn) (s : State) : State :=
  if needsTrn n s || s.trn[n].loading.isSome then s
  else
    let s := clearLadder n s
    if s.rst.trn[n].reading then
      modRst n (fun r => { r with reading := false })
        (sendMotion n 255 (decide (s.trn[n].wrap % 2 = 1)) s.trn[n].accel s)
    else s

/-- The request leaves the pipeline: its lending has no writer any more, its working extents return to free, and engines
and units drop its block. -/
def removeReq (t : Nat) (s : State) : State :=
  let es := (s.rst.reqs.filter (fun q => decide (q.ticket = t))).flatMap (·.exts)
  let s := freeExtents es { s with
    rst.reqs := s.rst.reqs.filter (fun q => decide (q.ticket ≠ t))
    rst.lent := s.rst.lent.map (fun l => if l.2.2 = some t then (l.1, l.2.1, none) else l)
    cmp.engine := s.cmp.engine.map (fun e => if e.job = some (.decode t) then { e with job := none } else e)
    cip.unit := s.cip.unit.map (fun u => if u.job = some (.decrypt t) then { u with job := none } else u) }
  allTrn.foldl (fun s n => stopIdle n s) s

/-- Indexing and rebuilding on TRN_n are over. -/
def dropScan (n : Trn) (s : State) : State := stopIdle n (modRst n (fun r => { r with scan := none, scans := [] }) s)

/-- The request ends with `code` and PARTIAL (R694, R703 to R707); `w2` overrides W2 where R273 asks for it. -/
def abortReq (code : Nat) (w2 : Option Word) (q : Request) (s : State) : State :=
  let q := { q with verdict := q.verdict ||| 8 }
  let ws := match w2 with
    | some w => w :: (reqWords q).drop 1
    | none => reqWords q
  completeTicket q.ticket code ws (removeReq q.ticket s)

def abortReqs (p : Request → Bool) (code : Nat) (w2 : Option Word) (s : State) : State :=
  (s.rst.reqs.filter p).foldl (fun s q => abortReq code w2 q s) s

/-! ### Stopping transports -/

/-- Some data set is being written, or a row is held open. -/
def writingDs (n : Trn) (s : State) : Bool := s.fmt.trn[n].cur.isSome

/-- The wrap runs in reverse (R526). -/
def wrapRev (w : Nat) : Bool := decide (w % 2 = 1)

/-- The acceleration that GOV commands TRN_n: the lowest ACCEL among the members of its group as last formed (R644). -/
def memberAccel (n : Trn) (s : State) : Nat :=
  allTrn.foldl (fun a k => if s.gov.mem[n].group.getLsbD k.val then min a s.trn[k].accel else a) s.trn[n].accel

/-- WRITE_GATE off and MOTION stop, at the group's acceleration; GOV shows it stopping (R644, R653 step 2). -/
def stopMember (n : Trn) (s : State) : State :=
  let s := sendMotion n 255 (wrapRev s.trn[n].wrap) (memberAccel n s) (gateOff n s)
  modGov n (fun g => { g with code := 255, state := .stopping, stopDue := false, restartDue := false, locating := false, parked := false }) s

/-- The stop at a data-set boundary: the lead-out, then the gate and MOTION (R549, R653 steps 2 and 3). -/
def leadOutStop (n : Trn) (s : State) : State :=
  stopMember n (modGov n (fun g => { g with stopLpos := s.trn[n].lpos })
    (if s.trn[n].gate then sendLead .leadOut n s else s))

/-- A stop falls due: at once when no data set is in progress, else its data set closes short and it stops at the
boundary (R606, R653, R657). -/
def stopAtBoundary (n : Trn) (s : State) : State :=
  if s.trn[n].motion = 0 then modGov n (fun g => { g with stopDue := false }) s
  else if writingDs n s then
    modFmt n (fun f => { f with closing := true }) (modGov n (fun g => { g with stopDue := true }) s)
  else leadOutStop n s

/-- That transport's downlinks go to electrical idle and its SYSREF stops (Table 05-5 step 4). -/
def idleDownlinks (n : Trn) (s : State) : State :=
  modTrn n (fun t => { t with downlink := false, sysref := false, gate := false, wait0 := 0, wait1 := 0 }) (drainCtl n s)

/-- No stream has a data set open on TRN_n any more. -/
def dropOpen (n : Trn) (s : State) : State :=
  allStrm.foldl (fun s i => match s.ing.stream[i].openDs with
    | some (k, _) => if k = n.val then modStream i (fun m => { m with openDs := none }) s else s
    | none => s) s

/-- FMT's working state for a cartridge whose writing session ends without a manifest; data sets that `keep` names stay
until their rows are ruled (R585, R632). -/
def dropSession (n : Trn) (keep : FmtTrn → DataSet → Bool) (s : State) : State :=
  let f := s.fmt.trn[n]
  let es := (f.window.filter (fun d => !keep f d)).flatMap (·.exts)
  let s := modFmt n (fun f => { f with
    window := f.window.filter (keep f)
    unruled := f.unruled.filter (fun u => f.window.any (fun d => decide (d.dsn = u.1) && keep f d))
    cur := none, rowOpen := false, closing := false, copyDue := [], tailsDue := 0, members := 0
    tail14 := [], tail15 := [], session := none, windowHold := false, offTrack := false }) s
  collect es (dropOpen n s)

/-- The data set has rows written that VRF has not ruled on. -/
def hasUnruled (f : FmtTrn) (d : DataSet) : Bool := f.unruled.any (fun u => decide (u.1 = d.dsn))

/-- Records with bytes in a data set issued to TRN_n that has no verdict (R585). -/
def recsOnTrn (n : Trn) (s : State) : List Nat :=
  recsWhere (fun v => v.verdict.isNone && v.pieces.any (fun p =>
    decide (p.trn = n.val) && s.fmt.trn[n].window.any (fun d => decide (d.dsn = p.dsn)))) s

/-- Long commands that drive TRN_n's load, unload or link. -/
def trnWork (n : Trn) : LongOp → Bool
  | .load m _ => m = n
  | .unload m => m = n
  | .index m => m = n
  | .rebuild m _ => m = n
  | _ => false

/-- The reading of TRN_n's cartridge ends: its requests with E_MEDIA, its index, its scan and the extents they held go
(R706, R709). -/
def dropReading (n : Trn) (s : State) : State :=
  let s := abortReqs (fun q => decide (q.trn = n) || q.todo.any (fun p => decide (p.1 = n.val))) rMedia none s
  let es := s.rst.trn[n].extents
  let s := modTrn n (fun t => { t with loaded := if t.loaded = .reading then .nothing else t.loaded }) s
  freeExtents es (modRst n (fun r => { r with
    index := none, scan := none, scans := [], reading := false, extents := [] }) (clearLadder n s))

/-- The transport is lost: gate off, MOTION stop, DEGRADED; the records of R585 fail with `code`, the session ends
without a manifest; a reading transport's requests end with E_MEDIA and its index goes (R585, R706). Answers the records
it fails. -/
def loseTransport (n : Trn) (code : Nat) (s : State) : List Nat × State :=
  let owes := recsOnTrn n s
  let s := failRecs owes code false s
  let s := stopMember n s
  let s := dropSession n (fun _ _ => false) s
  let s := modTrn n (fun t => { t with degraded := true, loading := none, unloading := none }) s
  let s := completeWhere (trnWork n) rMedia [] s
  let s := dropReading n s
  (owes, ring 14 s)

/-! ### Ends of long commands that no event of their own brings (R273, R274) -/

/-- A running export ends with a code and its completion's words; its lending has no writer any more (R762, R765). -/
def endExport (code : Nat) (ws : List Word) (s : State) : State :=
  match s.tether.exporting with
  | none => s
  | some e =>
    setLeaf 24 1 (completeTicket e.ticket code ws { s with
      tether.exporting := none
      rst.lent := s.rst.lent.map (fun l => if l.2.2 = some e.ticket then (l.1, l.2.1, none) else l) })

/-- What drives a long command forgets a ticket that is no longer in flight: flushes and closes, QP destroys, loads, unloads
and link commands. -/
def syncTickets (s : State) : State :=
  let live (t : Nat) : Bool := inFlight t s
  { s with
    ing.stream := s.ing.stream.map (fun m => { m with
      flushes := m.flushes.filter (fun f => live f.1), closeTicket := m.closeTicket.filter live })
    net.port := s.net.port.map (fun e => { e with qp := e.qp.map (fun o => o.map (fun q => { q with
      ticket := q.ticket.filter live })) })
    trn := s.trn.map (fun t => { t with
      loading := t.loading.filter (fun l => live l.ticket), unloading := t.unloading.filter (fun u => live u.1)
      linkTicket := t.linkTicket.filter live }) }

/-! ### Level-2 halts (R220, R273, R632, R633, R668, R707) -/

/-- Records that block `src` holds (R22, Table 01-2; R464, R632, R633): CMP and CIP from the first block they took, FMT from
the first byte placed, VRF while rows are not ruled. Records that only wait for the block go on after recovery (R222). -/
def heldBy (src : Nat) (s : State) : List Nat :=
  recsWhere (fun v => v.verdict.isNone && (match src with
    | 7 => v.holder = .cmp
    | 8 => v.holder = .cip && v.blocks.any (fun b => b.st = .inUnit ∨ b.st = .encrypted)
    | 10 => v.holder = .fmt && decide (0 < v.placed)
    | 19 => v.holder = .vrf || !v.rowsDue.isEmpty
    | _ => false)) s

/-- The long commands that a block drives (R273; log 82). -/
def blockWork (src : Nat) : LongOp → Bool
  | .portEnable p => decide (src = 3 + p.val)
  | .portDisable p => decide (src = 3 + p.val)
  | .qpDestroy p _ => decide (src = 3 + p.val ∨ src = 5)
  | .loopOn t => decide (src = 3 + (t - 8) ∧ 8 ≤ t ∨ src = 11 + t ∧ t < 8)
  | .loopOff t => decide (src = 3 + (t - 8) ∧ 8 ≤ t ∨ src = 11 + t ∧ t < 8)
  | .kat u => decide (src = 7 ∧ u < 16 ∨ src = 8 ∧ 16 ≤ u)
  | .keyClear _ _ => decide (src = 8 ∨ src = 9)
  | .nvRow => decide (src = 9)
  | .linkStart n => decide (src = 11 + n.val)
  | .linkStop n => decide (src = 11 + n.val)
  | .flush _ => [7, 8, 10, 19].contains src
  | .close _ => [7, 8, 10, 19].contains src
  | .load n w => decide (src = 11 + n.val) || (w && decide (src = 10 ∨ src = 19))
  | .unload n => decide (src = 11 + n.val ∨ src = 10)
  | .index n => decide (src = 11 + n.val ∨ src = 19)
  | .rebuild n _ => decide (src = 11 + n.val ∨ src = 19)
  | _ => false

/-- Fuse changes that wait or have not started are dropped; a row under way goes on with no command to complete (R494). -/
def dropNv (s : State) : State :=
  { s with
    nv.queue := []
    nv.phase := match s.nv.phase with
      | .row op r => .row { op with ticket := none } r
      | _ => .idle }

/-- The halt of the block of summary source `blk`: its own actions, the records it holds, and the long commands it drives.
Answers the records failed. -/
def haltBlock (blk : Nat) (s : State) : List Nat × State :=
  let s := { s with faults.halted := setBit s.faults.halted blk }
  let owes := if h : 11 ≤ blk ∧ blk < 19 then recsOnTrn ⟨blk - 11, by omega⟩ s else heldBy blk s
  let s := failRecs owes rFault false s
  let s := match blk with
    | 6 => { s with stg.scrubbing := false }
    | 9 => dropNv s
    | 7 => { s with cmp.engine := s.cmp.engine.map (fun e => { e with job := none, katDue := false, kat := false }) }
    | 8 => { s with cip.unit := s.cip.unit.map (fun u => { u with job := none }) }
    | 10 => allTrn.foldl (fun s n => if s.trn[n].loaded = .writing then
        let s := if s.trn[n].motion = 0 then gateOff n s else stopMember n s
        modTrn n (fun t => { t with loaded := .nothing }) (dropSession n hasUnruled s) else s) s
    | 19 => allTrn.foldl (fun s n =>
        let s := stopAtBoundary n s
        let es := s.fmt.trn[n].window.flatMap (·.exts)
        collect es (modFmt n (fun f => { f with
          window := (f.window.filter (fun d => some d.dsn = f.cur)).map (fun d => { d with failed := true })
          copyDue := [], unruled := [] }) s)) s
    | 20 => allTrn.foldl (fun s n => if s.gov.mem[n].state = .running ∨ s.gov.mem[n].state = .restarting then
        stopAtBoundary n s else s) s
    | k => if h : 11 ≤ k ∧ k < 19 then
        let n : Trn := ⟨k - 11, by omega⟩
        modTrn n (fun t => { t with
            port := if t.port = .starting then .idle else t.port, degraded := true, loading := none, unloading := none })
          (idleDownlinks n (dropSession n (fun _ _ => false) (gateOff n s)))
      else s
  let s := match blk with
    | 7 => abortReqs (fun q => !q.rawItem) rFault (some 7) s
    | 8 => abortReqs (fun q => !q.rawItem) rFault (some 8) s
    | 19 => abortReqs (fun _ => true) rFault (some 19) s
    | k => abortReqs (fun q => decide (k = 11 + q.trn.val) || q.todo.any (fun p => decide (k = 11 + p.1)) ||
          (decide (k = 1 ∨ k = 2) && decide (q.output = 0)) ||
          (decide (k = 5 ∨ k = 3 + q.port.val) && decide (q.output = 1))) rFault (some (BitVec.ofNat 32 k)) s
  let exportEnds : Bool := (blk == 2 || blk == 1) && s.tether.exporting.any (fun e => blk == 2 || !e.toStaging)
  let s := if exportEnds then endExport rFault [w32 blk] s else s
  let s := allTrn.foldl (fun s n => if blk = 19 ∨ blk = 11 + n.val then dropScan n s else s) s
  (owes, syncTickets (completeWhere (blockWork blk) rFault [BitVec.ofNat 32 blk] s))

/-! ### Safe-state entry (R221, R230, R274) -/

/-- Every fault of level 1 or 2 that waits or is in hand is logged without handling (R230); the one in hand was preempted by
the level-3 fault (R228). -/
def flushFaults (s : State) : State :=
  let fs := s.faults.inHand.toList.map (fun f => { f with preempted := true }) ++ s.faults.suspended ++ s.faults.queue
  fs.foldl (fun s f => appendLog f true s) { s with faults.inHand := none, faults.suspended := [], faults.queue := [] }

/-- The command is a domain switch. -/
def isSwitch : LongOp → Bool
  | .domain _ _ => true
  | _ => false

/-- Table 05-5: SAFE, the freeze, ingest and pulls stop, transports stop at the end of their data sets, long commands end
with E_FAULT except an export that is not FOLLOW; where the freeze meets a failing line the formatter resets instead (R396); W2 of a domain switch's holds PD_STAT.ON (R281). -/
def enterSafe (s : State) : State :=
  let s := freeze 0x11 0xFF s
  if s.boot.phase = .copying then s
  else
  let s := { s with
    boot.fwState := 7, faults.safe := true, ing.enabled := false
    faults.safeStopping := ofBits 8 (fun i => if h : i < 8 then s.trn[i].motion != 0 && s.trn[i].downlink else false) }
  let s := allTrn.foldl (fun s n =>
    if s.trn[n].motion = 0 then idleDownlinks n s else stopAtBoundary n s) s
  let s := match s.tether.exporting with
    | some e => if e.source = 2 then
        endExport rOk [w32 e.done, w32 (e.done / 2 ^ 32), w32 ((e.first.map (·.2)).getD 0)] s
      else s
    | none => s
  let s := abortReqs (fun _ => true) rFault none s
  let s := completeWhere isSwitch rFault [w32 s.power.on.toNat] s
  let s := syncTickets (completeWhere (fun w => w ≠ .tetherExport) rFault [] s)
  let s := allTrn.foldl (fun s n => dropScan n s) s
  let s := { s with
    rst.lent := s.rst.lent.map (fun l => if (l.2.2.map (fun t => decide ((s.tether.exporting.map (·.ticket)) = some t))) =
      some true then l else (l.1, l.2.1, none))
    power.queue := [], dma.sqOut := none }
  flushFaults (dropNv s)

/-- 64 faults wait whose handling has not begun (R225). -/
def queueFull (s : State) : Bool := decide (s.faults.queue.length ≥ 64)

/-- A fault record of now. -/
def faultNow (level src : Nat) (leaf : BitVec 8) (detail : Word) (owes : List Nat) (s : State) : FaultRec :=
  { level := level, source := src, leaf := leaf, stamp := s.tether.stamp, detail := detail, preempted := false, owes := owes }

/-- The level-3 action: leaf, FAULT_LAST, safe-state entry, log (R220, R230, R234). One that finds the queue full sets
PENDING_OVF as well (R225). -/
def raise3 (src : Nat) (leaf : BitVec 8) (detail : Word) (s : State) : State :=
  let f := faultNow 3 src leaf detail [] s
  let full := !s.faults.safe && queueFull s
  let s := writeFaultLast 3 src leaf (latch src leaf s)
  let s := if s.faults.safe then s else enterSafe s
  let s := appendLog f false s
  if full && !(src == 26 && leaf == leafCode 0 2) then
    appendLog (faultNow 3 26 (leafCode 0 2) 0 [] s) false (setLeaf 26 2 s)
  else s

/-- PENDING_OVF (R225, R264). -/
def overflow (s : State) : State := raise3 26 (leafCode 0 2) 0 s

/-- A fault of level 1 or 2 is queued, preempts, or is logged in the safe state; a 65th overflows (R225, R227 to R232). -/
def queueFault (f : FaultRec) (s : State) : State :=
  if s.faults.safe then appendLog f true s
  else if queueFull s then appendLog f true (overflow s)
  else
    match s.faults.inHand with
    | some h =>
      if f.level > h.level ∧ supRuns s = true then
        { s with
          faults.suspended := { h with preempted := true } :: s.faults.suspended
          faults.inHand := some f }
      else { s with faults.queue := s.faults.queue ++ [f] }
    | none => { s with faults.queue := s.faults.queue ++ [f] }

/-- A notice: its leaf latches (Table 05-4). -/
def notice (src : Nat) (leaf : BitVec 8) (s : State) : State := latch src leaf s

/-- DETAIL of a fault as it is detected: for a derived TRN leaf the second-level cause value (R286, Table 06-12). -/
def detailOf (src : Nat) (leaf : BitVec 8) (detail : Word) (s : State) : Word :=
  let t := getN s.irq.trn (src - 11) {}
  match field leaf 5 3 with
  | 0 => detail
  | 1 => t.link
  | 2 => t.servo
  | _ => t.verify

/-- A level-1 fault: leaf, and its handling queued with the records it fails. In the safe state the hardware action is
that of level 2: the block of the source halts (R230). -/
def raise1 (src : Nat) (leaf : BitVec 8) (detail : Word) (owes : List Nat) (s : State) : State :=
  let s := latch src leaf s
  let f := faultNow 1 src leaf (detailOf src leaf detail s) owes s
  let s := if s.faults.safe then (haltBlock src s).2 else s
  queueFault f s

/-- A level-2 fault of source `src` whose halted block is that of source `blk`. -/
def raise2 (src : Nat) (leaf : BitVec 8) (blk : Nat) (detail : Word) (s : State) : State :=
  let h := haltBlock blk (latch src leaf s)
  queueFault (faultNow 2 src leaf detail h.1 s) h.2

/-- A transport fault of level 1: the transport is lost with `code`, and the handling owes its records (Table 13-8). -/
def loseWith (n : Trn) (leaf : BitVec 8) (code : Nat) (s : State) : State :=
  let r := loseTransport n code s
  raise1 (11 + n.val) leaf 0 r.1 r.2

/-- The holder of `r` meets an uncorrectable payload line: the record is poisoned and the handling owes its completion
(R411, Table 01-6). -/
def payloadUe (owes : List Nat) (s : State) : State :=
  raise1 6 (leafCode 0 1) 0 owes (failRecs owes rFault true s)

/-- An uncorrectable line ends as its region has it: level 4 in a control region, else PAYLOAD_UE; a stack that gave
too many fails, and of the two faults of one CCLK the higher level comes first (R231, R396, R411, R429). -/
def afterRead (o : LineOutcome) (owes : List Nat) (s : State) : State :=
  match o with
  | .ok => s
  | .control => raise4 6 (leafCode 0 7) s
  | .bad =>
    payloadUe owes (match (List.range 4).find? (fun st => stackSick st s && s.stg.stackOk.getLsbD st) with
      | some st => raise3 6 (leafCode 0 6) 0 { s with stg.stackOk := clrBit s.stg.stackOk st }
      | none => s)

/-- A record's bytes are read by its holder: the bytes when they are sound (R409, R411). Every record with bytes in a bad
line is poisoned. -/
def readHeld (r : Nat) (ranges : List (Nat × Nat)) (s : State) : Option (List Byte) × State :=
  let x := readRanges ranges s
  match x.2.1 with
  | .ok => (some x.1, x.2.2)
  | o => (none, afterRead o [r] x.2.2)

end Sys2Proof.Machine
end

