-- ==== Sys2Proof/Machine/Mailbox.lean ====
section
/-!
DEFINITION. The command protocol: taking a message, the order of refusals, answers, replay (ch06, R242 to R263), and the
fuse values that commands look at (ch11, R492 to R495).
-/
namespace Sys2Proof.Machine
open Sys2Proof

/-! ### Fuse values in force (R493, R495) -/

/-- The highest committed row of item `k`: settings 0 to 3, then KEK slots. -/
def topRow (k : Nat) (s : State) : Option FuseRow :=
  (((s.nv.rows[k]?).getD []).filter (fun r => r.started && r.commit)).getLast?

/-- The CRC-32C of a row of item `k`: over the 32 bytes of a KEK, the 48 bytes that hold a setting (ch11). -/
def rowCrc (k : Nat) (v : BitVec 384) : Word :=
  if k < 4 then crc32c (leBytes 48 v.toNat) else crc32c (beBytes 32 (v.toNat % 2 ^ 256))

/-- The row's CRC-32C matches its value. -/
def rowSound (k : Nat) (r : FuseRow) : Bool := r.crc == rowCrc k r.value

/-- The value in force; none where no row is committed or the setting is faulty. -/
def fuseValue (k : Nat) (s : State) : Option (BitVec 384) :=
  match topRow k s with
  | some r => if rowSound k r then some r.value else none
  | none => none

/-- The setting or slot is faulty (R493). -/
def fuseFaulty (k : Nat) (s : State) : Bool :=
  match topRow k s with
  | some r => !rowSound k r
  | none => false

/-- Rows spent: STARTED bits set. -/
def rowsSpent (k : Nat) (s : State) : Nat := (((s.nv.rows[k]?).getD []).filter (fun r => r.started)).length

/-- The lifecycle code: the highest among the committed LIFECYCLE rows, BLANK when none is (R495). -/
def lifeCode (s : State) : Nat :=
  (((s.nv.rows[0]?).getD []).filter (fun r => r.started && r.commit)).foldl (fun m r => max m (field r.value 0 4)) 1

/-- MAC_BASE (R344). -/
def macBase (s : State) : Nat := field ((fuseValue 3 s).getD 0) 0 48

/-! ### Messages -/

/-- A message as Fjarma copied it. -/
structure Msg where
  chan : Chan
  header : Word
  words : Vector Word 16
  deriving DecidableEq, Repr

def Msg.opcode (m : Msg) : Nat := field m.header 0 16
def Msg.seq (m : Msg) : Nat := field m.header 16 8
def Msg.len (m : Msg) : Nat := field m.header 24 4

/-- P_i, for i up to LEN (R247). -/
def Msg.p (m : Msg) (i : Nat) : Word := if 1 ≤ i ∧ i ≤ m.len then getN m.words i 0 else 0

/-- Field [lo + len - 1 : lo] of P_i. -/
def Msg.f (m : Msg) (i lo len : Nat) : Nat := field (m.p i) lo len

/-- The 64-bit value of P_i and P_(i+1). -/
def Msg.pair (m : Msg) (i : Nat) : Nat := (m.p i).toNat + 2 ^ 32 * (m.p (i + 1)).toNat

def Msg.params (m : Msg) : List Word := (List.range m.len).map (fun i => m.p (i + 1))

/-- What a channel holds as a message. -/
def msgOf (c : Chan) (s : State) : Msg :=
  let k := s.mbx.chan[c]
  { chan := c, header := k.msg[0] &&& 0x0FFFFFFF, words := k.msg }

/-- Every opcode of the command families (ch21). -/
def knownOpcodes : List Nat := [
  0x0101, 0x0102, 0x0103, 0x0104, 0x0105, 0x0106,
  0x0201, 0x0202, 0x0203, 0x0204, 0x0205, 0x0206,
  0x0301, 0x0302, 0x0303, 0x0304, 0x0305, 0x0306,
  0x0401, 0x0402, 0x0403, 0x0404, 0x0405, 0x0406, 0x0407,
  0x0501, 0x0502, 0x0503, 0x0504, 0x0505,
  0x0601, 0x0602, 0x0603, 0x0604,
  0x0701, 0x0702, 0x0703,
  0x0801, 0x0802, 0x0803, 0x0804, 0x0805, 0x0806, 0x0807,
  0x0901, 0x0902, 0x0903,
  0x0A01, 0x0A02, 0x0A03, 0x0A04,
  0x0B01, 0x0B02, 0x0B03, 0x0B04, 0x0B05,
  0x0C01, 0x0C02, 0x0C03]

/-- The channel may not issue the command: E_AUTH (R279, R515). -/
def channelBars (m : Msg) (s : State) : Bool :=
  let fam := m.opcode / 256
  if m.chan.val = 8 then
    !s.mbx.config.mgmtFamilies.getLsbD fam || [0x0504, 0x0C02, 0x0C03].contains m.opcode
  else if m.chan.val = 9 then
    decide (lifeCode s ≥ 3) && (fam == 5 || fam == 12)
  else false

/-- The check of one command: the code of the first refusal that applies, 0 when none does. The fields stand in the order
of R262. -/
structure Cmd where
  opcode : Nat
  /-- Allowed in the safe state. -/
  safe : Bool := false
  /-- This row's form of the opcode; a message whose form is none of the command's belongs to every row of the opcode. -/
  mine : Msg → Bool := fun _ => true
  /-- LEN the form requires. -/
  lens : Msg → List Nat
  /-- The bits that P1, P2, … define; other bits set earn E_PARAM (Table 06-6). Words past the list are full words. -/
  bits : Msg → List Word := fun _ => []
  /-- Further refusals: E_AUTH, E_PARAM, E_STATE, E_THERMAL, E_LIMIT, E_NORES, and the command's own code. -/
  auth : Msg → State → Bool := fun _ _ => false
  param : Msg → State → Bool := fun _ _ => false
  state : Msg → State → Bool := fun _ _ => false
  thermal : Msg → State → Bool := fun _ _ => false
  limit : Msg → State → Bool := fun _ _ => false
  nores : Msg → State → Bool := fun _ _ => false
  own : Msg → State → Nat := fun _ _ => 0
  /-- The work of the form when it is long. -/
  long : Msg → Option LongOp := fun _ => none
  /-- A short form's effect: return code, answer words and next state. -/
  act : Msg → State → Nat × List Word × State := fun _ s => (rOk, [], s)
  /-- What a long form begins, once its ACK is posted, with its ticket. -/
  start : Msg → Nat → State → State := fun _ _ s => s

/-- A reserved bit of a parameter word is set (Table 06-6). -/
def reservedSet (masks : List Word) (m : Msg) : Bool := masks.zipIdx.any (fun x => m.p (x.2 + 1) &&& ~~~x.1 != 0)

/-- The first refusal in the order of R262, after E_BUSY; 0 when none applies. -/
def refuse (k : Cmd) (m : Msg) (s : State) : Nat :=
  if s.faults.safe = true ∧ k.safe = false then rFault
  else if channelBars m s || k.auth m s then rAuth
  else if !(k.lens m).contains m.len then rLength
  else if reservedSet (k.bits m) m || k.param m s then rParam
  else if k.state m s then rState
  else if k.thermal m s then rThermal
  else if k.limit m s || ((k.long m).isSome && (freeTicket m.chan s).isNone) then rLimit
  else if k.nores m s then rNores
  else k.own m s

/-- Fjarma loads the message of channel `c` from the mailbox: header and parameter words, each a LOAD entry; those of KEY.KEK_SET
in plain form are LOAD_REDACTED with the value 0 (R739, R740, R744; log 31). -/
def loadMessage (c : Chan) (s : State) : State :=
  let m := msgOf c s
  let secret := m.opcode == 0x0504 && !(m.p 1).getLsbD 8
  (m.header :: m.params).zipIdx.foldl (fun s w =>
    let addr := 0x1000 + 0x100 * c.val + 4 * w.2
    if secret then logEntry 0x12 addr [] s else logEntry 0x10 (addr + 2 ^ 32 * w.1.toNat) [] s) s

/-- Fjarma takes channel `c`'s message (Table 06-3 step 2). -/
def takeMessage (c : Chan) (s : State) : State :=
  modChan c (fun k => { k with taken := true, working := true }) (loadMessage c { s with mbx.turn := c.val })

/-- The ACK of channel `m.chan`'s message is posted with `f`: DONE sets, FULL and WORKING clear; a message not yet shown as
taken is taken with it (Table 06-3 steps 2 to 4; log 7). -/
def posted (m : Msg) (f : Channel → Channel) (s : State) : State :=
  modChan m.chan (fun c => { f c with full := false, working := false, taken := c.taken || !c.working, done := true })
    { s with mbx.turn := m.chan.val }

/-- The answer is written, the ACK posted, and the channel freed (R242, R246, R248). -/
def answer (m : Msg) (code ticket : Nat) (replay : Bool) (ans : List Word) (s : State) : State :=
  let head := pack [(0, m.opcode), (16, m.seq), (24, ans.length)]
  posted m (fun c => { c with
    msg := Vector.ofFn (fun i => if i.val = 0 then head else ans.getD (i.val - 1) 0)
    ack := pack [(0, code), (16, ticket), (23, b2n replay), (24, m.seq)] }) s

/-- The message and its answer become the remembered ones (R249, R250). -/
def remember (m : Msg) (s : State) : State :=
  modChan m.chan (fun c => { c with remembered := some {
    header := m.header, params := m.params, ack := c.ack, answer := c.msg } }) s

/-- The FULL channel that the round robin from MBX_0 to MBX_9 comes to next (R245). -/
def nextFull (s : State) : Option Chan :=
  ((List.range 10).map (fun k => Fin.ofNat 10 (s.mbx.turn + 1 + k))).find? (fun c => s.mbx.chan[c].full)

/-- The channel whose message was taken and is not answered (R271). -/
def workingChan (s : State) : Option Chan := (List.finRange 10).find? (fun c => s.mbx.chan[c].working)

/-- Fjarma takes or works on messages: the core runs, and no reset or standby entry is promised (R245, R271, R278). -/
def serves (s : State) : Bool := supRuns s && !s.mbx.resetDue && !s.power.standbyAcked

/-- Fjarma can answer the message of channel `c`: it was taken, or is the next to be taken (R245, R267). -/
def takes (c : Chan) (s : State) : Bool :=
  serves s && s.mbx.chan[c].full && (match workingChan s with
    | some w => w == c
    | none => nextFull s == some c)

/-- The next message is taken, where none is being worked on. -/
def takeNext (s : State) : State :=
  if serves s && (workingChan s).isNone then match nextFull s with
    | some c => takeMessage c s
    | none => s
  else s

/-- Replay and the same-SEQ refusal come first (R249, R250): some answered state, or none where the message is new. -/
def replayed (m : Msg) (s : State) : Option State :=
  match s.mbx.chan[m.chan].remembered with
  | none => none
  | some r =>
    if field r.header 16 8 ≠ m.seq then none
    else if r.header = m.header ∧ r.params = m.params then
      some (posted m (fun c => { c with msg := r.answer, ack := r.ack ||| 0x00800000 }) s)
    else some (answer m rParam 0 false [] s)

/-- The message of channel `c` is loaded, where it was not when it was taken. -/
def loaded (c : Chan) (s : State) : State := if s.mbx.chan[c].working then s else loadMessage c s

/-- One command taken from channel `c`: taken, checked in the order of R262, executed and answered. A channel whose
message is none of this command's stays as it is. -/
def runCommand (k : Cmd) (c : Chan) (s : State) : State :=
  let m := msgOf c s
  if takes c s = false ∨ m.opcode ≠ k.opcode ∨ k.mine m = false then s
  else
    let s := loaded c s
    match replayed m s with
    | some s' => s'
    | none =>
      match refuse k m s with
      | 0 =>
        match k.long m, freeTicket c s with
        | some w, some t =>
          let s := modTicket t (fun x => { x with
            held := true, done := false, chan := c.val, header := m.header, work := some w }) s
          k.start m t (remember m (answer m rAccepted t false [] s))
        | _, _ =>
          let r := k.act m s
          remember m (answer m r.1 0 false r.2.1 r.2.2)
      | code => remember m (answer m code 0 false [] s)

/-- Answer of a parameter GET: value, default, minimum, maximum (R671). -/
def getAnswer (v d lo hi : Nat) : List Word := [v, d, lo, hi].map (BitVec.ofNat 32)

end Sys2Proof.Machine
end

