-- ==== Sys2Proof/Machine/Flags.lean ====
section
/-!
DEFINITION. What the state shows without storing it: status and derived leaves, SUMMARY, the attention condition, holds;
and `settle`, which brings INT_N, MSI-X, the RoCE hold and the wide-value generations up to date after every command.
-/
namespace Sys2Proof.Machine
open Sys2Proof

/-! ### Conditions behind status leaves -/

/-- DSNs in a transport's window: row 0 built and not yet ruled out of it (R624). -/
def windowCount (n : Trn) (s : State) : Nat :=
  (s.fmt.trn[n].window.filter (fun d => d.copies.any (fun c => decide (0 < c.built)))).length

/-- Some interlock input is asserted (R72). -/
def interlock (s : State) : Bool := s.aux.pin.toList.any (fun p => p.ilk)

/-- EXTEST, HIGHZ or CLAMP is in force: boundary scan holds the pads (R772, Table 19-1). -/
def padctl (s : State) : Bool := s.dm.ir == 0x00 || s.dm.ir == 0x08 || s.dm.ir == 0x09

/-- DBG_CAUSE.ACTIVE (R780). -/
def dbgActive (s : State) : Bool := s.dbg.halted || s.boot.fwState == 3 || padctl s

/-- A holding condition of Table 15-4 holds member `n`. -/
def memberHeld (n : Trn) (s : State) : Bool :=
  interlock s || s.gov.mem[n].mode == 2 || s.fmt.trn[n].windowHold || s.trn[n].degraded || s.faults.safe ||
  haltedSrc 20 s

/-! ### Cause registers, SUMMARY, attention (R211 to R213, Tables 05-2, 05-3) -/

/-- The status and derived bits of a source's first-level cause register. -/
def statusBits (src : Nat) (s : State) : Word :=
  match src with
  | 0 => pack [(0, b2n ((s.mbx.dbStat &&& ~~~s.mbx.dbMask) != 0))]
  | 6 => pack [(4, b2n (highWater s)), (5, b2n (ballastDraw s))]
  | 10 => pack [(4, b2n (allTrn.any (fun n => decide (windowCount n s ≥ 48))))]
  | 20 => pack [(2, b2n s.therm.throttle), (3, b2n (interlock s))]
  | 25 => pack [(0, b2n (dbgActive s))]
  | 26 => pack [(0, b2n (s.faults.halted != 0)), (1, b2n s.faults.safe)]
  | k =>
    if 11 ≤ k ∧ k < 19 then
      let t := getN s.irq.trn (k - 11) {}
      pack [(0, b2n ((t.link &&& ~~~t.linkMask) != 0)), (1, b2n ((t.servo &&& ~~~t.servoMask) != 0)),
            (2, b2n ((t.verify &&& ~~~t.verifyMask) != 0))]
    else 0

/-- A first-level cause register as a reader sees it. -/
def causeView (src : Nat) (s : State) : Word := getN s.irq.cause src 0 ||| statusBits src s

/-- A source has a cause that is 1 and unmasked, or is the debug source while ACTIVE is 1 (R213). -/
def summaryBit (src : Nat) (s : State) : Bool :=
  (causeView src s &&& ~~~(getN s.irq.mask src 0)) != 0 || (src == 25 && dbgActive s)

/-- SUMMARY (Table 05-7). -/
def summary (s : State) : Word := ofBits 32 (fun i => decide (i < 28) && summaryBit i s)

/-- The attention condition (ch05, The pin and its mirror). -/
def attentionNow (s : State) : Bool := (summary s &&& ~~~s.irq.summaryMask) != 0

/-! ### MSI-X (R208 to R210) -/

/-- The host lets the message go: enabled, unmasked, and requests may be issued (R209, R327). -/
def msixAllowed (s : State) : Bool :=
  s.pcie.msixEnable && !s.pcie.msixFnMask && !s.pcie.msixVecMask && s.pcie.bme && !s.pcie.d3 && !haltedSrc 1 s

/-- A message that R208 or R218 calls for: sent, or Pending, or due when the hold-off ends. The spacing to the next message
is the HOLDOFF that stands when a message is sent; a write of HOLDOFF changes it from the next message on (log 173, DESIGN
CHOICE). -/
def callMsix (s : State) : State :=
  if !msixAllowed s then { s with irq.msixPending := true }
  else if s.irq.holdoffRuns then { s with irq.msixDue := true }
  else emit .msix { s with irq.holdoffRuns := s.irq.holdoff != 0 }

/-- The attention condition, INT_N, and the message that a rise, or an end of Pending, calls for; the Pending bit clears
as soon as the message is allowed (R207 to R209, R219). -/
def settleIrq (s : State) : State :=
  let a := attentionNow s
  let due := s.irq.msixPending && msixAllowed s
  let call := a && (!s.irq.attention || due)
  let s := { s with
    irq.attention := a, irq.intN := a && !s.irq.pinOff && !s.irq.eoiRelease, irq.msixPending := s.irq.msixPending && !due }
  if call then callMsix s else s

/-! ### The RoCE hold (R373) -/

/-- CREDIT_HELD sets when a hold begins; buffers are posted again when it ends. -/
def settleHold (s : State) : State :=
  let h := holdInForce s
  if h && !s.net.held then setLeaf 5 1 { s with net.held := true }
  else if !h && s.net.held then postBuffers { s with net.held := false }
  else s

/-! ### Wide-value generations (R188) -/

/-- The key hash in force (R144, R497). -/
def keyHash (s : State) : Option (BitVec 384) :=
  if s.nv.bootLife = 1 then some Config.vendorKeyHash else fuseValue 1 s

/-- Records bound to data-key slot `k` whose blocks still need it (Table 11-5). -/
def recsBound (k : Nat) (s : State) : Nat :=
  (s.ing.recs.filter (fun e => match e.2 with
    | some v => v.slot == some k && v.verdict.isNone &&
        (!(v.blocks.all (fun b => b.st == .encrypted)) || s.cip.again.any (fun a => decide (a.1 = e.1)))
    | none => false)).length +
  (s.rst.reqs.filter (fun q => q.slot == some k)).length

/-- The key hash in force has changed; the constant that a virgin part uses has not. -/
def keyHashChanged (s t : State) : Bool :=
  !(decide (s.nv.bootLife = 1) && decide (t.nv.bootLife = 1)) && keyHash s != keyHash t

/-- The content of a wide-value item has changed from `s` to `t`. -/
def itemChanged (item : Nat) (s t : State) : Bool :=
  match item with
  | 0x01 => s.boot.digest != t.boot.digest
  | 0x02 => s.boot.fusesLoaded != t.boot.fusesLoaded || keyHashChanged s t
  | 0x10 => s.cip.slot != t.cip.slot || (List.range 16).any (fun k => recsBound k s != recsBound k t)
  | 0x11 => s.nv.rows != t.nv.rows || s.dbg.taint != t.dbg.taint
  | 0x20 => s.mbx.audits != t.mbx.audits
  | _ => false

/-- WV_VALID.GEN of each item advances when its content changed since `s`; a reset clears them all (R188, R205). -/
def settleWide (s t : State) : State :=
  if t.boot.phase = .held ∨ t.boot.phase = .pll ∨ t.boot.phase = .standby ∨ t.boot.phase = .copying then t
  else
    [0x01, 0x02, 0x10, 0x11, 0x20].foldl (fun t i =>
      if itemChanged i s t then
        { t with regs.wv.gen := spSet 0 t.regs.wv.gen i (spGet 0 t.regs.wv.gen i + 1) }
      else t) t

/-- What follows from any command, beyond its own effect; `s` is the state before the command. -/
def settle (s t : State) : State := settleIrq (settleHold (settleWide s (issueReads (drainAll t))))

end Sys2Proof.Machine
end

