-- ==== Sys2Proof/Machine/Regs.lean ====
section
/-!
DEFINITION. The registers: what every BAR0 offset holds, which reads change state for which origin, what every write does,
and the windows into far space (ch04, ch21, and the field tables of every chapter).
-/
namespace Sys2Proof.Machine
open Sys2Proof

/-! ### Far space (R166 to R174, R202, R578, R583, Tables 04-3, 04-4, 21-6) -/

/-- The origin's window instance, or SUP's own far access (R197, log 161). -/
def winOf (o : Origin) (s : State) : Window :=
  match o with
  | .pcie => s.regs.winPcie
  | .i2c => s.regs.winI2c
  | .debug => s.regs.winDebug
  | .sup => s.regs.winSup

def modWin (o : Origin) (f : Window → Window) (s : State) : State :=
  match o with
  | .pcie => { s with regs.winPcie := f s.regs.winPcie }
  | .i2c => { s with regs.winI2c := f s.regs.winI2c }
  | .debug => { s with regs.winDebug := f s.regs.winDebug }
  | .sup => { s with regs.winSup := f s.regs.winSup }

/-- The transport whose gondola a far address lies in. -/
def gondolaOf (a : Nat) : Option Trn :=
  if h : 0x10000000 ≤ a ∧ a < 0x18000000 then some ⟨(a - 0x10000000) / 0x01000000, by omega⟩ else none

/-- The SerDes lane a far address lies in. -/
def laneOf (a : Nat) : Option (Fin 144) :=
  if h : 0x30000000 ≤ a ∧ a < 0x30900000 then some ⟨(a - 0x30000000) / 0x10000, by omega⟩ else none

def isHbm (a : Nat) : Bool := decide (0x20000000 ≤ a ∧ a < 0x24000000)
def isFuse (a : Nat) : Bool := decide (0x40000000 ≤ a ∧ a < 0x40010000)

/-- The address lies in a far region (Table 04-3). -/
def farMapped (a : Nat) : Bool := (gondolaOf a).isSome || (laneOf a).isSome || isHbm a || isFuse a

/-- The far side is available (Table 04-4 OFFLINE; R204). -/
def farOnline (a : Nat) (s : State) : Bool :=
  match gondolaOf a with
  | some n => domOn (tlDomain n.val) s && s.trn[n].port == .up
  | none =>
    match laneOf a with
    | some i => domOn (laneDomain i.val) s
    | none => if isHbm a then s.boot.hbmReady else true

/-- A gondola register of Table 13-16 that may be written. -/
def gondolaWritable (g : Nat) : Bool :=
  decide (0x1000 ≤ g ∧ g < 0x1100 ∨ 0x2000 ≤ g ∧ g < 0x2100) && decide (g % 4 = 0)

/-- The far address may be written (R173). -/
def farWritable (a : Nat) : Bool :=
  match gondolaOf a with
  | some _ => gondolaWritable (a % 0x01000000)
  | none => (laneOf a).isSome && decide (a % 0x10000 = 0)

/-- The first request of a gondola queue goes out on CTL (R578, Table 13-5). -/
def sendFar (n : Trn) (q : FarReq) (s : State) : State :=
  let a := q.addr % 0x01000000
  if q.write then sendCtl n 0x41 a [q.value.toNat] s else sendCtl n 0x40 a [] s

/-- The queue that serves a far address in arrival order: its transport port's, or the bus's (R197, R578). -/
def farQueue (a : Nat) (s : State) : List FarReq :=
  match gondolaOf a with
  | some n => s.trn[n].far
  | none => s.regs.bus

def setFarQueue (a : Nat) (l : List FarReq) (s : State) : State :=
  match gondolaOf a with
  | some n => modTrn n (fun t => { t with far := l }) s
  | none => { s with regs.bus := l }

/-- The first request of the queue begins to be served. -/
def serveFar (a : Nat) (s : State) : State :=
  match gondolaOf a, farQueue a s with
  | some n, q :: _ => sendFar n q s
  | _, _ => s

/-- A far access joins the queue of its address, and is served at once where the queue was empty (R197, R578). -/
def queueFar (q : FarReq) (s : State) : State :=
  let l := farQueue q.addr s
  let s := setFarQueue q.addr (l ++ [q]) s
  if l.isEmpty then serveFar q.addr s else s

/-- The first request of the queue that serves `a` is over; the next is served. -/
def popFar (a : Nat) (s : State) : State := serveFar a (setFarQueue a ((farQueue a s).drop 1) s)

/-- The origin gives up its request in the queue that serves `a`: the one being served goes on to an end that nobody waits
for, one not yet served leaves the queue (R170, R198). -/
def abandonIn (o : Origin) (a : Nat) (s : State) : State :=
  match farQueue a s with
  | [] => s
  | q :: rest =>
    let rest := rest.filter (fun x => decide (x.origin ≠ o))
    setFarQueue a ((if q.origin = o then { q with live := false } else q) :: rest) s

/-- The window's access in progress, if any, is abandoned (R170, R198). -/
def abandonFar (o : Origin) (s : State) : State :=
  match (winOf o s).far with
  | .idle => s
  | .read a => abandonIn o a s
  | .write a _ => abandonIn o a s

/-- A window access ends with an error code (R202). -/
def farError (o : Origin) (code : Nat) (s : State) : State :=
  modWin o (fun w => { w with err := BitVec.ofNat 4 code, busy := false, far := .idle }) s

/-- A far word arrives: IND_DATA holds it and READY sets. -/
def farWord (o : Origin) (v : Word) (s : State) : State :=
  modWin o (fun w => { w with data := v, ready := true, far := .idle }) s

/-- A far write takes effect on its register. -/
def farApply (a : Nat) (v : Word) (s : State) : State :=
  match gondolaOf a with
  | some n => modTrn n (fun t => { t with gondola := spSet none t.gondola (a % 0x01000000) (some v) }) s
  | none =>
    match laneOf a with
    | some i => { s with regs.polarity := upd s.regs.polarity i (fun p =>
        (p &&& 0b100) ||| (BitVec.ofNat 3 (v.toNat % 4))) }
    | none => s

/-! ### Wide values (Table 04-6, R184) -/

/-- The number of pieces of an item; none where the item is unknown or unavailable. -/
def wvPieces (item : Nat) (s : State) : Option Nat :=
  match item with
  | 0x01 => if s.boot.digest.isSome then some 3 else none
  | 0x02 => if s.boot.fusesLoaded then some 3 else none
  | 0x03 => some 1
  | 0x10 => if domOn 6 s then some 16 else none
  | 0x11 => some 8
  | 0x20 => if s.mbx.audits = 0 then none else some 180
  | _ => none

/-- The check value of a key (R491). -/
def keyCheck (k : BitVec 256) : List Byte :=
  (aes256 k ([0, 0, 0, 0] ++ List.replicate 12 0xFF)).take 8

/-- State of KEK slot `k`: 0 unset, 1 set, 2 faulty, 3 disabled (Table 11-5, R497, R778). -/
def kekState (k : Nat) (s : State) : Nat :=
  if lifeCode s = 4 then 3
  else if fuseFaulty (4 + k) s then 2
  else if (fuseValue (4 + k) s).isSome && !s.dbg.taint then 1 else 0

/-- The key of KEK slot `k` where it is set. -/
def kekOf (k : Nat) (s : State) : Option (BitVec 256) :=
  if kekState k s = 1 then (fuseValue (4 + k) s).map (fun v => v.truncate 256) else none

/-- The number of the row in force of fuse item `k`. -/
def rowInForce (k : Nat) (s : State) : Option Nat :=
  if (fuseValue k s).isNone then none
  else (((s.nv.rows[k]?).getD []).zipIdx.filter (fun r => r.1.started && r.1.commit)).getLast?.map (·.2)

def slotCode : SlotState → Nat
  | .empty => 0
  | .valid => 1
  | .invalid => 2
  | .clearing => 3

/-- The 16 bytes of piece `p` of an item (Tables 04-6, 11-5; R184). -/
def wvPiece (item p : Nat) (s : State) : List Byte :=
  match item with
  | 0x01 => slice (beBytes 48 (s.boot.digest.getD 0).toNat) (16 * p) 16
  | 0x02 => slice (beBytes 48 ((keyHash s).getD 0).toNat) (16 * p) 16
  | 0x03 => leBytes 16 Config.uniqueNumber.toNat
  | 0x10 =>
    let k := getN s.cip.slot p {}
    leBytes 4 k.keyId.toNat ++ [BitVec.ofNat 8 (slotCode k.state), BitVec.ofNat 8 k.kek] ++
      leBytes 2 (min 65535 (recsBound p s)) ++ (if k.state = .valid then keyCheck k.key else List.replicate 8 0)
  | 0x11 =>
    [BitVec.ofNat 8 (kekState p s), BitVec.ofNat 8 ((rowInForce (4 + p) s).getD 255),
     BitVec.ofNat 8 (rowsSpent (4 + p) s), 0, 0, 0, 0, 0] ++
      (match kekOf p s with
       | some k => keyCheck k
       | none => List.replicate 8 0)
  | 0x20 => slice s.mbx.snapshot (16 * p) 16
  | _ => List.replicate 16 0

/-- The load of the selected piece ends in VALID or ERR (R185). -/
def wvLoad (s : State) : State :=
  let w := s.regs.wv
  match wvPieces w.item.toNat s with
  | none => { s with regs.wv := { w with loading := false, err := true, valid := false, pieces := 0 } }
  | some k =>
    if w.piece.toNat ≥ k then
      { s with regs.wv := { w with loading := false, err := true, valid := false, pieces := BitVec.ofNat 8 k } }
    else
      let bs := wvPiece w.item.toNat w.piece.toNat s
      { s with regs.wv := { w with
          loading := false, err := false, valid := true, pieces := BitVec.ofNat 8 k, held := w.piece
          data := Vector.ofFn (fun i => wordAt bs (4 * i.val)) } }

/-! ### Which offsets are implemented (R153, R828) -/

/-- The first offset, number and spacing of the counters (Table 21-4). -/
def counterTable : List (Nat × Nat) :=
  [(0x8000, 3), (0x8100, 9), (0x8200, 4), (0x8240, 8), (0x8300, 11), (0x8380, 11), (0x8400, 6), (0x8500, 8), (0x8600, 6),
   (0x8700, 5), (0x8740, 5), (0x8780, 5), (0x87C0, 5), (0x8800, 5), (0x8840, 5), (0x8880, 5), (0x88C0, 5),
   (0x8900, 6), (0x8A00, 4), (0x8B00, 8), (0x8C00, 3), (0x8D00, 4), (0x8E00, 2), (0x9000, 144)]

/-- The offset is one of a counter's two words. -/
def isCounter (off : Nat) : Bool := counterTable.any (fun r => decide (r.1 ≤ off ∧ off < r.1 + 8 * r.2))

/-- Registers of a cause block beside its first cause and mask, by source (Table 21-3). -/
def blockRegs (src : Nat) : List Nat :=
  match src with
  | 1 => [0x40]
  | 2 => [0x40, 0x44]
  | 3 => [0x40]
  | 4 => [0x40]
  | 5 => [0x40, 0x44, 0x48, 0x4C, 0x50]
  | 6 => [0x40, 0x44, 0x48, 0x4C, 0x50, 0x54, 0x58, 0x5C, 0x60]
  | 7 => [0x40, 0x44]
  | 8 => [0x40]
  | 9 => [0x40]
  | 10 => [0x40]
  | 19 => [0x40]
  | 20 => [0x40, 0x44, 0x48, 0x4C]
  | 21 => [0x40]
  | 22 => [0x40, 0x44, 0x48, 0x4C, 0x50, 0x54]
  | 23 => [0x08, 0x0C, 0x10, 0x14, 0x18]
  | 24 => [0x40, 0x44]
  | 26 => [0x08, 0x0C, 0x10, 0x14]
  | 27 => [0x08, 0x0C, 0x10, 0x14, 0x18, 0x1C, 0x20, 0x24]
  | k => if 11 ≤ k ∧ k < 19 then
      [0x10, 0x14, 0x20, 0x24, 0x30, 0x34, 0x40, 0x44, 0x48, 0x4C, 0x50, 0x54, 0x58] else []

/-- The BAR0 offset is an implemented register (R828). -/
def implemented (off : Nat) : Bool :=
  decide (off % 4 = 0) &&
  ([0x0000, 0x0004, 0x0010, 0x0014, 0x0020, 0x0024, 0x0028, 0x0100, 0x0104, 0x0108, 0x010C, 0x0120, 0x0124,
    0x0130, 0x0134, 0x0138, 0x013C, 0x2000, 0x2004, 0x2008, 0x200C, 0x2010, 0x2014, 0x2018,
    0x2F00, 0x2F04, 0x2F08, 0x2F0C, 0x2F80, 0x2F84, 0xC000, 0xC004, 0xC008, 0xC00C].contains off ||
   (decide (0x1000 ≤ off ∧ off < 0x1A00) && decide (off % 0x100 < 0x4C)) ||
   decide (0x2400 ≤ off ∧ off < 0x2C00) ||
   decide (0x3000 ≤ off ∧ off < 0x3200) ||
   (decide (0x4000 ≤ off ∧ off < 0x5000) && decide (off % 0x200 < 0x1C)) ||
   (decide (0x5000 ≤ off ∧ off < 0x5E00) &&
     (decide (off % 0x80 < 8) || (blockRegs ((off - 0x5000) / 0x80)).contains (off % 0x80))) ||
   isCounter off)

/-- The domain in which a register's block lies, where that domain can be switched (Table 03-2, R156). -/
def regDomain (off : Nat) : Option Nat :=
  if 0x5000 ≤ off ∧ off < 0x5E00 then srcDomain ((off - 0x5000) / 0x80) else none

/-! ### What a register shows -/

/-- GRP_n: the lowest member of the group, 0xF in none (Table 15-9). -/
def groupNibble (m : BitVec 8) : Nat := ((List.range 8).find? (fun i => m.getLsbD i)).getD 15

/-- Bits n of a predicate on transports. -/
def trnBits (f : Trn → Bool) : Nat := (ofBits 8 (fun i => if h : i < 8 then f ⟨i, h⟩ else false)).toNat

def portCode : PortState → Nat
  | .off => 0
  | .idle => 1
  | .starting => 2
  | .up => 3
  | .offline => 4

/-- A transport's registers at 0x40 to 0x58 (Tables 13-13, 13-14). -/
def trnReg (n : Trn) (r : Nat) (s : State) : Word :=
  let t := s.trn[n]
  match r with
  | 0x40 => pack [(16, t.speed.toNat), (15, b2n t.degraded), (14, b2n t.gate), (12, t.spareRole.toNat),
      (11, b2n t.spareInUse), (8, t.motion.toNat), (4, t.cart.toNat), (0, portCode t.port)]
  | 0x44 => BitVec.ofNat 32 (t.wrap % 256)
  | 0x48 => t.lpos
  | 0x4C => t.cartId.truncate 32
  | 0x50 => (t.cartId >>> 32).truncate 32
  | 0x54 => pack [(16, t.credit1), (0, t.credit0)]
  | 0x58 => pack [(0, t.pes.toNat)]
  | _ => 0

/-- ETH_p_STAT (Table 08-10). -/
def ethStat (p : Port) (s : State) : Word :=
  let e := s.net.port[p]
  pack [(25, b2n e.longRx), (24, b2n e.longTx), (16, e.pausedRx.toNat), (8, e.pausedTx.toNat), (2, b2n e.aligned),
    (1, b2n e.link), (0, b2n e.enabled)]

/-- RDMA_QP_ERR_p and RDMA_QP_ERR_HI_p: bit q for queue pair `base + q` (Table 08-11). -/
def qpErr (p : Port) (base : Nat) (s : State) : Word :=
  ofBits 32 (fun i => match getN s.net.port[p].qp (base + i) none with
    | some q => q.state == .error || (q.state == .draining && q.lastErr != 0)
    | none => false)

/-- PCIE_LINK (Table 07-11). -/
def pcieLink (s : State) : Word :=
  pack [(20, if s.pcie.d3 then 3 else 0), (19, b2n s.pcie.bme), (18, b2n s.pcie.nsEn), (17, b2n s.pcie.roEn),
    (16, b2n s.pcie.tag10), (12, s.pcie.mrrs.toNat), (9, s.pcie.mps.toNat), (4, s.pcie.width.toNat), (0, s.pcie.speed.toNat)]

/-- RST_CAUSE and RST_COUNT (Tables 03-17, 03-18). -/
def rstCause (s : State) : Word := pack [(16, s.aon.detail.toNat), (4, s.aon.also.toNat), (0, s.aon.cause.toNat)]
def rstCount (s : State) : Word := pack [(8, s.aon.persts.toNat), (0, s.aon.resets.toNat)]

/-- FAULT_INHAND (Table 05-13). -/
def faultInhand (s : State) : Word :=
  match s.faults.inHand with
  | some f => pack [(8, f.leaf.toNat), (3, f.source), (0, f.level)]
  | none => 0

/-- DBG_STAT (Table 19-9). -/
def dbgStat (s : State) : Word :=
  pack [(9, b2n (s.dbg.wdArmed && s.dbg.halted)), (8, b2n s.dbg.wdArmed), (5, b2n (padctl s)),
    (4, b2n (decide (s.nv.bootLife.toNat ≥ 3))), (3, b2n (s.boot.fwState == 3)), (2, b2n s.dbg.taint),
    (1, b2n s.dbg.halted), (0, b2n s.dm.dmactive)]

/-- DIAG_ARMED and DIAG_LOOP_STAT (Tables 19-11, 19-12). -/
def diagArmed (s : State) : Word := ofBits 32 (fun c => s.dbg.armed.any (fun a => a.code == c))
def diagLoop (s : State) : Word :=
  pack [(10, s.dbg.loopEth[1].toNat), (8, s.dbg.loopEth[0].toNat), (0, s.dbg.loopTrn.toNat)]

/-- THERM_TEMP_j (Table 17-9). -/
def thermTemp (j : Nat) (s : State) : Word :=
  pack [(16, (getN s.therm.temp (2 * j + 1) 0).toNat), (0, (getN s.therm.temp (2 * j) 0).toNat)]

/-- What a register of a cause block reads at reset: masks set, TRN_n_STAT.PORT 1, KEY_STAT.LIFECYCLE from the fuses
(R156, R239, Tables 11-12, 13-13). -/
def resetReg (src r : Nat) (s : State) : Word :=
  let trn := decide (11 ≤ src ∧ src < 19)
  match r with
  | 0x04 => getN leafBits src 0
  | 0x14 => if trn then 0x7F else 0
  | 0x24 => if trn then 0x7 else 0
  | 0x34 => if trn then 0xF else 0
  | 0x40 => if trn then 1 else if src = 9 then w32 (lifeCode s) else 0
  | _ => 0

/-- The registers of a cause block beside cause and mask (Table 21-3). -/
def blockReg (src r : Nat) (s : State) : Word :=
  match src with
  | 1 => pcieLink s
  | 2 => if r = 0x40 then BitVec.ofNat 32 s.dma.hdone.toNat else s.dma.errInfo
  | 3 => ethStat 0 s
  | 4 => ethStat 1 s
  | 5 =>
    match r with
    | 0x40 => qpErr 0 0 s
    | 0x44 => qpErr 1 0 s
    | 0x48 => s.net.errInfo
    | 0x4C => qpErr 0 32 s
    | _ => qpErr 1 32 s
  | 6 =>
    match r with
    | 0x40 => BitVec.ofNat 32 (b2n s.stg.mergeMode)
    | 0x44 => pack [(7, b2n (ballastDraw s)), (6, b2n (highWater s)), (5, b2n s.stg.bar2Open), (4, b2n s.stg.scrubbing),
        (0, s.stg.stackOk.toNat)]
    | 0x48 => if s.stg.laidOut then BitVec.ofNat 32 (freeCount s) else 0
    | 0x4C => s.stg.flipCtrl
    | 0x50 => s.stg.flipLo
    | 0x54 => s.stg.flipHi
    | 0x58 => s.stg.errAddr.truncate 32 &&& 0xFFFFFFC0
    | 0x5C => (s.stg.errAddr >>> 32).truncate 32
    | _ => s.stg.errInfo
  | 7 =>
    if r = 0x40 then
      pack [(16, (ofBits 16 (fun e => (getN s.cmp.engine e {}).off)).toNat),
            (0, (ofBits 16 (fun e => (getN s.cmp.engine e {}).job.isSome)).toNat)]
    else BitVec.ofNat 32 s.cmp.loaded.toNat
  | 8 => pack [(8, (ofBits 8 (fun u => (getN s.cip.unit u {}).off)).toNat),
      (0, (ofBits 8 (fun u => (getN s.cip.unit u {}).job.isSome)).toNat)]
  | 9 =>
    pack [(16, (ofBits 16 (fun k => (getN s.cip.slot k {}).state == .valid)).toNat),
      (8, (ofBits 8 (fun k => (fuseValue (4 + k) s).isSome)).toNat), (7, b2n s.cip.entropyOk),
      (6, match s.nv.phase with
          | .row _ _ => 1
          | _ => 0), (0, lifeCode s)]
  | 10 => pack [(16, trnBits (fun n => decide (s.fmt.trn[n].tailsDue > 0))),
      (8, trnBits (fun n => !s.fmt.trn[n].copyDue.isEmpty)), (0, trnBits (fun n => decide (windowCount n s ≥ 48)))]
  | 19 => pack [(8, trnBits (fun n => s.rst.trn[n].retrying)), (0, trnBits (fun n => s.rst.trn[n].reading))]
  | 20 =>
    match r with
    | 0x40 => pack [(25, b2n s.therm.throttle), (24, b2n s.gov.extHold),
        (16, trnBits (fun n => s.trn[n].loaded == .writing && memberHeld n s)), (8, trnBits (fun n => s.gov.mem[n].parked)),
        (0, trnBits (fun n => s.trn[n].loaded == .writing && s.trn[n].motion != 0))]
    | 0x44 => pack ((List.range 4).map (fun m => (8 * m, (getN s.gov.mem m {}).code)))
    | 0x48 => pack ((List.range 4).map (fun m => (8 * m, (getN s.gov.mem (4 + m) {}).code)))
    | _ => pack ((List.range 8).map (fun n => (4 * n, groupNibble (getN s.gov.mem n {}).group)))
  | 21 => pack [(2, b2n (!s.aon.vcoreLow)), (1, b2n (!s.aon.vaonLow)), (0, b2n s.aon.nvInhibit)]
  | 22 =>
    match r with
    | 0x40 => pack [(18, b2n s.therm.thermN), (17, b2n s.therm.critical), (16, b2n s.therm.throttle), (8, if s.therm.throttle then s.therm.cool else s.therm.hot),
        (0, s.therm.valid.toNat)]
    | 0x54 => pack [(16, s.therm.peak.toNat), (0, s.therm.now.toNat)]
    | r => thermTemp ((r - 0x44) / 4) s
  | 23 =>
    match r with
    | 0x08 => rstCause s
    | 0x0C => rstCount s
    | 0x10 => pack [(17, b2n s.power.autoVrf), (16, b2n s.power.switching.isSome), (0, s.power.on.toNat)]
    | 0x14 => s.boot.bootTime
    | _ => pack [(1, s.power.pll.toNat), (0, 1)]
  | 24 =>
    if r = 0x40 then pack [(3, b2n s.tether.anchoring.isSome), (2, b2n s.tether.exporting.isSome), (0, b2n s.tether.frozen)]
    else BitVec.ofNat 32 s.tether.epoch.toNat
  | 26 =>
    match r with
    | 0x08 => BitVec.ofNat 32 (min 255 (pendingCount s))
    | 0x0C => BitVec.ofNat 32 s.faults.halted.toNat
    | 0x10 => s.aon.faultLast
    | _ => faultInhand s
  | 27 =>
    match r with
    | 0x08 => ofBits 32 (fun k => (getN s.aux.pin k {}).level)
    | 0x0C => BitVec.ofNat 32 s.aux.out.toNat
    | 0x10 => BitVec.ofNat 32 s.aux.pol.toNat
    | 0x14 => BitVec.ofNat 32 s.aux.cont.toNat
    | 0x24 => BitVec.ofNat 32 s.aon.straps.toNat
    | r => pack ((List.range 8).map (fun m => (4 * m, (getN s.aux.pin (8 * ((r - 0x18) / 4) + m) {}).fn.toNat)))
  | k =>
    if h : 11 ≤ k ∧ k < 19 then
      let t := s.irq.trn[k - 11]
      match r with
      | 0x10 => t.link
      | 0x14 => t.linkMask
      | 0x20 => t.servo
      | 0x24 => t.servoMask
      | 0x30 => t.verify
      | 0x34 => t.verifyMask
      | r => trnReg ⟨k - 11, by omega⟩ r s
    else 0

/-- MBX_n_STAT (Table 06-17). -/
def mbxStat (c : Channel) : Word :=
  pack [(5, b2n c.nacked), (4, b2n c.ca), (3, b2n c.done), (2, b2n c.working), (1, b2n c.taken), (0, b2n c.full)]

/-- A host channel's registers (Tables 07-14 to 07-19). -/
def dmaReg (c : HostChan) (r : Nat) : Word :=
  match r with
  | 0x00 => c.ringLo
  | 0x04 => c.ringHi
  | 0x08 => BitVec.ofNat 32 c.log2.toNat
  | 0x0C => BitVec.ofNat 32 c.tail.toNat
  | 0x10 => BitVec.ofNat 32 c.head.toNat
  | 0x14 => BitVec.ofNat 32 (b2n c.enable)
  | _ => pack [(16, c.code.toNat), (8, c.detail.toNat), (2, b2n c.halted), (1, b2n c.desc.isSome)]

/-- The value of a 48-bit counter; TETHER_CYCLE is the stamp (R183, R741). -/
def counterValue (lo : Nat) (s : State) : BitVec 48 :=
  if lo = 0x8D00 then s.tether.stamp else if counterOn lo s then counter lo s else 0

/-- The origin's shadows. -/
def shadowsOf (o : Origin) (s : State) : List (Nat × BitVec 16) :=
  match o with
  | .pcie => s.regs.shPcie
  | .i2c => s.regs.shI2c
  | .debug => s.regs.shDebug
  | .sup => s.regs.shSup

/-- The low registers, windows and wide-value port (Tables 21-1, 04-9 to 04-17). -/
def headReg (o : Origin) (off : Nat) (s : State) : Word :=
  let w := winOf o s
  match off with
  | 0x000 => 0x48124E48
  | 0x004 => 0x00000200
  | 0x010 => pack [(16, s.boot.reason.toNat), (9, b2n s.boot.hbmReady), (8, b2n s.boot.slot), (0, s.boot.fwState.toNat)]
  | 0x014 => BitVec.ofNat 32 s.boot.loadLength.toNat
  | 0x020 => summary s
  | 0x024 => s.irq.summaryMask
  | 0x028 => pack [(17, b2n s.irq.pinOff), (0, s.irq.holdoff.toNat)]
  | 0x100 => w.addr
  | 0x104 => if w.ready || o != .pcie then w.data else 0xFFFFFFFF
  | 0x108 => pack [(4, w.err.toNat), (1, b2n w.busy), (0, b2n w.ready)]
  | 0x10C => BitVec.ofNat 32 (b2n w.autoinc)
  | 0x120 => pack [(31, b2n s.regs.wv.autonext), (8, s.regs.wv.item.toNat), (0, s.regs.wv.piece.toNat)]
  | 0x124 => pack [(28, (spGet 0 s.regs.wv.gen s.regs.wv.item.toNat).toNat), (16, s.regs.wv.pieces.toNat),
      (8, s.regs.wv.held.toNat), (1, b2n s.regs.wv.err), (0, b2n s.regs.wv.valid)]
  | k => getN s.regs.wv.data ((k - 0x130) / 4) 0

/-- The value an origin reads at an implemented BAR0 offset. -/
def bar0View (o : Origin) (off : Nat) (s : State) : Word :=
  if off < 0x1000 then headReg o off s
  else if off < 0x2000 then
    match s.mbx.chan[(off - 0x1000) / 0x100]? with
    | none => 0
    | some c =>
      match off % 0x100 with
      | 0x40 => 0
      | 0x44 => mbxStat c
      | 0x48 => c.ack
      | 0x00 => c.msg[0] &&& 0x0FFFFFFF
      | r => getN c.msg (r / 4) 0
  else if off < 0x2400 then
    match off with
    | 0x2000 => s.mbx.dbStat
    | 0x2004 => s.mbx.dbMask
    | 0x2008 => ofBits 32 (fun b => (getN s.mbx.ticket b {}).done)
    | 0x200C => ofBits 32 (fun b => (getN s.mbx.ticket (32 + b) {}).done)
    | 0x2010 => ofBits 32 (fun b => (getN s.mbx.ticket b {}).held)
    | 0x2014 => ofBits 32 (fun b => (getN s.mbx.ticket (32 + b) {}).held)
    | _ => s.mbx.heartbeat
  else if off < 0x2F00 then getN (getN s.mbx.ticket ((off - 0x2400) / 0x20) {}).slot (off % 0x20 / 4) 0
  else if off < 0x3000 then
    match off with
    | 0x2F00 => s.pcie.msixAddrLo
    | 0x2F04 => s.pcie.msixAddrHi
    | 0x2F08 => s.pcie.msixData
    | 0x2F0C => BitVec.ofNat 32 (b2n s.pcie.msixVecMask)
    | 0x2F80 => BitVec.ofNat 32 (b2n s.irq.msixPending)
    | _ => 0
  else if off < 0x4000 then
    match s.ing.stream[(off - 0x3000) / 8]? with
    | none => 0
    | some m => if off % 8 = 0 then pack [(16, m.sqHead.toNat), (0, m.sqTail.toNat)]
        else pack [(16, m.cqTail.toNat), (0, m.cqHead.toNat)]
  else if off < 0x5000 then
    match s.dma.chan[(off - 0x4000) / 0x200]? with
    | none => 0
    | some c => dmaReg c (off % 0x200)
  else if off < 0x6000 then
    let src := (off - 0x5000) / 0x80
    if !srcOn src s then resetReg src (off % 0x80) s
    else match off % 0x80 with
    | 0x00 => causeView src s
    | 0x04 => getN s.irq.mask src 0
    | r => blockReg src r s
  else if off < 0xC000 then
    if off % 8 = 0 then (counterValue off s).truncate 32
    else if !counterOn (off - 4) s then 0
    else BitVec.ofNat 32 (spGet 0 (shadowsOf o s) (off - 4)).toNat
  else
    match off with
    | 0xC000 => dbgStat s
    | 0xC004 => pack [(16, if s.dbg.wdArmed then 2000 else 0), (0, s.dbg.wdRemain)]
    | 0xC008 => diagArmed s
    | _ => diagLoop s

/-! ### Windows: starting accesses -/

/-- A read of the window's address begins, or ends at once with an error; the I2C window's BAR0 words arrive at once
(R166, R167, R171, Table 04-4). -/
def startPrefetch (o : Origin) (s : State) : State :=
  let a := (winOf o s).addr.toNat
  let s := modWin o (fun w => { w with ready := false, err := 0, far := .idle }) (abandonFar o s)
  if a < 0x10000000 then
    if o = .i2c then
      if decide (a < 0x10000) && implemented a then
        let v := bar0View .i2c a s
        let s := if isCounter a && decide (a % 8 = 0) then
            { s with regs.shI2c := spSet 0 s.regs.shI2c a ((counterValue a s >>> 32).truncate 16) } else s
        farWord o v s
      else farError o 1 s
    else farError o 6 s
  else if !farMapped a then farError o 1 s
  else if !farOnline a s then farError o 3 s
  else queueFar { origin := o, write := false, addr := a, value := 0, live := true }
    (modWin o (fun w => { w with far := .read a }) s)

/-- IND_ADDR is written (R198). -/
def writeAddr (o : Origin) (v : Word) (s : State) : State :=
  startPrefetch o (modWin o (fun w => { w with addr := v &&& 0xFFFFFFFC }) s)

/-- The word at IND_DATA was taken with AUTOINC set: the address advances and the next prefetch starts (R169). -/
def advanceRead (o : Origin) (s : State) : State :=
  startPrefetch o (modWin o (fun w => { w with addr := w.addr + 4 }) s)

/-- A far write is posted to the window's address (R170, R173, R583). -/
def postFar (o : Origin) (v : Word) (s : State) : State :=
  let a := (winOf o s).addr.toNat
  let s := modWin o (fun w => { w with ready := false, err := 0, busy := true, far := .write a v
                                       addr := if w.autoinc then w.addr + 4 else w.addr }) (abandonFar o s)
  if a < 0x10000000 then farError o 6 s
  else if !farMapped a then farError o 1 s
  else if !farWritable a then farError o 2 s
  else if !farOnline a s then farError o 3 s
  else if (gondolaOf a).any (fun n => s.trn[n].gate) then farError o 2 s
  else queueFar { origin := o, write := true, addr := a, value := v, live := true } s

/-! ### Reads that change state (R154, Table 04-2) -/

/-- The effect of a read on the state, by origin. -/
def bar0Effect (o : Origin) (off : Nat) (s : State) : State :=
  let s := if isCounter off && decide (off % 8 = 0) then
      let v : BitVec 16 := (counterValue off s >>> 32).truncate 16
      match o with
      | .pcie => { s with regs.shPcie := spSet 0 s.regs.shPcie off v }
      | .i2c => { s with regs.shI2c := spSet 0 s.regs.shI2c off v }
      | .debug => { s with regs.shDebug := spSet 0 s.regs.shDebug off v }
      | .sup => { s with regs.shSup := spSet 0 s.regs.shSup off v }
    else s
  let s := if off = 0x104 ∧ (o = .pcie ∨ o = .debug) ∧ (winOf o s).ready = true ∧ (winOf o s).autoinc = true then
      advanceRead o s else s
  if o ≠ .pcie then s
  else if off = 0x13C then
    let w := s.regs.wv
    if !w.valid then s
    else
      let next := w.autonext && decide (w.piece.toNat + 1 < w.pieces.toNat)
      { s with regs.wv := { w with valid := false, loading := next, piece := if next then w.piece + 1 else w.piece } }
  else if 0x1000 ≤ off ∧ off < 0x1A00 ∧ off % 0x100 = 0x44 then
    { s with mbx.chan := updN s.mbx.chan ((off - 0x1000) / 0x100) (fun c =>
        { c with taken := false, done := false, ca := false }) }
  else if 0x5000 ≤ off ∧ off < 0x5E00 then
    let src := (off - 0x5000) / 0x80
    match off % 0x80 with
    | 0x00 => { s with irq.cause := updN s.irq.cause src (fun _ => 0) }
    | 0x10 => if 11 ≤ src ∧ src < 19 then
        { s with irq.trn := updN s.irq.trn (src - 11) (fun t => { t with link := 0 }) } else s
    | 0x20 => if 11 ≤ src ∧ src < 19 then
        { s with irq.trn := updN s.irq.trn (src - 11) (fun t => { t with servo := 0 }) } else s
    | 0x30 => if 11 ≤ src ∧ src < 19 then
        { s with irq.trn := updN s.irq.trn (src - 11) (fun t => { t with verify := 0 }) } else s
    | _ => s
  else s

/-- A request answered with Unsupported Request: UR_COUNT and UR_SENT (R160, R831). -/
def urBar0 (off : Nat) (s : State) : State := emit (.unsupported off) (setLeaf 1 4 (count 0x8000 1 s))

/-- A read of a BAR0 register: its value goes out, then it changes what it changes (R155, R192); a reserved location is
answered with Unsupported Request, over PCIe (R158). -/
def bar0Read (o : Origin) (off : Nat) (s : State) : State :=
  if implemented off then bar0Effect o off (emit (.readData o off (bar0View o off s)) s)
  else if o = .pcie then urBar0 off s
  else s

/-! ### Writes -/

/-- The origin whose writes a channel accepts (Table 06-1). -/
def chanOrigin (c : Nat) : Origin := if c = 9 then .debug else if c = 8 then .i2c else .pcie

/-- Why a write is refused. -/
inductive WriteRefusal where
  | reserved
  | owner
  | busy
  | full (c : Nat)
  deriving DecidableEq, Repr

/-- The first refusal of a write (R158, R171, R240, R243, R244). While MBX_8 is FULL every word that targets it is refused. -/
def writeRefused (o : Origin) (off : Nat) (s : State) : Option WriteRefusal :=
  if o = .i2c ∧ 0x1800 ≤ off ∧ off < 0x1900 ∧ s.mbx.chan[8].full = true then some (.full 8)
  else if !implemented off then some .reserved
  else if (off = 0x100 ∨ off = 0x104 ∨ off = 0x10C) ∧ (winOf o s).busy = true then some .busy
  else if 0x1000 ≤ off ∧ off < 0x1A00 ∧ off % 0x100 < 0x44 then
    let c := (off - 0x1000) / 0x100
    if o ≠ chanOrigin c then some .owner
    else if (getN s.mbx.chan c {}).full then some (.full c)
    else none
  else none

/-- FW_STATE has read READY since the last reset; the safe state of R737, entered before that, does not count (R203). -/
def fwUp (s : State) : Bool := (fwReady s || fwSafe s) && s.boot.phase == .running

/-- Registers whose PCIe and I2C writes are accepted before READY (R203). -/
def earlyWritable (off : Nat) : Bool :=
  [0x14, 0x24, 0x28, 0x5B84].contains off || decide (0x1000 ≤ off ∧ off < 0x1A00) ||
  decide (0x2F00 ≤ off ∧ off < 0x2F88) || decide (0x100 ≤ off ∧ off < 0x200)

/-- The write completes and is discarded (R156, R203). -/
def writeDiscarded (o : Origin) (off : Nat) (s : State) : Bool :=
  if fwUp s then
    match regDomain off with
    | some d => !domOn d s
    | none => false
  else (o == .pcie || o == .i2c) && !earlyWritable off

/-- DESC_ERR, with what DMA_ERR_INFO records (Table 07-20). -/
def descErr (chan strm detail kind : Nat) (s : State) : State :=
  raise1 2 (leafCode 0 0) 0 [] { s with dma.errInfo := pack [(24, chan), (16, strm), (8, detail), (0, kind)] }

/-- STRM_s_SQ is written (R298, R320, R322). A DETACHED stream has no rings for a doorbell (log 104), nor has one attached
with a CQ alone (log 177, DEDUCED). -/
def writeSqTail (i : Strm) (v : Nat) (s : State) : State :=
  let m := s.ing.stream[i]
  match m.rings with
  | none => descErr 0xFF i.val 0 3 s
  | some r =>
    if !r.hasSq || m.state == .detached then descErr 0xFF i.val 0 3 s
    else if v ≥ 2 ^ r.sqLog then descErr 0xFF i.val 0 1 s
    else modStream i (fun m => { m with sqTail := BitVec.ofNat 16 v }) s

/-- STRM_s_CQ is written (R298, R321, R322); room may let receive buffers be posted (R364). -/
def writeCqHead (i : Strm) (v : Nat) (s : State) : State :=
  let m := s.ing.stream[i]
  match m.rings with
  | none => descErr 0xFF i.val 0 3 s
  | some r =>
    if m.state = .detached then descErr 0xFF i.val 0 3 s
    else
      let n := 2 ^ r.cqLog
      if v ≥ n ∨ (v + n - m.cqHead.toNat) % n > (m.cqTail.toNat + n - m.cqHead.toNat) % n then descErr 0xFF i.val 0 2 s
      else postBuffers (postHeld i m.held.length (modStream i (fun m => { m with cqHead := BitVec.ofNat 16 v }) s))

def modHost (c : Fin 8) (f : HostChan → HostChan) (s : State) : State := { s with dma.chan := upd s.dma.chan c f }

/-- A host channel halts with a code and detail (R330, Table 07-16). -/
def haltHost (c : Fin 8) (code detail : Nat) (s : State) : State :=
  raise1 2 (leafCode 0 2) 0 [] (modHost c (fun h => { h with
    halted := true, code := BitVec.ofNat 16 code, detail := BitVec.ofNat 8 detail, desc := none, asked := false
    head := if h.enable then h.head else 0, rewind := h.rewind && h.enable }) s)

/-- DMA_c_CTRL.ENABLE is set (R315, Table 07-16). -/
def enableHost (c : Fin 8) (s : State) : State :=
  let h := s.dma.chan[c]
  if h.enable then s
  else
    let s := modHost c (fun h => { h with enable := true, halted := false }) s
    if h.log2.toNat < 4 ∨ h.log2.toNat > 12 then haltHost c rParam 0x09 s else s

/-- DMA_c_CTRL.ENABLE is cleared: at once where no descriptor is in progress, else the channel goes to index 0 after it
(R325). -/
def disableHost (c : Fin 8) (s : State) : State :=
  modHost c (fun h => { h with
    enable := false, fetching := false, head := if h.desc.isSome then h.head else 0, rewind := h.desc.isSome }) s

/-- DMA_c_CTRL.RESUME on a halted channel: HEAD passes the failed descriptor (R330), or is 0 where ENABLE was cleared and set
again while that descriptor was in progress (R325; log 181). -/
def resumeHost (c : Fin 8) (s : State) : State :=
  let h := s.dma.chan[c]
  if h.halted then
    modHost c (fun h => { h with
      halted := false, rewind := false
      head := if h.rewind then 0 else BitVec.ofNat 12 ((h.head.toNat + 1) % 2 ^ h.log2.toNat) }) s
  else s

/-- A host channel's register is written (Tables 07-14 to 07-18). -/
def writeHost (c : Fin 8) (r : Nat) (v : Word) (s : State) : State :=
  match r with
  | 0x00 => modHost c (fun h => { h with ringLo := v &&& 0xFFFFF000 }) s
  | 0x04 => modHost c (fun h => { h with ringHi := v }) s
  | 0x08 => modHost c (fun h => { h with log2 := v.truncate 4 }) s
  | 0x0C => modHost c (fun h => { h with tail := v.truncate 12 }) s
  | 0x14 =>
    let s := if v.getLsbD 2 then resumeHost c s else s
    if v.getLsbD 0 then enableHost c s else disableHost c s
  | _ => s

/-- Tickets named by ones in CQ_DONE_k that are completed become free (R255). -/
def releaseTickets (k : Nat) (v : Word) (s : State) : State :=
  (List.range 32).foldl (fun s b =>
    if v.getLsbD b then modTicket (32 * k + b) (fun t => if t.done then { t with held := false, done := false } else t) s
    else s) s

/-- GO is set on a channel (R242, R277, R278). -/
def go (c : Chan) (s : State) : State :=
  if !fwUp s || s.mbx.resetDue || s.power.standbyAcked then
    modChan c (fun k => { k with ack := pack [(24, field k.msg[0] 16 8), (0, rBusy)], done := true }) s
  else modChan c (fun k => { k with full := true }) s

/-- A mailbox channel's register is written (Tables 06-15 to 06-18). -/
def writeChan (c : Chan) (r : Nat) (v : Word) (s : State) : State :=
  match r with
  | 0x40 => if v.getLsbD 0 then go c s else s
  | 0x44 => if c.val = 8 ∧ v.getLsbD 5 = true then modChan c (fun k => { k with nacked := false }) s else s
  | 0x48 => s
  | 0x00 => modChan c (fun k => { k with msg := k.msg.set 0 (v &&& 0x0FFFFFFF) }) s
  | r => modChan c (fun k => { k with msg := updN k.msg (r / 4) (fun _ => v) }) s

/-- The QSPI pads of Table 02-6: the controller drives CLK and CS_N from its start on, CS_N high while no transfer runs; in
reset they and the IO pads, and TDO outside a shift, are Hi-Z (R65, R86). -/
inductive QspiPad where
  | clk | csN | io
  deriving DecidableEq, Repr

/-- The formatter drives the QSPI pad between transfers. -/
def qspiDriven (p : QspiPad) (s : State) : Bool := s.boot.qspiOn && p != .io

/-- What an undriven QSPI pad's weak resistor pulls it to (Table 02-6). -/
def qspiPull : QspiPad → Bool
  | .clk => false
  | .csN => true
  | .io => true

/-- Function codes that drive the pad: outputs, interlock outputs, LED (Table 02-19). -/
def auxDrives (f : BitVec 4) : Bool := ([2, 3, 5, 6, 8] : List (BitVec 4)).contains f

/-- Open-drain function codes (Table 02-19). -/
def auxOpenDrain (f : BitVec 4) : Bool := f == 3 || f == 6

/-- The pin is sampled: every function but DISABLED and the reserved codes. -/
def auxSampled (f : BitVec 4) : Bool := decide (1 ≤ f.toNat ∧ f.toNat ≤ 8)

/-- The logical level that the function of pin `k` drives (Table 02-8). -/
def auxLogical (k : Fin 24) (s : State) : Bool :=
  let n : Trn := Fin.ofNat 8 k.val
  let f := s.aux.pin[k].active
  if f = 2 ∨ f = 3 then s.aux.out.getLsbD k.val
  else if f = 5 ∨ f = 6 then fwReady s && !s.faults.safe
  else if s.trn[n].degraded then s.aux.wave
  else decide (s.trn[n].motion = 1 ∨ s.trn[n].motion = 2 ∨ s.trn[n].motion = 3)

/-- The level the formatter drives on the pad of pin `k`; none while the pad is released: parked, tripped, an input, an
open-drain 1, in the safe state, or in the hands of boundary scan (Table 02-9, R84, Table 05-5, R772). -/
def auxPad (k : Fin 24) (s : State) : Option Bool :=
  let p := s.aux.pin[k]
  if p.parked || padctl s || s.faults.safe || s.aux.cont.getLsbD k.val || !auxDrives p.active then none
  else
    let pad := auxLogical k s ^^ s.aux.pol.getLsbD k.val
    if auxOpenDrain p.active && pad then none else some pad

/-- An output pad of the boundary chain with a level of its own (Table 02-6). -/
inductive OutPad where
  | intN | wakeN | thermN
  | qspi (p : QspiPad)
  | aux (k : Fin 24)
  deriving DecidableEq, Repr

/-- A number for the pad. -/
def OutPad.index : OutPad → Nat
  | .aux k => k.val
  | .intN => 24
  | .wakeN => 25
  | .thermN => 26
  | .qspi .clk => 27
  | .qspi .csN => 28
  | .qspi .io => 29

/-- The level its function drives on an output pad; none where it is released. -/
def funcPad (p : OutPad) (s : State) : Option Bool :=
  let low (on : Bool) : Option Bool := if on then some false else none
  match p with
  | .intN => low s.irq.intN
  | .wakeN => low s.aon.wakeN
  | .thermN => low s.therm.thermN
  | .qspi .clk => low (qspiDriven .clk s)
  | .qspi .csN => if qspiDriven .csN s then some true else none
  | .qspi .io => none
  | .aux k => auxPad k s

/-- The level on an output pad: the boundary register's in EXTEST and CLAMP, none in HIGHZ, else its function's (R772). -/
def outPad (p : OutPad) (s : State) : Option Bool :=
  if s.dm.ir = 0x08 then none
  else if padctl s then Config.boundaryPad p.index s.dm.boundary
  else funcPad p s

/-- The pad's level as the formatter knows it: the one it drives, else the last one its debounce accepted (log 162). -/
def padKnown (k : Fin 24) (s : State) : Option Bool :=
  let p := s.aux.pin[k]
  match auxPad k s with
  | some b => some b
  | none => if auxSampled p.active && p.started then some (p.level ^^ s.aux.pol.getLsbD k.val) else none

/-- Pin `k` takes function code `code`: where that changes its code it parks, or parks anew, and the weak keeper holds the
pad's last level (R76, R78, Table 02-9). -/
def takeFunc (k : Fin 24) (code : BitVec 4) (s : State) : State :=
  let p := s.aux.pin[k]
  if p.fn = code then s
  else { s with aux.pin := upd s.aux.pin k (fun p => { p with
      fn := code, parked := true, keeper := if p.parked then p.keeper else padKnown k s }) }

/-- Pins 8j to 8j + 7 take function codes (R76, R78, Table 02-17). -/
def writeAuxFunc (j : Nat) (v : Word) (s : State) : State :=
  (List.range 8).foldl (fun s m => takeFunc (Fin.ofNat 24 (8 * j + m)) (BitVec.ofNat 4 (field v (4 * m) 4)) s) s

/-- A cause block's register is written (Tables 05-10, 02-12 to 02-17, 07-20, 09-7, 09-10 to 09-12). -/
def writeBlock (src r : Nat) (v : Word) (s : State) : State :=
  if r = 0x04 then
    { s with irq.mask := updN s.irq.mask src (fun _ => v &&& getN leafBits src 0) }
  else
    match src, r with
    | 2, 0x40 => { s with dma.hdone := s.dma.hdone &&& ~~~(v.truncate 8) }
    | 6, 0x40 => { s with stg.mergeMode := v.getLsbD 0 }
    | 6, 0x4C => { s with stg.flipCtrl := v &&& 0xFFFCFFFF }
    | 6, 0x50 => { s with stg.flipLo := v &&& 0xFFFFFFC0 }
    | 6, 0x54 => { s with stg.flipHi := v &&& 0x0000001F }
    | 27, 0x0C => { s with aux.out := v.truncate 24 }
    | 27, 0x10 => { s with aux.pol := v.truncate 24 }
    | 27, 0x14 => { s with aux.cont := s.aux.cont &&& ~~~(v.truncate 24) }
    | 27, 0x18 => writeAuxFunc 0 v s
    | 27, 0x1C => writeAuxFunc 1 v s
    | 27, 0x20 => writeAuxFunc 2 v s
    | k, 0x14 => if 11 ≤ k ∧ k < 19 then
        { s with irq.trn := updN s.irq.trn (k - 11) (fun t => { t with linkMask := v &&& 0x7F }) } else s
    | k, 0x24 => if 11 ≤ k ∧ k < 19 then
        { s with irq.trn := updN s.irq.trn (k - 11) (fun t => { t with servoMask := v &&& 0x7 }) } else s
    | k, 0x34 => if 11 ≤ k ∧ k < 19 then
        { s with irq.trn := updN s.irq.trn (k - 11) (fun t => { t with verifyMask := v &&& 0xF }) } else s
    | _, _ => s

/-- FW_LOAD is written: heeded in WAIT_HOST only (R148, R149). While a host image is checked STATE stays WAIT_HOST, and
writes of FW_LOAD are not heeded; the spec names neither (log 171, DEDUCED). -/
def writeFwLoad (v : Word) (s : State) : State :=
  if s.boot.fwState = 2 ∧ s.boot.checking = false then
    { s with boot.loadLength := v.truncate 23, boot.checking := v.getLsbD 31 }
  else s

/-- INT_CTRL is written (R207, R210, R218). A second end-of-interrupt write during the 2 µs release does not begin it anew:
there is one release and one end of it (log 174, DESIGN CHOICE). -/
def writeIntCtrl (v : Word) (s : State) : State :=
  let s := { s with irq.pinOff := v.getLsbD 17, irq.holdoff := v.truncate 16 }
  if v.getLsbD 16 = true ∧ attentionNow s = true then callMsix { s with irq.eoiRelease := true } else s

/-- WV_SEL is written: the selected piece is loaded anew (R185, R199). -/
def writeWvSel (v : Word) (s : State) : State :=
  { s with regs.wv := { s.regs.wv with
      autonext := v.getLsbD 31, item := BitVec.ofNat 8 (field v 8 8), piece := v.truncate 8
      valid := false, err := false, loading := true } }

/-- The HOST_WRITE entry of a write by the host, the I2C window or the debug port (R739, Table 18-2). -/
def hostWriteEntry (o : Origin) (off : Nat) (v : Word) (s : State) : State :=
  match o with
  | .sup => s
  | .pcie => logEntry 0x20 (off + 2 ^ 32 * v.toNat) [] s
  | .i2c => logEntry 0x20 (off + 2 ^ 16 + 2 ^ 32 * v.toNat) [] s
  | .debug => logEntry 0x20 (off + 2 ^ 17 + 2 ^ 32 * v.toNat) [] s

/-- A word reaches the register at an offset. -/
def storeReg (o : Origin) (off : Nat) (v : Word) (s : State) : State :=
  if off < 0x1000 then
    match off with
    | 0x014 => writeFwLoad v s
    | 0x024 => { s with irq.summaryMask := v &&& 0x0FFFFFFF }
    | 0x028 => writeIntCtrl v s
    | 0x100 => writeAddr o v s
    | 0x104 => postFar o v s
    | 0x10C => modWin o (fun w => { w with autoinc := v.getLsbD 0 }) s
    | 0x120 => writeWvSel v s
    | _ => s
  else if off < 0x2000 then
    if h : (off - 0x1000) / 0x100 < 10 then writeChan ⟨(off - 0x1000) / 0x100, h⟩ (off % 0x100) v s else s
  else if off < 0x3000 then
    match off with
    | 0x2000 => { s with mbx.dbStat := s.mbx.dbStat &&& ~~~v }
    | 0x2004 => { s with mbx.dbMask := v }
    | 0x2008 => releaseTickets 0 v s
    | 0x200C => releaseTickets 1 v s
    | 0x2F00 => { s with pcie.msixAddrLo := v }
    | 0x2F04 => { s with pcie.msixAddrHi := v }
    | 0x2F08 => { s with pcie.msixData := v }
    | 0x2F0C => { s with pcie.msixVecMask := v.getLsbD 0 }
    | _ => s
  else if off < 0x4000 then
    if h : (off - 0x3000) / 8 < 64 then
      if off % 8 = 0 then writeSqTail ⟨(off - 0x3000) / 8, h⟩ (field v 0 16) s
      else writeCqHead ⟨(off - 0x3000) / 8, h⟩ (field v 0 16) s
    else s
  else if off < 0x5000 then
    if h : (off - 0x4000) / 0x200 < 8 then writeHost ⟨(off - 0x4000) / 0x200, h⟩ (off % 0x200) v s else s
  else if off < 0x6000 then writeBlock ((off - 0x5000) / 0x80) (off % 0x80) v s
  else s

/-- An accepted write takes effect: its log entry, matching parity (R165), the register. -/
def writeReg (o : Origin) (off : Nat) (v : Word) (s : State) : State :=
  storeReg o off v (dropParity (fun x => decide (x = off)) (hostWriteEntry o off v s))

/-- A byte the I2C target NACKs (R180). -/
def nack (s : State) : State := emit (.i2cAck false) (count 0x8010 1 s)

/-- A write is refused the way its origin sees it: Unsupported Request, Completer Abort, a NACK, or sberror 7 or 2. -/
def refuseWrite (o : Origin) (off : Nat) (w : WriteRefusal) (s : State) : State :=
  match o, w with
  | .pcie, .full c => emit (.completerAbort off) (count (0x8100 + 8 * c) 1 (setLeaf 0 1
      { s with mbx.chan := updN s.mbx.chan c (fun k => { k with ca := true }) }))
  | .pcie, .busy => urBar0 off (count 0x8008 1 s)
  | .pcie, _ => urBar0 off s
  | .i2c, .full c => nack (count 0x8140 1 (setLeaf 0 2
      { s with mbx.chan := updN s.mbx.chan c (fun k => { k with nacked := true }) }))
  | .i2c, _ => nack s
  | .debug, .reserved => count 0x8E00 1 { s with dm.sberror := 2 }
  | .debug, _ => count 0x8E00 1 { s with dm.sberror := 7 }
  | .sup, _ => s

/-- A write of one word to BAR0. -/
def bar0Write (o : Origin) (off : Nat) (v : Word) (s : State) : State :=
  match writeRefused o off s with
  | some w => refuseWrite o off w s
  | none => if writeDiscarded o off s then s else writeReg o off v s

end Sys2Proof.Machine
end

