-- ==== Sys2Proof/Machine/FamRegs.lean ====
section
/-!
DEFINITION. Register accesses of the four origins, the windows into far space, the wide-value port, mailbox and doorbell
registers, and the I2C target (ch04, ch06, ch07).
-/
namespace Sys2Proof.Machine
open Sys2Proof

/-- The state after a command: its effect `f`, and what follows from any command. -/
def done (f : State → State) (s : State) : Host.Outcome State Fault Refusal := .next (settle s (f s))

/-- The origin can reach the registers: PCIe once the controller answers, the I2C window in an open transaction, the debug
port while PD_SUP is up, SUP while firmware runs (R87, ch02; R128, ch03; R154, ch04; R769). -/
def originUp (o : Origin) (s : State) : Bool :=
  match o with
  | .pcie => s.pcie.cfgUp && !s.aon.perstLow
  | .i2c => s.i2c.enabled
  | .debug => s.boot.phase != .held && s.boot.phase != .pll && s.boot.phase != .standby && s.boot.phase != .copying
  | .sup => s.boot.phase == .running || s.boot.phase == .init

/-- The debug agent uses its module, which is active from then on (log 27). -/
def useModule (o : Origin) (s : State) : State := if o = .debug then { s with dm.dmactive := true } else s

def readBy (o : Origin) (off : Nat) (s : State) : State := if originUp o s then bar0Read o off (useModule o s) else s
def writeBy (o : Origin) (off : Nat) (v : Word) (s : State) : State :=
  if originUp o s then bar0Write o off v (useModule o s) else s

/-! ### The I2C window's own accesses (R175 to R179) -/

/-- SET_ADDR's fourth byte: NACKed while BUSY, unaligned, reserved or unmapped; else the window moves (R176). -/
def i2cSetAddr (a : Word) (s : State) : State :=
  let n := a.toNat
  if s.regs.winI2c.busy || decide (n % 4 ≠ 0) ||
      !(if n < 0x10000 then implemented n else decide (n ≥ 0x10000000) && farMapped n) then nack s
  else writeAddr .i2c a s

/-- One word of WRITE goes to the window address (R177). -/
def i2cWriteWord (v : Word) (s : State) : State :=
  let w := s.regs.winI2c
  let a := w.addr.toNat
  if w.busy then nack s
  else if a < 0x10000000 then
    if a ≥ 0x10000 ∨ implemented a = false then nack s
    else
      match writeRefused .i2c a s with
      | some r => refuseWrite .i2c a r s
      | none =>
        let s := bar0Write .i2c a v (abandonFar .i2c s)
        modWin .i2c (fun w => { w with
          addr := if w.autoinc then w.addr + 4 else w.addr, ready := false, err := 0, far := .idle }) s
  else if !farMapped a then nack s
  else postFar .i2c v s

/-- Whole words of a WRITE, in order; bytes of a word not yet complete wait for the rest (R178). -/
def i2cWrite : List Byte → State → State
  | a :: b :: c :: d :: t, s => i2cWrite t (i2cWriteWord (wordAt [a, b, c, d] 0) s)
  | rest, s => { s with i2c.partialBytes := rest }

/-- `n` bytes of READ_DATA from byte `k` of the prefetched word (R175, R179). -/
def i2cReadBytes : Nat → Nat → State → List Byte × State
  | 0, _, s => ([], s)
  | n + 1, k, s =>
    let w := s.regs.winI2c
    if !w.ready then
      let r := i2cReadBytes n k (modWin .i2c (fun w => { w with err := 7 }) s)
      (0xFF :: r.1, r.2)
    else
      let b := BitVec.ofNat 8 (field w.data (8 * k) 8)
      let s := if k = 3 ∧ w.autoinc = true then advanceRead .i2c s else s
      let r := i2cReadBytes n ((k + 1) % 4) s
      (b :: r.1, r.2)

/-- I2C commands reach the target in a transaction it has acknowledged, unless boundary scan holds its pins (R772). -/
def i2cOpen (s : State) : Bool := s.i2c.enabled && s.i2c.addressed && !padctl s

/-- A start condition and an address: the strapped address opens a transaction (R70, R87, R772). -/
def execI2cAddress (a : BitVec 7) (s : State) : Host.Outcome State Fault Refusal :=
  done (fun s =>
    if padctl s then s
    else
    let mine := s.i2c.enabled && a == BitVec.ofNat 7 (0x58 + field s.aon.straps 2 2)
    emit (.i2cAck mine) { s with i2c.addressed := mine, i2c.partialBytes := [] }) s

/-- SET_ADDR (R175, R176, R178). -/
def execSetAddr (a : List Byte) (s : State) : Host.Outcome State Fault Refusal :=
  done (fun s =>
    if !i2cOpen s then s
    else if a.length < 4 then { s with i2c.partialBytes := a }
    else i2cSetAddr (wordAt a 0) { s with i2c.partialBytes := [] }) s

/-- WRITE (R175, R177). -/
def execWrite (bytes : List Byte) (s : State) : Host.Outcome State Fault Refusal :=
  done (fun s => if i2cOpen s then i2cWrite bytes s else s) s

/-- SET_CTRL (R171, R175). -/
def execSetCtrl (c : Byte) (s : State) : Host.Outcome State Fault Refusal :=
  done (fun s =>
    if !i2cOpen s then s
    else if s.regs.winI2c.busy then nack s
    else modWin .i2c (fun w => { w with autoinc := c.getLsbD 0 }) s) s

/-- READ_STAT (R175). -/
def execReadStat (s : State) : Host.Outcome State Fault Refusal :=
  done (fun s =>
    if !i2cOpen s then s
    else
      let w := s.regs.winI2c
      emit (.i2cRead [BitVec.ofNat 8 (b2n w.ready + 2 * b2n w.busy + 16 * w.err.toNat)]) s) s

/-- READ_DATA (R175, R179). -/
def execReadData (n : Nat) (s : State) : Host.Outcome State Fault Refusal :=
  done (fun s =>
    if !i2cOpen s then s
    else
      let r := i2cReadBytes n 0 s
      emit (.i2cRead r.1) r.2) s

/-- A command byte not in Table 04-5 is NACKed (R176, R180). -/
def execI2cUnknownCommand (cmd : Byte) (s : State) : Host.Outcome State Fault Refusal :=
  done (fun s =>
    if !i2cOpen s || ([0x10, 0x11, 0x12, 0x20, 0x21] : List Byte).contains cmd then s else nack s) s

/-- A stop or repeated start discards a partial word (R178). -/
def execI2cStopMidWord (s : State) : Host.Outcome State Fault Refusal :=
  done (fun s => if padctl s then s else { s with i2c.partialBytes := [], i2c.addressed := false }) s

/-! ### Mailbox, doorbell and ticket registers -/

/-- A write of MBX_n_CTRL (R242 to R244, R277). -/
def execMbxGo (o : Origin) (ch : Chan) (v : Word) (s : State) : Host.Outcome State Fault Refusal :=
  done (writeBy o (0x1040 + 0x100 * ch.val) v) s

/-- A write to a channel's registers by its own origin, refused while FULL (R243, R244). -/
def execMbxWriteWhileFull (ch : Chan) (reg : Fin 18) (v : Word) (s : State) : Host.Outcome State Fault Refusal :=
  done (writeBy (chanOrigin ch.val) (0x1000 + 0x100 * ch.val + 4 * reg.val) v) s

/-- A read of MBX_n_STAT (R154). -/
def execMbxStatRead (o : Origin) (ch : Chan) (s : State) : Host.Outcome State Fault Refusal :=
  done (readBy o (0x1044 + 0x100 * ch.val)) s

/-- A write of CQ_DONE_k (R255). -/
def execCqDoneRelease (o : Origin) (k : Fin 2) (v : Word) (s : State) : Host.Outcome State Fault Refusal :=
  done (writeBy o (0x2008 + 4 * k.val) v) s

/-- A write of DB_STAT (R259). -/
def execDbStatClear (o : Origin) (v : Word) (s : State) : Host.Outcome State Fault Refusal :=
  done (writeBy o 0x2000 v) s

/-- The heartbeat, while HEARTBEAT_MS is not zero and the core runs (R260). -/
def execHeartbeat (s : State) : Host.Outcome State Fault Refusal :=
  done (fun s => if s.mbx.config.heartbeatMs ≠ 0 ∧ supRuns s = true then
    ring 12 { s with mbx.heartbeat := s.mbx.heartbeat + 1 } else s) s

/-- The millisecond after SYS.RESET's ACK ends (R282). -/
def execSysResetDelayExpiry (s : State) : Host.Outcome State Fault Refusal :=
  done (fun s => if s.mbx.resetDue then enterReset 8 0 s else s) s

/-! ### Reads and writes of BAR0 -/

/-- A read of a register; over PCIe its RC fields clear (R154, R192). -/
def execRcFieldRead (o : Origin) (off : Nat) (s : State) : Host.Outcome State Fault Refusal := done (readBy o off) s

/-- A read of a counter's _LO word (R182, R194). -/
def execCounterLoRead (o : Origin) (off : Nat) (s : State) : Host.Outcome State Fault Refusal := done (readBy o off) s

/-- A write of a register (R159, R161, R203). -/
def execConfigWrite (o : Origin) (off : Nat) (v : Word) (s : State) : Host.Outcome State Fault Refusal :=
  done (writeBy o off v) s

/-- A BAR0 request of `len` DWs at `off` with these byte enables is accepted: one DW, or two at the MSI-X table and the
Pending Bit Array (R157, R158, R294). -/
def bar0Accepts (off len : Nat) (be : BitVec 4) : Bool :=
  implemented off && be == 0xF &&
    (decide (len = 1) || (decide (0x2F00 ≤ off ∧ off < 0x2F88) && decide (len = 2 ∧ off % 8 = 0)))

/-- The DWs of an accepted request, in rising order. -/
def serveDws (off len : Nat) (write : Option (List Word)) (s : State) : State :=
  (List.range len).foldl (fun s k => match write with
    | none => readBy .pcie (off + 4 * k) s
    | some ws => writeBy .pcie (off + 4 * k) (ws.getD k 0) s) s

/-- BAR0_UNSUPPORTED_REQUEST: answered with Unsupported Request, unless R294 accepts it; one that the PCIe controller refuses
sets UR_SENT and counts nowhere (R157, R158, R294, R831). -/
def execBar0UnsupportedRequest (off len : Nat) (be : BitVec 4) (kind : UrKind) (s : State) : Host.Outcome State Fault Refusal :=
  done (fun s =>
    if !originUp .pcie s then s
    else match kind with
      | .controller => setLeaf 1 4 s
      | .read => if bar0Accepts off len be then serveDws off len none s else urBar0 off s
      | .write ws => if bar0Accepts off len be then serveDws off len (some ws) s else urBar0 off s) s

/-- A poisoned BAR0 write (R201, R831). -/
def execBar0PoisonedWrite (_off : Nat) (_v : Word) (s : State) : Host.Outcome State Fault Refusal :=
  done (fun s => if originUp .pcie s then raise1 1 (leafCode 0 3) 0 [] s else s) s

/-- A write of FW_LOAD by the host (R148, R149). -/
def execFwLoadStart (v : Word) (s : State) : Host.Outcome State Fault Refusal := done (writeBy .pcie 0x14 v) s

/-- A write of INT_CTRL by the host (R218). -/
def execIntCtrlEoi (v : Word) (s : State) : Host.Outcome State Fault Refusal := done (writeBy .pcie 0x28 v) s

/-- The 2 µs release ends (R219). -/
def execEoiReleaseEnd (s : State) : Host.Outcome State Fault Refusal :=
  done (fun s => { s with irq.eoiRelease := false }) s

/-- The MSI-X hold-off ends (R210). -/
def execMsixHoldoffEnd (s : State) : Host.Outcome State Fault Refusal :=
  done (fun s =>
    let due := s.irq.msixDue
    let s := { s with irq.holdoffRuns := false, irq.msixDue := false }
    if due && attentionNow s then callMsix s else s) s

/-- A write of STRM_s_SQ by the host (R298, R320, R322). -/
def execStrmSqTailWrite (i : Strm) (v : Word) (s : State) : Host.Outcome State Fault Refusal :=
  done (writeBy .pcie (0x3000 + 8 * i.val) v) s

/-- A write of STRM_s_CQ by the host (R298, R321, R322). -/
def execStrmCqHeadWrite (i : Strm) (v : Word) (s : State) : Host.Outcome State Fault Refusal :=
  done (writeBy .pcie (0x3004 + 8 * i.val) v) s

/-- A write of DMA_c_TAIL by the host (R315). -/
def execDmaTailWrite (c : Fin 8) (v : Word) (s : State) : Host.Outcome State Fault Refusal :=
  done (writeBy .pcie (0x400C + 0x200 * c.val) v) s

/-- DMA_c_CTRL.ENABLE is written 1 (R315). -/
def execDmaEnable (o : Origin) (c : Fin 8) (s : State) : Host.Outcome State Fault Refusal :=
  done (writeBy o (0x4014 + 0x200 * c.val) 1) s

/-- DMA_c_CTRL.ENABLE is written 0 (R325). -/
def execDmaDisable (o : Origin) (c : Fin 8) (s : State) : Host.Outcome State Fault Refusal :=
  done (writeBy o (0x4014 + 0x200 * c.val) 0) s

/-- DMA_c_CTRL.RESUME is written 1, ENABLE kept (R330). -/
def execDmaResume (o : Origin) (c : Fin 8) (s : State) : Host.Outcome State Fault Refusal :=
  done (writeBy o (0x4014 + 0x200 * c.val) 5) s

/-- A write of DMA_HDONE by the host (R193). -/
def execDmaHdoneClear (o : Origin) (v : Word) (s : State) : Host.Outcome State Fault Refusal :=
  done (writeBy o 0x5140 v) s

/-- A write of 1 to MBX_8_STAT.NACKED (R193). -/
def execNackedClear (o : Origin) (s : State) : Host.Outcome State Fault Refusal := done (writeBy o 0x1844 0x20) s

/-! ### The indirect window (R166 to R174, R197, R198) -/

/-- IND_ADDR, or the I2C window's SET_ADDR. -/
def execIndAddrWrite (o : Origin) (v : Word) (s : State) : Host.Outcome State Fault Refusal :=
  done (fun s => if o = .i2c then (if originUp .i2c s then i2cSetAddr v s else s) else writeBy o 0x100 v s) s

/-- IND_DATA is read, or the I2C window reads one word. -/
def execIndDataRead (o : Origin) (s : State) : Host.Outcome State Fault Refusal :=
  done (fun s =>
    if o = .i2c then
      if originUp .i2c s then
        let r := i2cReadBytes 4 0 s
        emit (.i2cRead r.1) r.2
      else s
    else readBy o 0x104 s) s

/-- IND_DATA is written, or the I2C window writes one word. -/
def execIndDataWrite (o : Origin) (v : Word) (s : State) : Host.Outcome State Fault Refusal :=
  done (fun s => if o = .i2c then (if originUp .i2c s then i2cWriteWord v s else s) else writeBy o 0x104 v s) s

/-- A far register's word, as the state knows it or as the far side gave it: a polarity register, a gondola register
written or read before, or `v` (R172, Tables 02-20, 13-16). -/
def farValue (a : Nat) (v : Word) (s : State) : Word :=
  match gondolaOf a with
  | some n => (spGet none s.trn[n].gondola (a % 0x01000000)).getD v
  | none =>
    match laneOf a with
    | some i => if a % 0x10000 = 0 then BitVec.ofNat 32 s.regs.polarity[i].toNat else v
    | none => v

/-- The request that an answer to `o` ends: the one in service on the bus, where it is the origin's, else the one that
the origin waits for, where it is first in its queue (R197, R578). -/
def answeredFar (o : Origin) (s : State) : Option FarReq :=
  match s.regs.bus.head?.filter (fun q => decide (q.origin = o)) with
  | some q => some q
  | none =>
    match (winOf o s).far with
    | .idle => none
    | .read a => (farQueue a s).head?.filter (fun q => q.live && decide (q.origin = o ∧ q.addr = a))
    | .write a _ => (farQueue a s).head?.filter (fun q => q.live && decide (q.origin = o ∧ q.addr = a))

/-- A read in service ends with the far side's answer; the word of an abandoned prefetch is discarded (R172, R198, R202,
Table 04-4). -/
def readAnswered (q : FarReq) (reply : FarReply) (s : State) : State :=
  let s := popFar q.addr s
  if !q.live then s
  else
    match reply with
    | .farError => farError q.origin 5 s
    | .word v => farWord q.origin (farValue q.addr v s) s

/-- A write in service is acknowledged, or the far side reports an error and its register keeps its value (R170, R202). -/
def writeAnswered (q : FarReq) (ok : Bool) (s : State) : State :=
  let s := popFar q.addr s
  if ok then modWin q.origin (fun w => { w with busy := false, far := .idle }) (farApply q.addr q.value s)
  else farError q.origin 5 s

/-- The prefetched word arrives, or the far side reports an error. -/
def execFarPrefetchDone (win : Origin) (reply : FarReply) (s : State) : Host.Outcome State Fault Refusal :=
  done (fun s => match answeredFar win s with
    | some q => if q.write then s else readAnswered q reply s
    | none => s) s

/-- A far access without an answer for 100 µs ends with TIMEOUT; an abandoned one in service just ends (R174, R202). -/
def farTimeout (win : Origin) (s : State) : State :=
  let dead (q : FarReq) : Bool := !q.live && decide (q.origin = win)
  match (s.regs.bus.head?.filter dead), (allTrn.find? (fun n => (s.trn[n].far.head?.filter dead).isSome)) with
  | some q, _ => popFar q.addr s
  | none, some n => popFar (0x10000000 + n.val * 0x01000000) s
  | none, none =>
    let a := match (winOf win s).far with
      | .read a => some a
      | .write a _ => some a
      | .idle => none
    match a with
    | none => s
    | some a =>
      let first := ((farQueue a s).head?.map (fun q => decide (q.origin = win))).getD false
      farError win 4 (if first then popFar a s else abandonIn win a s)

def execFarAccessTimeout (win : Origin) (s : State) : Host.Outcome State Fault Refusal := done (farTimeout win) s

/-! ### The wide-value port -/

def execWvSelWrite (o : Origin) (v : Word) (s : State) : Host.Outcome State Fault Refusal := done (writeBy o 0x120 v) s

/-- The selected piece is loaded, or ERR sets (R185, R186). -/
def execWvPieceLoaded (s : State) : Host.Outcome State Fault Refusal :=
  done (fun s => if s.regs.wv.loading then wvLoad s else s) s

def execWvData3Read (o : Origin) (s : State) : Host.Outcome State Fault Refusal := done (readBy o 0x13C) s

end Sys2Proof.Machine
end

