-- ==== Sys2Proof/Machine/Channel.lean ====
section
/-!
DEFINITION. The read channel of VRF, from the equaliser's outputs to the decoded codeword: sync and erasure of lost channels,
the defect detector, the demodulator, the LDPC decoder and their global iterations; and the codeword's C2 and C3 (ch12, ch16).
-/
namespace Sys2Proof.Machine
open Sys2Proof

/-! ### Timing recovery (R674) -/

/-- One sync mark of a channel: whether it is found, whether the codeword after it is erased, and what timing recovery
holds then. The codeword after the eighth missed mark is erased too (log 190). -/
def syncStep (row : Nat) (mark : Option Int) (c : ChanLock) : (Bool × Bool) × ChanLock :=
  let lost := c.lost && row != 0
  let found := match mark with
    | some d => decide (d.natAbs ≤ (if c.seeking then 64 else 8))
    | none => false
  if found then ((true, lost), { missed := 0, lost := lost, seeking := false })
  else
    let gone := decide (c.missed + 1 ≥ 8)
    ((false, lost || gone), { missed := min 8 (c.missed + 1), lost := lost || gone, seeking := c.seeking || gone })

/-! ### The defect detector (Table 16-1, R675) -/

/-- Sums of magnitudes over windows of 64 equaliser outputs, `n` of them. -/
def windowSums : Nat → List Int → List Nat
  | 0, _ => []
  | n + 1, xs => (((xs.take 64).map Int.natAbs).sum) :: windowSums n (xs.drop 64)

/-- Window `w` stands below 40 % or above 200 % of the running mean over the 64 windows that end with it. -/
def defect (ws : List Nat) (w : Nat) : Bool :=
  let sum := ((ws.drop (w - 63)).take 64).sum
  let x := ws.getD w 0
  decide (x * 160 < sum ∨ sum < x * 32)

/-- Channel bit `b` of a codeword is erased: its window, or one beside it, is defective. 65 windows stand before the
codeword, which covers 148 windows and a half of the 150 that its outputs fill (log 189). -/
def bitErased (ws : List Nat) (b : Nat) : Bool :=
  let w := 65 + b / 64
  defect ws (w - 1) || defect ws w || defect ws (w + 1)

/-! ### The demodulator (R529, R676) -/

/-- A word takes its place in a list sorted by metric, the best first. -/
def insertWord (x : Int × List Bool) : List (Int × List Bool) → List (Int × List Bool)
  | [] => [x]
  | y :: t =>
    if y.1 < x.1 ∨ (y.1 = x.1 ∧ Config.ranksFirst x.2 y.2 = true) then x :: y :: t else y :: insertWord x t

/-- The best 16. -/
def best16 (xs : List (Int × List Bool)) : List (Int × List Bool) := (xs.foldl (fun l x => insertWord x l) []).take 16

/-- For runs of 0 to 13 zeros before them, the 16 valid endings of best metric over these soft values; a value above 0
speaks for a 1. -/
def bestEndings : List Int → List (List (Int × List Bool))
  | [] => (List.range 14).map (fun r => if r ≤ 6 then [(0, [])] else [])
  | y :: ys =>
    let t := bestEndings ys
    (List.range 14).map (fun r => best16 (
      (if r < 13 then (t.getD (r + 1) []).map (fun p => (p.1 - y, false :: p.2)) else []) ++
        (t.getD 0 []).map (fun p => (p.1 + y, true :: p.2))))

/-- The 16 valid words of best metric over the 33 soft values of a channel word. -/
def bestWords (ys : List Int) : List (Int × List Bool) := (bestEndings ys).getD 7 []

/-- The word lists of a codeword's 288 channel words. -/
def wordLists : Nat → List Int → List (List (Int × List Bool))
  | 0, _ => []
  | n + 1, ys => bestWords (ys.take 33) :: wordLists n (ys.drop 33)

/-- A word's metric with the priors of its information bits; none where its rank spells no value (R529). -/
def withPrior (prior : List Int) (p : Int × List Bool) : Option (Int × Word) :=
  (unchannel p.2).map (fun w =>
    (p.1 + ((List.range 32).map (fun i => if w.getLsbD i then -(prior.getD i 0) else prior.getD i 0)).sum, w))

/-- The best metric among words whose bit `i` is `v`. -/
def bestWith (v : Bool) (i : Nat) (ws : List (Int × Word)) : Option Int :=
  ((ws.filter (fun p => p.2.getLsbD i == v)).map (·.1)).foldl (fun (m : Option Int) x => some (m.elim x (max x))) none

/-- The LLR of information bit `i`, above 0 for a 0; no valid word says nothing. -/
def bitLlr (ws : List (Int × Word)) (i : Nat) : Int :=
  match bestWith false i ws, bestWith true i ws with
  | some a, some b => Config.llr6 (a - b)
  | some _, none => Config.agreedLlr false
  | none, some _ => Config.agreedLlr true
  | none, none => 0

/-- The LLRs of the codeword's 9,216 bits, given the priors of the global iteration before. -/
def codewordLlrs : List (List (Int × List Bool)) → List Int → List Int
  | [], _ => []
  | l :: ls, prior =>
    let ws := l.filterMap (withPrior prior)
    (List.range 32).map (bitLlr ws) ++ codewordLlrs ls (prior.drop 32)

/-! ### The LDPC decoder (R532, R676) -/

/-- Codeword bits of check `t` of base row `i`. -/
def checkBits (i t : Nat) : List Nat :=
  (List.range 32).map (fun k => 256 * k + (t + c1Shift i k) % 256) ++
    (List.range 4).filterMap (fun j => (c1ParityShift i j).map (fun s => 8192 + 256 * j + (t + s) % 256))

/-- The decoder's totals, one a bit, and the messages of each check to its bits. -/
structure Ldpc where
  total : List Int
  msg : List (List Int)

/-- A check's message to its `j`th bit: the sign of the others, and 0.75 of their least magnitude. -/
def checkMsg (qs : List Int) (j : Nat) : Int :=
  let others := qs.eraseIdx j
  let m : Int := Config.scaled6 ((others.map Int.natAbs).min?.getD 0)
  if (others.filter (fun q => decide (q < 0))).length % 2 = 1 then -m else m

/-- One check of a layer is worked. -/
def checkStep (i t : Nat) (x : Ldpc) : Ldpc :=
  let vs := checkBits i t
  let old := x.msg.getD (256 * i + t) []
  let qs := vs.zipIdx.map (fun v => x.total.getD v.1 0 - old.getD v.2 0)
  let new := (List.range qs.length).map (checkMsg qs)
  { total := (vs.zip (List.zipWith (· + ·) qs new)).foldl (fun l v => l.set v.1 v.2) x.total
    msg := x.msg.set (256 * i + t) new }

/-- One LDPC iteration: the four base rows, one layer after the other. -/
def ldpcIteration (x : Ldpc) : Ldpc :=
  (List.range 4).foldl (fun x i => (List.range 256).foldl (fun x t => checkStep i t x) x) x

/-- The bytes that the totals decide. -/
def decided (total : List Int) : List Byte :=
  (List.range 1152).map (fun m => BitVec.ofNat 8 (((List.range 8).map (fun k =>
    if total.getD (8 * m + k) 0 < 0 then 2 ^ k else 0)).sum))

/-- All 1,024 checks hold. -/
def checksHold (cw : List Byte) : Bool := (List.range 4).all (fun i => c1Check cw i == 0)

/-- LDPC iterations until all checks hold, at most so many. -/
def ldpcRun : Nat → Ldpc → Ldpc
  | 0, x => x
  | n + 1, x => if checksHold (decided x.total) then x else ldpcRun n (ldpcIteration x)

/-! ### Global iterations (R675 to R678) -/

/-- What a read channel makes of a codeword. -/
structure CwResult where
  /-- Global iterations after which all checks held; 0 when they never did. -/
  iters : Nat
  /-- Bits that differ between the decoded word and the first iteration's hard decisions. -/
  differ : Nat
  /-- Channel bits that the defect detector erased. -/
  erased : Nat
  /-- Information bytes decoded, where the codeword is not the one written. -/
  read : Option (List Byte)
  deriving DecidableEq, Repr

/-- Global iterations from number `n` on: the number after which all checks held, and the decided codeword. -/
def globalIterations (lists : List (List (Int × List Bool))) : Nat → Nat → List Int → Nat × List Byte
  | 0, _, _ => (0, [])
  | fuel + 1, n, prior =>
    let llr := codewordLlrs lists prior
    let x := ldpcRun 8 { total := llr, msg := List.replicate 1024 [] }
    let cw := decided x.total
    if checksHold cw then (n, cw) else globalIterations lists fuel (n + 1) (List.zipWith (· - ·) x.total llr)

/-- Bits in which a decoded word differs from the first iteration's hard decision; all of them where that is an erasure. -/
def wordDiffer (hard : Option Word) (w : Word) : Nat :=
  match hard with
  | none => 32
  | some h => ((List.range 32).filter (fun i => (h ^^^ w).getLsbD i)).length

/-- The channel's result on a codeword: `b` is target B, `limit` the global iterations of the ladder step. -/
def cwResult (b : Bool) (limit : Nat) (written : List Byte) (x : CwSignal) : CwResult :=
  match x with
  | .outcome iters differ erased read => ⟨if iters ≤ limit ∧ erased ≤ 1024 then iters else 0, differ, erased, read⟩
  | .samples before out =>
    let ws := windowSums 215 (before ++ out)
    let gone := (List.range 9504).map (bitErased ws)
    let erased := (gone.filter id).length
    if erased > 1024 then ⟨0, 0, erased, none⟩
    else
      let lists := wordLists 288 (Config.detect b (List.zipWith (fun y e => if e then 0 else y) out gone))
      let r := globalIterations lists limit 1 []
      let differ := (lists.zipIdx.map (fun l =>
        wordDiffer ((l.1.head?).bind (fun p => unchannel p.2)) (BitVec.ofNat 32 (leAt r.2 (4 * l.2) 4)))).sum
      ⟨r.1, differ, erased, if r.1 = 0 ∨ r.2 = written then none else some (r.2.take 1024)⟩

/-- The codeword needed the deep decoder (R677). -/
def wentDeep (c : CwResult) : Bool := decide (c.erased ≤ 1024) && (c.iters == 0 || decide (c.iters > 2))

/-! ### C2 and C3 (R536, R538, R541, R692, R693) -/

/-- The C2 codeword group k to which a codeword's symbols belong (R538). -/
def c2Group (x : Nat × Nat) : Nat := (x.2 + 96 * 64 - x.1) % 64

/-- Symbol `s` of an information field: 680 of 12 bits, then 4 of 8 (R536). -/
def c2Symbol (info : List Byte) (s : Nat) : Nat :=
  if s < 680 then c2Words (info) / 2 ^ (12 * s) % 4096 else leAt info (1020 + (s - 680)) 1

/-- The information field of a codeword as written. -/
def infoAt (area : List Byte) (x : Nat × Nat) : List Byte :=
  if x.1 < 84 then slice area (65536 * x.1 + 1024 * x.2) 1024 else c2Info (areaRows area) x.1 x.2

/-- Symbols of its group that C2 does not decode: those for which 2e + f is above 12, where f codewords of the group have
failed and e were decoded with a wrong symbol there (R692). -/
def c2Beyond (area : List Byte) (fails : List (Nat × Nat)) (wrong : List ((Nat × Nat) × List Byte)) (k : Nat) : List Nat :=
  let f := (fails.filter (fun x => c2Group x == k)).length
  let ws := wrong.filter (fun x => c2Group x.1 == k)
  if ws.isEmpty then (if f > 12 then List.range 684 else [])
  else (List.range 684).filter (fun s =>
    decide (2 * (ws.filter (fun w => c2Symbol w.2 s != c2Symbol (infoAt area w.1) s)).length + f > 12))

/-- Information bytes that touch one of these symbols. -/
def bytesOf (syms : List Nat) : List Nat :=
  if syms.length = 684 then List.range 1024
  else (List.range 1024).filter (fun m =>
    if m < 1020 then syms.contains (8 * m / 12) || syms.contains ((8 * m + 7) / 12) else syms.contains (680 + (m - 1020)))

/-- Information bytes unknown while no C2 has run: all those of failed data-row codewords. -/
def rawGaps (fails : List (Nat × Nat)) : Gaps :=
  (fails.filter (fun x => decide (x.1 < 84))).map (fun x => (x, List.range 1024))

/-- Information bytes unknown after C2. -/
def c2Gaps (area : List Byte) (fails : List (Nat × Nat)) (wrong : List ((Nat × Nat) × List Byte)) : Gaps :=
  (fails.filter (fun x => decide (x.1 < 84))).filterMap (fun x =>
    match bytesOf (c2Beyond area fails wrong (c2Group x)) with
    | [] => none
    | ms => some (x, ms))

/-- Failed codewords that C2 restored. -/
def c2Fixed (area : List Byte) (fails : List (Nat × Nat)) (wrong : List ((Nat × Nat) × List Byte)) : Nat :=
  (fails.filter (fun x => (c2Beyond area fails wrong (c2Group x)).isEmpty)).length

/-- An information field with the symbols of `syms` taken from a wrong one. -/
def mixInfo (right bad : List Byte) (syms : List Nat) : List Byte :=
  leBytes 1020 (((List.range 680).map (fun s => c2Symbol (if syms.contains s then bad else right) s * 2 ^ (12 * s))).sum) ++
    (List.range 4).map (fun t => if syms.contains (680 + t) then bad.getD (1020 + t) 0 else right.getD (1020 + t) 0)

/-- The data area as it is read: wrongly decoded codewords stand in it, but for what C2 mended where it ran. -/
def areaRead (area : List Byte) (fails : List (Nat × Nat)) (wrong : List ((Nat × Nat) × List Byte)) (c2 : Bool) : List Byte :=
  (wrong.filter (fun w => decide (w.1.1 < 84))).foldl (fun a w =>
    let info := if c2 then mixInfo (infoAt area w.1) w.2 (c2Beyond area fails wrong (c2Group w.1)) else w.2
    let off := 65536 * w.1.1 + 1024 * w.1.2
    a.take off ++ info ++ a.drop (off + 1024)) area

/-- Byte `m` of codeword `x` is unknown. -/
def gapAt (g : Gaps) (x : Nat × Nat) (m : Nat) : Bool := g.any (fun e => e.1 == x && e.2.contains m)

/-- Bytes left unknown by C3: those that more than two data sets of the group hold unknown; `absent` of them were not read
at all (R541, R693). -/
def c3Gaps (g : Gaps) (mates : List Gaps) (absent : Nat) : Gaps :=
  g.filterMap (fun e =>
    match e.2.filter (fun m => decide (1 + absent + (mates.filter (fun h => gapAt h e.1 m)).length > 2)) with
    | [] => none
    | ms => some (e.1, ms))

/-- A byte of data-area bytes `off` to `off + len` is unknown. -/
def gapIn (g : Gaps) (off len : Nat) : Bool :=
  g.any (fun e =>
    let lo := e.1.1 * 65536 + e.1.2 * 1024
    decide (lo < off + len ∧ off < lo + 1024) && e.2.any (fun m => decide (off ≤ lo + m ∧ lo + m < off + len)))

/-- Bytes from `off`, up to `len` of them, before the first unknown one. -/
def knownRun (g : Gaps) (off len : Nat) : Nat :=
  g.foldl (fun n e =>
    let lo := e.1.1 * 65536 + e.1.2 * 1024
    e.2.foldl (fun n m => if off ≤ lo + m ∧ lo + m < off + n then lo + m - off else n) n) len

end Sys2Proof.Machine
end

