-- ==== Sys2Proof/Machine/Write.lean ====
section
/-!
DEFINITION. What FMT writes and how it is dealt, and what GOV reckons: backlog, groups, item placement, rows, rulings,
copies, the session end, motion (ch12, ch14, ch15).
-/
namespace Sys2Proof.Machine
open Sys2Proof

/-! ### Cartridges -/

/-- FMT works: enabled, its domain on, not halted (R634; Table 03-10). -/
def fmtOn (s : State) : Bool := s.fmt.enabled && domOn 7 s && !haltedSrc 10 s

/-- GOV works (R669). -/
def govOn (s : State) : Bool := s.gov.enabled && !haltedSrc 20 s && !s.faults.safe

/-- The transport holds a cartridge loaded for writing, with its session open and the cartridge not FULL. -/
def writable (n : Trn) (s : State) : Bool :=
  s.trn[n].loaded == .writing && s.fmt.trn[n].session.isSome && !s.fmt.trn[n].full

/-- R643: usable. -/
def usable (n : Trn) (s : State) : Bool :=
  s.trn[n].port == .up && writable n s && !s.trn[n].degraded && !memberHeld n s

/-- Data sets that a wrap of the cartridge holds: after a lead-in of 9,570 channel bits, 918,720 channel bits each
(R527, R535, R549). -/
def perWrap (n : Trn) (s : State) : Nat := (s.trn[n].lengthMm * 32000 - 9570) / 918720

/-- The tape moves under GOV (R600, R662). -/
def movingGov (n : Trn) (s : State) : Bool := s.gov.mem[n].state == .running

/-! ### Backlog (R36, R646; ch09) -/

/-- Item-run bytes of a record's blocks that stand in compressed extents and FMT has not taken. -/
def inBacklog (v : Rec) : Nat :=
  if v.verdict.isSome then 0
  else ((v.blocks.filter (fun b => b.st = .packed ∨ b.st = .inUnit ∨ b.st = .encrypted)).map (fun b => b.len + 32)).sum
    - (v.placed - 64)

/-- The stream's backlog book. -/
def streamBacklog (i : Strm) (s : State) : Nat :=
  (s.ing.stream[i].order.map (fun r => ((getRec r s).map inBacklog).getD 0)).sum

/-- GOV evaluation in which the oldest backlog byte of the stream entered. -/
def oldestSince (i : Strm) (s : State) : Option Nat :=
  s.ing.stream[i].order.findSome? (fun r => match getRec r s with
    | some v => if inBacklog v = 0 then none
      else ((v.blocks.filter (fun b => b.st = .packed ∨ b.st = .inUnit ∨ b.st = .encrypted)).map (·.since)).min?
    | none => none)

/-! ### Groups (R642) -/

/-- The transports that an open stream's set names, those loaded for reading left out. -/
def openMask (i : Strm) (s : State) : BitVec 8 :=
  let m := s.ing.stream[i]
  if m.state = .closed then 0
  else m.set &&& ofBits 8 (fun k => if h : k < 8 then s.trn[k].loaded != .reading else false)

/-- TRN_n's group, by mask; 0 where it is in none. -/
def groupOf (n : Trn) (s : State) : BitVec 8 :=
  let masks := (allStrm.map (fun i => openMask i s)).filter (fun m => m != 0)
  let bit : BitVec 8 := ofBits 8 (fun k => decide (k = n.val))
  if masks.all (fun m => m &&& bit == 0) then 0
  else (List.range 8).foldl (fun g _ => masks.foldl (fun g m => if m &&& g != 0 then g ||| m else g) g) bit

/-- The streams whose sets lie in group `g`. -/
def groupStreams (g : BitVec 8) (s : State) : List Strm := allStrm.filter (fun i => openMask i s &&& g != 0)

def groupMembers (g : BitVec 8) : List Trn := allTrn.filter (fun n => g.getLsbD n.val)

/-- Q, bytes (Table 15-1). -/
def groupQ (g : BitVec 8) (s : State) : Nat := ((groupStreams g s).map (fun i => streamBacklog i s)).sum

/-- Bytes added in the rate window (Table 15-1). -/
def groupAdded (g : BitVec 8) (s : State) : Nat := ((groupStreams g s).map (fun i => s.ing.stream[i].added.sum)).sum

/-- Age of the oldest backlog byte in milliseconds. -/
def groupAge (g : BitVec 8) (s : State) : Nat :=
  (((groupStreams g s).filterMap (fun i => oldestSince i s)).map (fun t => s.gov.evals - t)).foldl max 0

/-- n of Table 15-1: usable members that move, or are parked and free to restart. -/
def groupN (g : BitVec 8) (s : State) : Nat :=
  ((groupMembers g).filter (fun n => usable n s && s.gov.mem[n].state != .held)).length

/-- k_max (Table 15-1, R649). -/
def kMax (s : State) : Nat := if s.therm.throttle then min 128 (getN s.gov.param 7 68) else 128

/-- k_req of the law (R646): ⌈20 v_req⌉ − 32, from 0 to k_max; none where n is 0. -/
def kReqOf (g : BitVec 8) (s : State) : Option Nat :=
  let n := groupN g s
  if n = 0 then none
  else
    let tau := getN s.gov.param 0 100
    let rw := getN s.gov.param 1 64
    let num := 20 * 1000 * (groupAdded g s * tau + groupQ g s * rw)
    let den := rw * tau * n * 167777638
    some (min (kMax s) ((num + den - 1) / den - 32))

/-- R648: high water or a ballast draw forces k_max. -/
def forced (s : State) : Bool := highWater s || ballastDraw s

/-! ### Motion of members (R644, R653 to R656, R659) -/

/-- The VRF half of TRN_n, as a domain of Table 03-19. -/
def halfOf (n : Trn) : Nat := if n.val < 4 then 8 else 9

/-- With automatic gating, GOV asks for the half's switch-on (R101). -/
def wakeHalf (n : Trn) (s : State) : State :=
  let h := halfOf n
  if domOn h s || !s.power.autoVrf ||
      (s.power.queue ++ s.power.switching.toList).any (fun d => decide (d.dom = h) && d.on) then s
  else { s with power.queue := s.power.queue ++ [{ dom := h, on := true, ticket := none }] }

/-- A parked member restarts: MOTION code 0 in the writing direction, BACKHITCH (R655; Table 15-2 step 5). A member whose
half is off waits for it (R656). -/
def restartMember (n : Trn) (s : State) : State :=
  if !domOn (halfOf n) s then wakeHalf n (modGov n (fun g => { g with restartDue := true }) s)
  else
    let s := sendMotion n 0 (wrapRev s.trn[n].wrap) (memberAccel n s) s
    let s := modGov n (fun g => { g with
      code := 0, state := .restarting, parked := false, locating := false, restartDue := false }) s
    count 0x8A08 1 (setLeaf 20 1 s)

/-- The park distance in micrometres: 1.6² ÷ 2a + 0.16 m (R654). -/
def parkUm (accel : Nat) : Nat := 12800000 / accel + 160000

/-- LOCATE to the park point before the place `at'` of wrap `w` (R653 step 3, R654, R659). -/
def locatePark (n : Trn) (w : Nat) (at' : Word) (s : State) : State :=
  let d : Int := parkUm (memberAccel n s)
  let target := Config.lposAt at' (if wrapRev w then d else -d)
  modGov n (fun g => { g with locating := true }) (sendLocate n w target.toNat s)

/-! ### Streams and their next items (R27, R45, R601, R602) -/

/-- Length of a record's item run (R543). -/
def runLen (v : Rec) : Nat := 64 + storedLen v

/-- The first record of the stream whose item run is not placed in full, failed records left out. -/
def nextRec (i : Strm) (s : State) : Option (Nat × Rec) :=
  s.ing.stream[i].order.findSome? (fun r => match getRec r s with
    | some v => if v.verdict.isNone && decide (v.placed < runLen v) then some (r, v) else none
    | none => none)

/-- FMT holds the record: every block is encrypted and none waits to be encrypted again (R22, R485, R602). -/
def recReady (r : Nat) (v : Rec) (s : State) : Bool :=
  v.holder == .fmt && s.cip.again.all (fun a => decide (a.1 ≠ r))

/-- The next record of the stream that FMT can place. -/
def nextReady (i : Strm) (s : State) : Option (Nat × Rec) :=
  match nextRec i s with
  | some (r, v) => if recReady r v s then some (r, v) else none
  | none => none

/-- SESSION and INV of an IV (Table 11-2). -/
def ivSession (iv : List Byte) : Nat := beNat (slice iv 0 4) % 2 ^ 29
def ivInv (iv : List Byte) : Nat := beNat (slice iv 4 8)

/-- The values of the session list with those written in the session. -/
def Session.list (x : Session) : List Nat := (x.old ++ x.added).eraseDups

/-- The cartridge's session list can take the values of the record's blocks (R500). -/
def sessionRoom (x : Session) (v : Rec) : Bool :=
  decide ((x.list ++ v.blocks.map (fun b => ivSession b.iv)).eraseDups.length ≤ 4096)

/-- The record's envelope (R542). -/
def envelopeOf (v : Rec) (s : State) : Envelope :=
  let m := s.ing.stream[v.stream]
  { stream := v.stream.val, record := v.number, blocks := v.blocks.length, profile := m.profile, origLen := v.origLen,
    hostTag := v.hostTag, storedLen := storedLen v, keyId := m.keyId.toNat,
    iv0 := (v.blocks.head?.map (·.iv)).getD [],
    raw := (v.blocks.zipIdx.map (fun b => b2n b.1.raw * 2 ^ b.2)).sum }

/-- `k` bytes of a record's item run from byte `p`; none where a line that holds them is bad (R411). -/
def itemBytes (r : Nat) (v : Rec) (p k : Nat) (s : State) : Option (List Byte) × State :=
  let env := if p < 64 then ((envelopeBytes (envelopeOf v s)).drop p).take k else []
  let rest := k - env.length
  if rest = 0 then (some env, s)
  else
    let x := readHeld r (subRanges (v.blocks.flatMap (·.segs)) (p - 64) rest) s
    (x.1.map (fun bs => env ++ bs), x.2)

/-! ### Placing bytes (R543, R601 to R603) -/

def rowBytes : Nat := 65536

/-- Data set `dsn` of TRN_n's window changed. -/
def modDs (n : Trn) (dsn : Nat) (g : DataSet → DataSet) (s : State) : State :=
  modFmt n (fun f => { f with window := f.window.map (fun d => if d.dsn = dsn then g d else d) }) s

def findDs (n : Trn) (dsn : Nat) (s : State) : Option DataSet := s.fmt.trn[n].window.find? (fun d => d.dsn = dsn)

/-- Session values and the largest INV of blocks whose bytes a cartridge takes (R483). -/
def noteIvs (n : Trn) (bs : List Blk) (s : State) : State :=
  modFmt n (fun f => { f with session := f.session.map (fun x => { x with
    added := (x.added ++ bs.map (fun b => ivSession b.iv)).eraseDups
    inv := bs.foldl (fun m b => max m (ivInv b.iv + 1)) x.inv }) }) s

/-- The blocks of a record that bytes `p` to `p + k` of its item run touch. -/
def touched (v : Rec) (p k : Nat) : List Blk :=
  (v.blocks.foldl (fun (acc : Nat × List Blk) b =>
    let e := acc.1 + b.len + 32
    (e, if acc.1 < p + k ∧ p < e then acc.2 ++ [b] else acc.2)) (64, [])).2

/-- Bytes of the stream's item stream are placed at the end of data set `dsn`'s data area, at most `room` of them. -/
def placeBytes (n : Trn) (dsn : Nat) (i : Strm) : Nat → Nat → State → State
  | 0, _, s => s
  | fuel + 1, room, s =>
    if room = 0 then s
    else
      match nextReady i s, findDs n dsn s with
      | some (r, v), some d =>
        let k := min room (runLen v - v.placed)
        match itemBytes r v v.placed k s with
        | (none, s) => placeBytes n dsn i fuel room s
        | (some bs, s) =>
          let off := d.area.length
          let es := extentsOf (subRanges (v.blocks.flatMap (·.segs)) (v.placed - 64) (k - (64 - v.placed)))
          let c := d.copies.getLastD { rewrite := 0, wrap := 0, lpos := 0, built := 0, ruled := 0, passed := 0 }
          let s := modDs n dsn (fun d => { d with
            area := d.area ++ bs
            firstItem := if v.placed = 0 ∧ d.firstItem = none then some off else d.firstItem
            recordAtStart := if off = 0 then some v.number else d.recordAtStart
            bytesBefore := if off = 0 then v.placed else d.bytesBefore
            exts := (d.exts ++ es).eraseDups }) s
          let s := modRec r (fun v => { v with
            placed := v.placed + k
            pieces := v.pieces ++ [{ trn := n.val, dsn := dsn, off := off, len := k, before := v.placed, seq := d.seq,
                                     wrap := c.wrap, lpos := c.lpos }]
            rowsDue := v.rowsDue ++ [(n.val, dsn, off / rowBytes)] }) s
          let s := noteIvs n (touched v v.placed k) s
          let s := es.foldl (fun s e => moveExtent .compressed .assembling e s) s
          placeBytes n dsn i fuel (room - k) s
      | _, _ => s

/-- Fill codewords of a pad: those that begin in it (R545). -/
def padCodewords (p : Nat × Nat) : Nat := p.2 / 1024 - (p.1 + 1023) / 1024

/-- FILL of a data set (Table 12-6). -/
def dsFill (d : DataSet) : Nat := (d.pads.map padCodewords).sum

/-- The codeword of this row and channel is a fill codeword (R545). -/
def fillCodeword (d : DataSet) (row channel : Nat) : Bool :=
  let o := 65536 * row + 1024 * channel
  decide (row < 84) && d.pads.any (fun p => decide (p.1 ≤ o ∧ o < p.2))

/-- A pad to the end of the row that holds the end of the data area (R544). -/
def padRow (n : Trn) (dsn : Nat) (s : State) : State :=
  match findDs n dsn s with
  | none => s
  | some d =>
    let len := d.area.length
    let p := (len, (len / rowBytes + 1) * rowBytes)
    count 0x8908 (padCodewords p) (modDs n dsn (fun d => { d with
      area := d.area ++ List.replicate (rowBytes - len % rowBytes) 0, pads := d.pads ++ [p] }) s)

/-- The data set closes short: a pad from the item boundary to the end of the data area (R606); the bytes that no row
holds yet stay unlisted and read zero. -/
def closeShort (n : Trn) (dsn : Nat) (s : State) : State :=
  match findDs n dsn s with
  | none => s
  | some d =>
    let len := d.area.length
    if len ≥ dataAreaBytes ∨ d.full then s
    else
      let p := (len, dataAreaBytes)
      count 0x8908 (padCodewords p) (modDs n dsn (fun d => { d with full := true, pads := d.pads ++ [p] }) s)

/-! ### Rows (R531 to R538, R603, R605) -/

/-- Information bytes of the 64 codewords of a row, channel 0 first: a data row of the area, or C2 parity. -/
def rowInfo (area : List Byte) (row : Nat) : List (List Byte) :=
  if row < 84 then chunks 1024 64 (area.drop (rowBytes * row))
  else
    let rows := areaRows area
    (List.range 64).map (c2Info rows row)

/-- The 64 C1 codewords of a row. -/
def rowCodewords (d : DataSet) (row : Nat) : List (List Byte) := (rowInfo d.area row).map c1Codeword

def kindCode : DsKind → Nat
  | .data => 1
  | .tail => 2
  | .manifest => 3
  | .endOfData => 4

/-- The data-set information of a writing (Table 12-6). -/
def dsiOf (n : Trn) (d : DataSet) (c : CopyOf) (s : State) : Dsi :=
  { kind := kindCode d.kind, pos := d.pos, k := d.k, wrap := c.wrap, rewrite := c.rewrite,
    stream := if d.kind = .data then d.stream else 0xFF, dsn := d.dsn, fill := dsFill d, group := d.group, lpos := c.lpos,
    sessionNo := (s.fmt.trn[n].session.map (·.no)).getD 0, cartridge := s.trn[n].cartId.toNat,
    streamSeq := if d.kind = .data then d.seq else 0, firstItem := d.firstItem.getD 0xFFFFFFFF,
    bytesBefore := d.bytesBefore, recordAtStart := d.recordAtStart.getD 0xFFFFFFFFFFFF, linkDsn := 0, linkWrap := 0,
    linkLpos := 0 }

/-- Channel bits of a row on each of the 64 channels: its sync-and-ID fields with the data-set information as it stands, and
its codewords (R533, R535, R537, R603; log 167). -/
def rowChannels (d : DataSet) (dsi : List Byte) (row : Nat) : List (List Bool) :=
  (rowCodewords d row).zipIdx.map (fun x =>
    pairBits (idWord row x.2 (fillCodeword d row x.2) (dsi.getD row 0)) x.1)

/-- What a row sends: its codewords, and the multiblocks of both WD roles, channel c on WD_0 and 32 + c on WD_1 (R569). -/
def rowOut (n : Trn) (d : DataSet) (c : CopyOf) (row : Nat) (s : State) : Out :=
  let chans := rowChannels d (dsiBytes (dsiOf n d c s)) row
  .row n d.dsn c.rewrite row (rowCodewords d row) (wdLanes n 0 rowBlocks (chans.take 32) s)
    (wdLanes n 1 rowBlocks (chans.drop 32) s)

/-- The C3 tails of the group take the finished data area of a member (R541). -/
def addToTails (f : FmtTrn) (d : DataSet) : FmtTrn :=
  let unit := (List.range 14).map (fun j => if j = d.pos then 1 else 0)
  let c := fun tail => gfMultiples 8 poly8 1 8 ((c3Parity unit).getD (tail - 14) 0)
  let c14 := c 14
  let c15 := c 15
  { f with
    tail14 := zipZero (fun a b => a ^^^ gfSelect c14 b) f.tail14 d.area
    tail15 := zipZero (fun a b => a ^^^ gfSelect c15 b) f.tail15 d.area }

/-- Bytes of the record's blocks that are not placed lie in extent `e`. -/
def unplacedIn (e : Nat) (v : Rec) : Bool :=
  v.verdict.isNone &&
    (extentsOf (subRanges (v.blocks.flatMap (·.segs)) (v.placed - 64) (storedLen v - (v.placed - 64)))).contains e

/-- Extents of the data set whose bytes have all been issued pass to awaiting-verify (Table 09-3). -/
def issueExtents (es : List Nat) (s : State) : State :=
  es.foldl (fun s e =>
    if ownerOf s e = .assembling ∧ s.ing.recs.all (fun x => match x.2 with
        | some v => !unplacedIn e v
        | none => true) ∧ allStrm.all (fun i => (s.ing.stream[i].outExt.map (·.1)) != some e) then setOwner e .awaiting s
    else s) s

/-- The next row of the newest writing of `dsn` goes out: credits, counters, rulings due; records whose last byte it holds
have entered FMT and are held by VRF (R22, R603, R614). -/
def issueRow (n : Trn) (dsn : Nat) (s : State) : State :=
  match findDs n dsn s with
  | none => s
  | some d =>
    match d.copies with
    | [] => s
    | c :: older =>
      let row := c.built
      let first := older.all (fun o => decide (o.built ≤ row))
      let s := count 0x8900 1 (sendWd n rowBlocks (emit (rowOut n d c row s) s))
      let full := d.full || (first && decide (row = 83))
      let s := modDs n dsn (fun d => { d with full := full, copies := { c with built := row + 1 } :: older }) s
      let s := modFmt n (fun f => { f with
        rowOpen := false
        unruled := if haltedSrc 19 s then f.unruled else f.unruled ++ [(dsn, c.rewrite, row)] }) s
      let s := if first && row == 83 && (d.kind == .data || d.kind == .manifest) then
          modFmt n (fun f => addToTails f d) s else s
      let s := if full then allStrm.foldl (fun s i =>
          if s.ing.stream[i].openDs = some (n.val, dsn) then modStream i (fun m => { m with openDs := none }) s else s) s
        else s
      let s := if first then
          let here := recsWhere (fun v => v.holder == .fmt && v.entered.isNone && decide (v.placed = runLen v) &&
            v.rowsDue.contains (n.val, dsn, row)) s
          issueExtents d.exts (here.foldl (fun s r => modRec r (fun v => { v with
            holder := .vrf, entered := some (now s, n.val) }) s) s)
        else s
      if row = 95 then
        emit (.dataSet n (dsiBytes (dsiOf n { d with full := full } c s))) s
      else s

/-- FMT builds the next row of the data set being written; a data row that waits for bytes is held open (R602 to R606).
`flush` completes it with a pad. -/
def buildRow (n : Trn) (flush : Bool) (s : State) : State :=
  let f := s.fmt.trn[n]
  match f.cur.bind (fun k => findDs n k s) with
  | none => s
  | some d =>
    match d.copies with
    | [] => s
    | c :: _ =>
      if c.built ≥ 96 then s
      else if d.full = true ∨ c.built ≥ 84 ∨ d.kind ≠ .data ∨ d.area.length ≥ rowBytes * (c.built + 1) then
        issueRow n d.dsn s
      else
        let s := if f.closing then closeShort n d.dsn s
          else if h : d.stream < 64 then
            placeBytes n d.dsn ⟨d.stream, h⟩ (s.ing.stream[d.stream].order.length + 1)
              (rowBytes * (c.built + 1) - d.area.length) s
          else s
        match findDs n d.dsn s with
        | none => s
        | some d =>
          if d.full = true ∨ d.area.length ≥ rowBytes * (c.built + 1) then issueRow n d.dsn s
          else if flush then issueRow n d.dsn (count 0x8910 1 (padRow n d.dsn s))
          else modFmt n (fun f => { f with rowOpen := true }) s

/-! ### Verdicts on data sets (R607 to R611, R617 to R621) -/

/-- Pieces of a verified record on TRN_n's cartridge: parts in consecutive data sets of the stream join (R551). -/
def piecesOn (n : Trn) (v : Rec) : List Piece :=
  (v.pieces.foldl (fun (acc : List Piece × Option Part) p =>
    if p.trn ≠ n.val then (acc.1, none)
    else
      match acc.1, acc.2 with
      | q :: t, some last =>
        if q.bytesBefore + q.length = p.before ∧ (p.dsn = last.dsn ∨ p.seq = last.seq + 1) then
          ({ q with length := q.length + p.len, last := decide (p.before + p.len = runLen v) } :: t, some p)
        else (pieceFrom p :: acc.1, some p)
      | _, _ => (pieceFrom p :: acc.1, some p)) ([], none)).1.reverse
where
  pieceFrom (p : Part) : Piece :=
    { record := v.number, stream := v.stream.val, first := decide (p.before = 0)
      last := decide (p.before + p.len = runLen v), dsn := p.dsn, wrap := p.wrap, lpos := p.lpos, offset := p.off
      length := p.len, bytesBefore := p.before, streamSeq := p.seq, hostTag := v.hostTag }

/-- The cartridges of a stream's set (Table 12-8). -/
def setCarts (i : Strm) (s : State) : List Nat :=
  (allTrn.filter (fun n => s.ing.stream[i].set.getLsbD n.val)).map (fun n => s.trn[n].cartId.toNat)

/-- A verified record is listed in the sessions of the cartridges that hold it (R551). -/
def listPieces (v : Rec) (s : State) : State :=
  let carts := setCarts v.stream s
  allTrn.foldl (fun s n =>
    match piecesOn n v with
    | [] => s
    | ps => modFmt n (fun f => { f with session := f.session.map (fun x => { x with
        pieces := x.pieces ++ ps
        sets := if x.sets.any (fun e => e.1 = v.stream.val) then
            x.sets.map (fun e => if e.1 = v.stream.val then (e.1, (e.2 ++ carts).eraseDups.take 8) else e)
          else x.sets ++ [(v.stream.val, carts)] }) }) s) s

/-- A row of the record passed: the last one gives VERIFIED (R28, R610, R612). -/
def passRow (n : Trn) (dsn row r : Nat) (s : State) : State :=
  let s := modRec r (fun v => { v with rowsDue := v.rowsDue.filter (fun x => decide (x ≠ (n.val, dsn, row))) }) s
  match getRec r s with
  | none => s
  | some v =>
    if v.verdict.isNone ∧ v.rowsDue = [] ∧ v.placed = runLen v ∧ v.holder = .vrf then
      listPieces v (setVerdict r rOk false s)
    else s

/-- Copies R620 allows in the wrap. -/
def copyAllowance (f : FmtTrn) : Nat := 8 + 64 * f.n / 1000

/-- A data set that is ruled leaves the window, with its extents (R609, R611); a hold of R624 ends at 40 DSNs. -/
def retire (n : Trn) (dsn : Nat) (s : State) : State :=
  match findDs n dsn s with
  | none => s
  | some d =>
    let done := d.copies.any (fun c => c.passed == BitVec.allOnes 96)
    let due := s.fmt.trn[n].copyDue.contains dsn
    let excess := d.failed && s.fmt.trn[n].cur != some dsn && !hasUnruled s.fmt.trn[n] d
    if (done && !due && s.fmt.trn[n].cur != some dsn && !hasUnruled s.fmt.trn[n] d) || excess then
      let s := modFmt n (fun f => { f with window := f.window.filter (fun d => decide (d.dsn ≠ dsn)) }) s
      let s := collect d.exts s
      if windowCount n s ≤ 40 then modFmt n (fun f => { f with windowHold := false }) s else s
    else s

/-- Records with bytes in rows of the data set that have passed on no copy. -/
def recsDue (n : Trn) (dsn : Nat) (s : State) : List Nat :=
  recsWhere (fun v => v.verdict.isNone && v.rowsDue.any (fun x => decide (x.1 = n.val ∧ x.2.1 = dsn))) s

/-- The data set fails finally: E_VERIFY for the records whose rows passed on no copy, REWRITE_EXH, DEGRADED (R621); with
the session gone or VRF halted, E_FAULT and neither (R632, R633). -/
def failFinally (n : Trn) (dsn : Nat) (code : Nat) (s : State) : State :=
  let rs := recsDue n dsn s
  let s := failRecs rs code false (modDs n dsn (fun d => { d with failed := true }) s)
  if code = rVerify then
    let s := count 0x8920 1 (modTrn n (fun t => { t with degraded := true }) s)
    raise1 10 (leafCode 0 3) 0 rs s
  else s

/-- A row of writing `rewrite` of `dsn` failed: a copy is placed, or the data set fails finally (R617 to R621). -/
def rowFailed (n : Trn) (dsn rewrite row : Nat) (s : State) : State :=
  let s := setTrnLeaf n 3 0 s
  match findDs n dsn s with
  | none => s
  | some d =>
    let s := (recsWhere (fun v => v.rowsDue.contains (n.val, dsn, row)) s).foldl
      (fun s r => modRec r (fun v => { v with lateExempt := true }) s) s
    let f := s.fmt.trn[n]
    let newest := (d.copies.head?.map (·.rewrite)).getD 0
    if d.failed then
      failRecs (recsWhere (fun v => v.rowsDue.contains (n.val, dsn, row)) s) (if f.session.isSome then rVerify else rFault)
        false s
    else if rewrite < newest ∨ f.copyDue.contains dsn = true then s
    else if f.session.isNone then failFinally n dsn rFault s
    else if rewrite ≥ 3 ∨ f.u ≥ copyAllowance f then failFinally n dsn rVerify s
    else
      let s := modFmt n (fun f => { f with copyDue := f.copyDue ++ [dsn], u := f.u + 1 }) s
      count 0x8918 1 (setLeaf 10 2 s)

/-- VRF's ruling on the oldest row not ruled (R608). -/
def ruleRow (n : Trn) (pass : Bool) (s : State) : State :=
  match s.fmt.trn[n].unruled with
  | [] => s
  | (dsn, rewrite, row) :: rest =>
    let s := modFmt n (fun f => { f with unruled := rest }) s
    let mark := fun (c : CopyOf) => if c.rewrite = rewrite then
      { c with ruled := setBit c.ruled row, passed := if pass then setBit c.passed row else c.passed } else c
    let s := modDs n dsn (fun d => { d with copies := d.copies.map mark }) s
    let s := if pass then
        (inOrder (recsWhere (fun v => v.rowsDue.contains (n.val, dsn, row)) s) s).foldl (fun s r => passRow n dsn row r s) s
      else rowFailed n dsn rewrite row s
    retire n dsn s

/-- VRF's result on one codeword of a row: whether it verifies, whether R674 erased it, and what was decoded. -/
structure CwVerdict where
  verifies : Bool
  lost : Bool
  result : CwResult
  deriving DecidableEq, Repr

/-- A codeword as it was written, and timing recovery before it, ruled under R607: it verifies with its sync mark found, its
ID right, all checks satisfied within 2 global iterations, equal, and at most 48 bits apart. -/
def verdictOn (row : Nat) (written : List Byte) (lock : ChanLock) (c : CwRead) : CwVerdict × ChanLock :=
  let y := syncStep row c.sync lock
  let r := cwResult false 2 written c.signal
  ({ verifies := y.1.1 && !y.1.2 && c.idOk && c.idSame && decide (1 ≤ r.iters ∧ r.iters ≤ 2) && r.read.isNone &&
       decide (r.differ ≤ 48)
     lost := y.1.2, result := r }, y.2)

/-- VRF's results on the 64 codewords of the oldest row not ruled, with timing recovery after it (R607, R674). -/
def rowVerdicts (n : Trn) (reads : List CwRead) (s : State) : List CwVerdict × State :=
  let u := s.fmt.trn[n].unruled.headD (0, 0, 0)
  let written := match findDs n u.1 s with
    | some d => rowCodewords d u.2.2
    | none => []
  let ys := reads.zipIdx.map (fun c => verdictOn u.2.2 (written.getD c.2 []) (getN s.rst.trn[n].lock c.2 {}) c.1)
  (ys.map (·.1), modRst n (fun r => { r with
    lock := ys.zipIdx.foldl (fun l y => updN l y.2 (fun _ => y.1.2)) r.lock }) s)

/-! ### Data-set boundaries (R599 to R601, R617, R622 to R625, R651 to R653) -/

/-- Data sets that hold an item byte, a copy or a tail that is due, without a ruling yet (R652). -/
def itemsUnruled (n : Trn) (s : State) : Bool :=
  let f := s.fmt.trn[n]
  !f.copyDue.isEmpty || decide (f.tailsDue > 0) ||
    f.window.any (fun d => !d.failed && d.kind == .data && (d.recordAtStart.isSome || d.firstItem.isSome))

/-- Data sets that hold items, tails or are due a copy, and have no ruling. -/
def itemsPending (n : Trn) (s : State) : Bool :=
  let f := s.fmt.trn[n]
  !f.copyDue.isEmpty || decide (f.tailsDue > 0) ||
    f.window.any (fun d => !d.failed && (d.kind != .data || d.recordAtStart.isSome || d.firstItem.isSome))

/-- A member that a turn does not pass over: loaded for writing, not FULL, not DEGRADED, moving, its window not full
(R600). -/
def canTake (n : Trn) (s : State) : Bool :=
  let f := s.fmt.trn[n]
  writable n s && !s.trn[n].degraded && !s.trn[n].holdup && movingGov n s && decide (windowCount n s < 48) && !f.offTrack &&
    (match f.session with
     | some x => !x.ending
     | none => false)

/-- The members of a set from member `t`, in ascending order, then from the lowest (R600). -/
def turnOrder (set : BitVec 8) (t : Nat) : List Trn :=
  let ms := allTrn.filter (fun n => set.getLsbD n.val)
  ms.filter (fun n => decide (t ≤ n.val)) ++ ms.filter (fun n => decide (n.val < t))

/-- The member the stream's turn names. -/
def turnOf (i : Strm) (s : State) : Option Trn := (turnOrder s.ing.stream[i].set s.ing.stream[i].turn).head?

/-- A turn that names a member that is passed over goes on to the next that is not, where there is one (R600). -/
def settleTurn (i : Strm) (s : State) : State :=
  match (turnOrder s.ing.stream[i].set s.ing.stream[i].turn).find? (fun n => canTake n s) with
  | some n => modStream i (fun m => { m with turn := n.val }) s
  | none => s

/-- TRN_n takes a copy or tails, and so is busy: the turns that name it pass to the next members (R600). -/
def passTurns (n : Trn) (s : State) : State :=
  allStrm.foldl (fun s i =>
    if turnOf i s = some n then settleTurn i (modStream i (fun m => { m with
      turn := ((turnOrder m.set (n.val + 1)).head?.map (·.val)).getD n.val }) s) else s) s

/-- The stream has an item for a new data set on TRN_n (R500, R601). -/
def hasItem (i : Strm) (n : Trn) (s : State) : Bool :=
  let m := s.ing.stream[i]
  m.state != .closed && m.openDs.isNone && (match nextReady i s, s.fmt.trn[n].session with
    | some (_, v), some x => sessionRoom x v
    | _, _ => false)

/-- The stream served at this boundary of TRN_n: ascending after the one served last (R600). -/
def streamFor (n : Trn) (s : State) : Option Strm :=
  let last := s.fmt.trn[n].lastServed
  (allStrm.filter (fun i => decide (last < i.val)) ++ allStrm.filter (fun i => decide (i.val ≤ last))).find? (fun i =>
    s.ing.stream[i].set.getLsbD n.val && decide (turnOf i s = some n) && canTake n s && hasItem i n s)

/-- A new data set begins on TRN_n at LPOS `lpos`, with the next DSN (R546). -/
def newDs (n : Trn) (lpos : Nat) (d : DataSet) (s : State) : State :=
  let f := s.fmt.trn[n]
  let member := d.kind == .data || d.kind == .manifest
  let d := { d with
    dsn := f.nextDsn, group := f.group, pos := if member then f.members else d.pos
    copies := [{ rewrite := 0, wrap := s.trn[n].wrap, lpos := lpos, built := 0, ruled := 0, passed := 0 }] }
  modFmt n (fun f => { f with
    window := f.window ++ [d], cur := some d.dsn, nextDsn := f.nextDsn + 1, n := f.n + 1, inWrap := f.inWrap + 1
    closing := false, rowOpen := false
    members := if member then f.members + 1 else f.members
    session := f.session.map (fun x => { x with written := x.written + 1 }) }) s

def blankDs : DataSet :=
  { dsn := 0, kind := .data, stream := 0, seq := 0, group := 0, pos := 0, k := 0, area := [], pads := [],
    firstItem := none, recordAtStart := none, bytesBefore := 0, exts := [], full := false, copies := [], failed := false }

/-- Fill (R599 step 4, R545): every data row is fill; it takes no STREAM_SEQ (log 23). -/
def fillDs (n : Trn) (lpos : Nat) (s : State) : State :=
  count 0x8908 5376 (newDs n lpos { blankDs with stream := s.fmt.trn[n].lastStream, pads := [(0, dataAreaBytes)], full := true } s)

/-- The group closes; its tails fall due (R540). -/
def closeGroup (n : Trn) (s : State) : State :=
  if s.fmt.trn[n].members = 0 then s else modFmt n (fun f => { f with tailsDue := 2 }) s

/-- The next tail of the closed group (R541). -/
def tailDs (n : Trn) (lpos : Nat) (s : State) : State :=
  let f := s.fmt.trn[n]
  let second := f.tailsDue = 1
  let s := newDs n lpos { blankDs with
    kind := .tail, pos := if second then 15 else 14, k := f.members, full := true
    area := if second then f.tail15 else f.tail14 } s
  if second then modFmt n (fun f => { f with tailsDue := 0, group := f.group + 1, members := 0, tail14 := [], tail15 := [] }) s
  else modFmt n (fun f => { f with tailsDue := 1 }) s

/-- A copy of the data set that waits longest (R548, R617). -/
def copyDs (n : Trn) (lpos : Nat) (s : State) : State :=
  match s.fmt.trn[n].copyDue with
  | [] => s
  | dsn :: rest =>
    let s := modFmt n (fun f => { f with
      copyDue := rest, cur := some dsn, inWrap := f.inWrap + 1, closing := false, rowOpen := false }) s
    modDs n dsn (fun d => { d with copies :=
      { rewrite := (d.copies.head?.map (·.rewrite + 1)).getD 0, wrap := s.trn[n].wrap, lpos := lpos, built := 0,
        ruled := 0, passed := 0 } :: d.copies }) s

/-- A data set of the stream whose turn names TRN_n (R599 step 3, R600, R601). -/
def streamDs (n : Trn) (lpos : Nat) (i : Strm) (s : State) : State :=
  let m := s.ing.stream[i]
  let next := ((turnOrder m.set (n.val + 1)).head?.map (·.val)).getD n.val
  let dsn := s.fmt.trn[n].nextDsn
  let s := newDs n lpos { blankDs with stream := i.val, seq := m.seq } s
  let s := modFmt n (fun f => { f with lastServed := i.val, lastStream := i.val }) s
  modStream i (fun m => { m with seq := m.seq + 1, turn := next, openDs := some (n.val, dsn) }) s

/-- The data set in progress is finished at a boundary: fill is counted (R651), a full group closes (R540). -/
def finishDs (n : Trn) (s : State) : State :=
  let f := s.fmt.trn[n]
  match f.cur.bind (fun k => findDs n k s) with
  | none => modFmt n (fun f => { f with cur := none }) s
  | some d =>
    let g := s.gov.mem[n]
    let isFill := decide (dsFill d ≥ 2688) && decide (g.setPoint = 0)
    let s := if isFill then
        let s := if g.fill = 0 then setLeaf 10 0 s else s
        count 0x8A10 1 (modGov n (fun g => { g with fill := g.fill + 1 }) s)
      else modGov n (fun g => { g with fill := 0 }) s
    let s := modFmt n (fun f => { f with cur := none, rowOpen := false, closing := false }) s
    let s := if s.fmt.trn[n].members = 14 ∧ s.fmt.trn[n].tailsDue = 0 then closeGroup n s else s
    retire n d.dsn s

/-- Data sets that a session end needs (R625): tails of the open group, the manifest with its tails, END, and 64. -/
def endReserve (n : Trn) (s : State) : Nat :=
  let f := s.fmt.trn[n]
  match f.session with
  | none => 0
  | some x =>
    let bytes := 128 + (x.list.length * 4 + 63) / 64 * 64 + 72 * x.sets.length + 48 * x.pieces.length + 8
    let ms := (bytes + dataAreaBytes - 1) / dataAreaBytes
    (if f.members = 0 then f.tailsDue else 2) + ms + 2 * ((ms + 13) / 14) + 1 + 64

/-- The cartridge becomes FULL when the space left falls to the end reserve plus the window (R625, R595). -/
def checkFull (n : Trn) (s : State) : State :=
  let f := s.fmt.trn[n]
  let per := perWrap n s
  let left := (191 - s.trn[n].wrap) * per + (per - f.inWrap)
  if f.full = false ∧ f.session.isSome ∧ left ≤ endReserve n s + windowCount n s then
    ring 14 (setLeaf (11 + n.val) 3 (modFmt n (fun f => { f with
      full := true, session := f.session.map (fun x => { x with ending := true }) }) s))
  else s

/-- A restart condition of R655 that concerns member `n` alone. -/
def memberWants (n : Trn) (s : State) : Bool :=
  let f := s.fmt.trn[n]
  !f.copyDue.isEmpty || decide (f.tailsDue > 0) || (match f.session with
    | some x => x.ending
    | none => false)

/-- A restart condition of R655 for group `g`. -/
def groupWants (g : BitVec 8) (s : State) : Bool :=
  decide (groupQ g s ≥ getN s.gov.param 4 2048 * 2 ^ 20) || forced s ||
  (decide (groupQ g s > 0) && decide (groupAge g s ≥ getN s.gov.param 5 10000)) ||
  (groupStreams g s).any (fun i => !s.ing.stream[i].flushes.isEmpty || s.ing.stream[i].closeTicket.isSome) ||
  s.gov.extEvent || (groupMembers g).any (fun n => memberWants n s || s.gov.mem[n].mode == 1)

/-- A stop for low backlog falls due (R652, R664, R672). -/
def lowBacklogStop (n : Trn) (s : State) : Bool :=
  let g := s.gov.mem[n]
  decide (g.fill ≥ getN s.gov.param 3 3) && !s.gov.extHold && !itemsUnruled n s && g.mode != 1 &&
    !groupWants (groupOf n s) s

/-- A boundary stop is due for member `n` (R621, R624, R653, R657, R668). -/
def stopNow (n : Trn) (s : State) : Bool :=
  let g := s.gov.mem[n]
  g.stopDue || interlock s || g.mode == 2 || s.faults.safe || haltedSrc 20 s || haltedSrc 19 s ||
    s.trn[n].holdup || s.fmt.trn[n].windowHold

/-- A moving transport at a data-set boundary takes its next copy, tails, data set or fill, or stops (R599). -/
def boundary (n : Trn) (lpos : Nat) (s : State) : State :=
  let s := finishDs n s
  let s := modTrn n (fun t => { t with lpos := BitVec.ofNat 32 lpos }) s
  let s := if windowCount n s ≥ 48 then modFmt n (fun f => { f with windowHold := true }) s else s
  let s := allStrm.foldl (fun s i => settleTurn i s) s
  if stopNow n s then leadOutStop n s
  else if s.fmt.trn[n].inWrap ≥ perWrap n s then s
  else
    let s := checkFull n s
    let f := s.fmt.trn[n]
    let ending := match f.session with
      | some x => x.ending
      | none => false
    if !f.copyDue.isEmpty then copyDs n lpos (passTurns n s)
    else if f.tailsDue > 0 then tailDs n lpos (passTurns n s)
    else if ending then if itemsPending n s then fillDs n lpos s else s
    else if s.trn[n].degraded then
      if itemsPending n s then fillDs n lpos s
      else if f.members > 0 then tailDs n lpos (closeGroup n s)
      else leadOutStop n s
    else if lowBacklogStop n s then leadOutStop n (setLeaf 10 1 s)
    else
      match streamFor n s with
      | some i => streamDs n lpos i s
      | none => fillDs n lpos s

/-- Timing recovery acquires anew (R674). -/
def freshLocks (n : Trn) (s : State) : State := modRst n (fun r => { r with lock := Vector.replicate 64 {} }) s

/-- Writing starts at a boundary with the tape at 1.6 m/s or more: the gate, and the lead-in (R549, R645). -/
def startWriting (n : Trn) (s : State) : State :=
  if s.trn[n].gate then s
  else
    modGov n (fun g => { g with state := .running }) (freshLocks n (sendLead .leadIn n (gateOn n s)))

/-! ### The session end (R550, R551) -/

/-- The manifest of the session as it stands. -/
def manifestOf (n : Trn) (x : Session) (s : State) : Manifest :=
  { sessionNo := x.no, nonceFloor := max x.floor x.inv, cartridge := s.trn[n].cartId.toNat, firstDsn := x.firstDsn,
    prevDsn := (x.prev.map (·.1)).getD 0xFFFFFFFFFFFF, prevWrap := (x.prev.map (·.2.1)).getD 0,
    prevLpos := (x.prev.map (·.2.2)).getD 0, sessions := x.list, sets := x.sets, pieces := x.pieces }

/-- The tails of the open group, the MANIFEST data sets with theirs, END and the lead-out go out (R550). `lpos` is the
LPOS at which they begin. -/
def writeSessionEnd (n : Trn) (s : State) : State :=
  let f := s.fmt.trn[n]
  match f.session with
  | none => s
  | some x =>
    let tails := if f.members = 0 then 0 else 2
    let bytes := manifestBytes (manifestOf n x s)
    let ms := max 1 ((bytes.length + dataAreaBytes - 1) / dataAreaBytes)
    let first := f.nextDsn + tails
    let groups := (ms + 13) / 14
    let endDsn := first + ms + 2 * groups
    let at' := Config.lposAt s.trn[n].lpos (if wrapRev s.trn[n].wrap then -(28710 * tails : Int) else 28710 * tails)
    let back := 28710 * (endDsn - f.nextDsn)
    let endAt := Config.lposAt s.trn[n].lpos (if wrapRev s.trn[n].wrap then -(back : Int) else back)
    let endDsi : Dsi :=
      { kind := 4, pos := 0xFF, k := 0, wrap := s.trn[n].wrap, rewrite := 0, stream := 0xFF, dsn := endDsn, fill := 0,
        group := 2 ^ 48 - 1, lpos := endAt.toNat, sessionNo := x.no, cartridge := s.trn[n].cartId.toNat, streamSeq := 0,
        firstItem := 0xFFFFFFFF, bytesBefore := 0, recordAtStart := 2 ^ 48 - 1, linkDsn := first,
        linkWrap := s.trn[n].wrap, linkLpos := at'.toNat }
    let sets := endDsn + 1 - f.nextDsn
    let s := emit (.session n first bytes (dsiBytes endDsi)) s
    let s := count 0x8900 (96 * sets) (count (0x8700 + 0x40 * n.val) (96 * 2 * rowBlocks * sets) s)
    modTrn n (fun t => { t with nextSeq := t.nextSeq + BitVec.ofNat 24 (96 * rowBlocks * sets) })
      (modFmt n (fun f => { f with
        window := [], unruled := [], cur := none, members := 0, tailsDue := 0, tail14 := [], tail15 := []
        nextDsn := endDsn, group := f.group + b2n (decide (tails > 0)) + groups, session := none
        written := x.written + sets, inWrap := f.inWrap + sets, windowHold := false, n := f.n + sets }) s)

/-! ### Streams without a usable transport (R623) -/

/-- No member is left that R600 would name: each is DEGRADED, not loaded for writing, or FULL. -/
def strandedNow (i : Strm) (s : State) : Bool :=
  let m := s.ing.stream[i]
  m.state != .closed && allTrn.all (fun n => !m.set.getLsbD n.val || !(writable n s) || s.trn[n].degraded)

/-- NO_TRANSPORT follows its condition, and STREAM_EVENT sets when it begins (R623). -/
def checkStreams (s : State) : State :=
  allStrm.foldl (fun s i =>
    let x := strandedNow i s
    if x = s.ing.stream[i].noTransport then s
    else
      let s := modStream i (fun m => { m with noTransport := x }) s
      if x then ring 13 s else s) s

end Sys2Proof.Machine
end

