-- ==== Sys2Proof/Machine/FamWrite.lean ====
section
/-!
DEFINITION. Writing and read-behind verify, and the governor: boundaries, rows, rulings, final completions, the session
end, the evaluation, the turn at a wrap's end (ch14, ch15).
-/
namespace Sys2Proof.Machine
open Sys2Proof

/-- As `done`, for commands that can leave a stream without a usable transport or give it one (R623). -/
def doneS (f : State → State) (s : State) : Host.Outcome State Fault Refusal := done (fun s => checkStreams (f s)) s

/-! ### Data sets and rows -/

/-- The data set being written has all its rows out, or there is none. -/
def atBoundary (n : Trn) (s : State) : Bool :=
  match s.fmt.trn[n].cur.bind (fun k => findDs n k s) with
  | none => true
  | some d => (d.copies.head?.map (·.built)).getD 96 == 96

/-- The tape moves for writing: GOV runs the member, or a restart has reached its speed (R645). -/
def readyToWrite (n : Trn) (s : State) : Bool :=
  let g := s.gov.mem[n]
  !s.fmt.trn[n].offTrack && (g.state == .running || (g.state == .restarting && s.trn[n].motion == 2))

/-- DATA_SET_BOUNDARY (R599 to R601, R624, R625, R651 to R653). -/
def execDataSetBoundary (n : Trn) (lpos : Nat) (s : State) : Host.Outcome State Fault Refusal :=
  doneS (fun s =>
    if fmtOn s && s.trn[n].loaded == .writing && s.fmt.trn[n].session.isSome && readyToWrite n s && atBoundary n s then
      let s := boundary n lpos (modGov n (fun g => { g with state := .running }) s)
      if s.fmt.trn[n].cur.isSome then startWriting n s else s
    else s) s

/-- The row's blocks have credits (R573, R603). -/
def creditsForRow (n : Trn) (s : State) : Bool :=
  decide (s.trn[n].credit0 ≥ rowBlocks) && decide (s.trn[n].credit1 ≥ rowBlocks)

/-- ROW_BUILD (R602 to R606). -/
def execRowBuild (n : Trn) (s : State) : Host.Outcome State Fault Refusal :=
  done (fun s => if fmtOn s && s.trn[n].gate && creditsForRow n s then buildRow n false s else s) s

/-- ROW_FLUSH_TIMER, and the write lanes running dry: a row that waits for bytes is padded (R604). -/
def execRowFlushTimer (n : Trn) (s : State) : Host.Outcome State Fault Refusal :=
  done (fun s =>
    if fmtOn s && s.trn[n].gate && creditsForRow n s && s.fmt.trn[n].rowOpen then buildRow n true s else s) s

/-- VRF can rule on rows of TRN_n. -/
def vrfOn (n : Trn) (s : State) : Bool := !haltedSrc 19 s && domOn (halfOf n) s

/-- Codewords go to the deep decoder while its queue has room (R677); the channels' counters (Table 16-10). -/
def noteDecodes (n : Trn) (cs : List CwVerdict) (s : State) : State :=
  let deep := (cs.filter (fun c => !c.lost && wentDeep c.result)).length
  let room := 64 - s.fmt.trn[n].deep
  let dropped := deep - room
  let erased := (cs.filter (fun c => c.lost || decide (c.result.erased > 1024))).length
  count 0x8B00 deep (count 0x8B08 (erased + dropped) (count 0x8B10 dropped
    (modFmt n (fun f => { f with deep := f.deep + (deep - dropped) }) s)))

/-- ROW_RULED (R607 to R611, R617 to R621, Table 14-5). -/
def execRowRuled (n : Trn) (reads : List CwRead) (s : State) : Host.Outcome State Fault Refusal :=
  doneS (fun s =>
    if !vrfOn n s || s.fmt.trn[n].unruled.isEmpty || reads.length != 64 then s
    else
      let x := takeInjector 5 (fun a => decide (a.p2.toNat = n.val)) s
      let y := rowVerdicts n reads x.2
      let pass := y.1.all (·.verifies) && x.1.isNone
      let s := noteDecodes n y.1 y.2
      let s := if pass && y.1.any (fun c => decide (c.result.differ > 32)) then setTrnLeaf n 3 1 s else s
      let s := if y.1.any (fun c => !c.verifies && decide (c.result.erased > 1024)) then setTrnLeaf n 3 2 s else s
      ruleRow n pass s) s

/-- RULING_TIMEOUT (R608, R717). -/
def execRulingTimeout (n : Trn) (s : State) : Host.Outcome State Fault Refusal :=
  doneS (fun s =>
    if !vrfOn n s || s.fmt.trn[n].unruled.isEmpty then s
    else ruleRow n false (raise1 19 (leafCode 0 1) 0 [] s)) s

/-- DEEP_DECODE_DONE (R677, R678). -/
def execDeepDecodeDone (n : Trn) (ok : Bool) (s : State) : Host.Outcome State Fault Refusal :=
  done (fun s =>
    if !vrfOn n s || s.fmt.trn[n].deep == 0 then s
    else
      let s := modFmt n (fun f => { f with deep := f.deep - 1 }) s
      if ok then s else count 0x8B08 1 s) s

/-- FINAL_COMPLETION_POSTED (R30, R33, R46, R612); a record whose completion a fault owes waits for its handling (R832). -/
def execFinalCompletionPosted (r : Nat) (s : State) : Host.Outcome State Fault Refusal :=
  done (fun s => if owedToFault r s then s else tryFinal r s) s

/-- SESSION_END (R550, R591, R625): once every data set with items, every copy and every tail is ruled. -/
def execSessionEnd (n : Trn) (s : State) : Host.Outcome State Fault Refusal :=
  doneS (fun s =>
    match s.fmt.trn[n].session with
    | none => s
    | some x =>
      if !x.ending || !fmtOn s || s.fmt.trn[n].cur.isSome || itemsPending n s || !readyToWrite n s ||
          stopNow n s then s
      else
        let s := writeSessionEnd n (startWriting n s)
        let s := modTrn n (fun t => { t with loaded := .nothing }) (leadOutStop n s)
        match s.trn[n].unloading with
        | some (t, false) => modTrn n (fun p => { p with unloading := some (t, true) }) (sendCtl n 0x31 0 [] s)
        | _ => s) s

/-! ### The evaluation (R646 to R650, R655 to R662) -/

/-- Every stream's rate window moves on by a millisecond (R646). -/
def evalRates (s : State) : State :=
  let rw := getN s.gov.param 1 64
  { s with
    gov.evals := s.gov.evals + 1
    ing.stream := s.ing.stream.map (fun m => { m with added := (m.addedNow :: m.added).take rw, addedNow := 0 }) }

/-- Parameters set since the last evaluation come into force; a change of RATE_WINDOW begins the new window empty (R666). -/
def takeParams (s : State) : State :=
  let s := if getN s.gov.next 1 64 = getN s.gov.param 1 64 then s
    else { s with ing.stream := s.ing.stream.map (fun m => { m with added := [] }) }
  { s with gov.param := s.gov.next }

/-- The mode of a group: STOP before FIXED before AUTO, with the code of the first FIXED member (R672). -/
def groupMode (g : BitVec 8) (s : State) : Nat × Nat :=
  let ms := groupMembers g
  if ms.any (fun n => s.gov.mem[n].mode == 2) then (2, 0)
  else match ms.find? (fun n => s.gov.mem[n].mode == 1) with
    | some n => (1, s.gov.mem[n].fixed)
    | none => (0, 0)

/-- The law's set point and the dwell (R647, R650, R661). -/
def lawPoint (regroup held : Bool) (cur below dwell k : Nat) : Nat × Nat :=
  if regroup then (if held then min k cur else k, 0)
  else if k > cur then (if held then cur else k, 0)
  else if k < cur then (if below ≥ dwell then (k, 0) else (cur, below + 1))
  else (cur, 0)

/-- A group is formed: whether it is a new one, and its members told (R661). -/
def formGroup (g : BitVec 8) (s : State) : Bool × State :=
  ((groupMembers g).any (fun n => s.gov.mem[n].group != g),
    (groupMembers g).foldl (fun s n => modGov n (fun x => { x with group := g }) s) s)

/-- The set point of a group, in the order of R660; `regroup` says that the group is new. -/
def groupPoint (regroup : Bool) (g : BitVec 8) (s : State) : State :=
  let ms := groupMembers g
  match ms, kReqOf g s with
  | n0 :: _, some k =>
    let m := s.gov.mem[n0]
    let held := ms.any (fun n => decide (windowCount n s > 24))
    let k := if forced s then kMax s else k
    let mode := groupMode g s
    let law := lawPoint regroup held m.setPoint m.below (getN s.gov.param 2 100) k
    let point := min (kMax s) (if forced s then kMax s else if mode.1 = 1 then mode.2 else law.1)
    ms.foldl (fun s n => modGov n (fun x => { x with
      setPoint := point, kReq := k, below := if forced s ∨ mode.1 = 1 then 0 else law.2
      mode := mode.1, fixed := mode.2, fill := if point > 0 then 0 else x.fill }) s) s
  | ms, _ => ms.foldl (fun s n => modGov n (fun x => { x with setPoint := 0, kReq := 0, below := 0 }) s) s

/-- Micrometres of tape from speed code `k` down to 1.6 m/s at an acceleration in 0.1 m/s² (R659). -/
def slowUm (k accel : Nat) : Nat := ((1600 + 50 * k) ^ 2 - 1600 ^ 2) * 5 / accel

/-- The end of the wrap is near enough that the member must be slowed (R659). -/
def slowing (n : Trn) (s : State) : Bool :=
  decide ((perWrap n s - s.fmt.trn[n].inWrap) * 28710 ≤ slowUm s.gov.mem[n].setPoint (memberAccel n s))

/-- A moving usable member gets its code when it changes (R644). -/
def commandMember (n : Trn) (s : State) : State :=
  let g := s.gov.mem[n]
  let k := if slowing n s then 0 else g.setPoint
  if g.state = .running ∧ s.trn[n].gate = true ∧ usable n s = true ∧ g.code ≠ k then
    modGov n (fun g => { g with code := k }) (sendMotion n k (wrapRev s.trn[n].wrap) (memberAccel n s) s)
  else s

/-- A holding condition stops a moving member at its boundary, and a restarting one at once (R657, R663); a member whose
hold has ended restarts when it has work, or is parked again (R657). -/
def holdMember (n : Trn) (s : State) : State :=
  let g := s.gov.mem[n]
  let h := interlock s || g.mode == 2 || s.fmt.trn[n].windowHold
  if h then
    let s := modGov n (fun g => { g with restartDue := false }) s
    if g.state = .running then stopAtBoundary n s
    else if g.state = .restarting then stopMember n s
    else if g.state = .parked ∧ g.parked = true then modGov n (fun g => { g with state := .held }) s
    else s
  else if g.state = .held ∧ g.parked = true ∧ memberHeld n s = false then
    let s := modGov n (fun g => { g with state := .parked }) s
    if (windowCount n s > 0 ∨ s.fmt.trn[n].copyDue ≠ [] ∨ s.fmt.trn[n].tailsDue > 0) ∧ usable n s = true then
      restartMember n s
    else s
  else s

/-- A usable member that is to restart does so where it is parked; one that is not parked yet, or whose half is off, waits
for that (R655, R656). -/
def restartWhenParked (wants : Bool) (n : Trn) (s : State) : State :=
  let m := s.gov.mem[n]
  if !(usable n s && (wants || m.restartDue)) then s
  else if m.state == .parked && m.parked then restartMember n s
  else if m.state == .parked || m.state == .stopping then modGov n (fun g => { g with restartDue := true }) s
  else s

/-- Usable members that are parked restart together when a condition of R655 holds. -/
def restartGroup (g : BitVec 8) (s : State) : State :=
  let wants := groupWants g s
  (groupMembers g).foldl (fun s n => restartWhenParked wants n s) s

/-- A parked member whose session an unload must end restarts, whatever its group and though it be DEGRADED, unless an
interlock, a hold or its window holds it (R591, R622, R655). -/
def restartEnding (n : Trn) (s : State) : State :=
  let g := s.gov.mem[n]
  let ending : Bool := match s.fmt.trn[n].session with
    | some x => x.ending
    | none => false
  let go : Bool := ending && (g.state == .parked || g.state == .held) && g.parked && s.trn[n].port == .up &&
    !interlock s && g.mode != 2 && !s.fmt.trn[n].windowHold
  if go then restartMember n s else s

/-- The groups, each once (R642). -/
def allGroups (s : State) : List (BitVec 8) := ((allTrn.map (fun n => groupOf n s)).filter (fun g => g != 0)).eraseDups

/-- GOV_EVALUATION (R646 to R650, R655 to R662). -/
def execGovEvaluation (s : State) : Host.Outcome State Fault Refusal :=
  done (fun s =>
    if !govOn s then s
    else
      let s := evalRates (takeParams s)
      let gs := allGroups s
      let s := allTrn.foldl (fun s n => if gs.all (fun g => !g.getLsbD n.val) then
        modGov n (fun m => { m with group := 0, setPoint := 0, kReq := 0, below := 0, mode := 0, fixed := 0, restartDue := false }) s else s) s
      let s := gs.foldl (fun s g =>
        let (regroup, s) := formGroup g s
        let s := (groupMembers g).foldl (fun s n => holdMember n s) s
        let s := groupPoint regroup g s
        let s := restartGroup g s
        (groupMembers g).foldl (fun s n => commandMember n s) s) s
      let s := allTrn.foldl (fun s n => restartEnding n s) s
      { s with gov.extEvent := false }) s

/-- EXT_HOLD_EXPIRY (R658). -/
def execExtHoldExpiry (s : State) : Host.Outcome State Fault Refusal :=
  done (fun s => { s with gov.extHold := false }) s

/-- WRAP_TURN (R557, R659): the lead-out, the stop, and the park at the start of the next wrap. -/
def execWrapTurn (n : Trn) (s : State) : Host.Outcome State Fault Refusal :=
  done (fun s =>
    let g := s.gov.mem[n]
    if govOn s && fmtOn s && g.state == .running && s.fmt.trn[n].session.isSome && s.fmt.trn[n].cur.isNone &&
        decide (s.fmt.trn[n].inWrap ≥ perWrap n s) && decide (s.trn[n].wrap < 191) then
      modGov n (fun g => { g with state := .turning }) (leadOutStop n s)
    else s) s

/-- RAMP_FAULT (R667): the member is lost. -/
def execRampFault (n : Trn) (s : State) : Host.Outcome State Fault Refusal :=
  doneS (fun s =>
    let g := s.gov.mem[n]
    if govOn s && (g.state == .stopping || g.state == .restarting || g.state == .turning || g.locating ||
        (g.state == .running && s.trn[n].motion == 1)) then
      let r := loseTransport n rMedia s
      count 0x8A18 1 (raise1 20 (leafCode 0 4) 0 r.1 r.2)
    else s) s

end Sys2Proof.Machine
end

