-- ==== Sys2Proof/Machine/Read.lean ====
section
/-!
DEFINITION. Reading a cartridge: data-set information and manifests read back, C2 and C3 recovery, the retry ladder; and
opening a writing session, with the reseed of the cipher contexts (ch11, ch12, ch13, ch16).
-/
namespace Sys2Proof.Machine
open Sys2Proof

/-! ### Data-set information and manifests read back (R537, R551, R560, R562) -/

/-- The fields of a data set's information; none where its CRC-32C or FORMAT is wrong (R560). -/
def readDsi (bs : List Byte) : Option Dsi :=
  if bs.length ≠ 96 ∨ leAt bs 0 1 ≠ 1 ∨ (crc32c (slice bs 0 92)).toNat ≠ leAt bs 92 4 then none
  else some {
    kind := leAt bs 1 1, pos := leAt bs 2 1, k := leAt bs 3 1, wrap := leAt bs 4 1, rewrite := leAt bs 5 1,
    stream := leAt bs 6 1, dsn := leAt bs 8 6, fill := leAt bs 0x0E 2, group := leAt bs 0x10 6, lpos := leAt bs 0x18 4,
    sessionNo := leAt bs 0x1C 4, cartridge := leAt bs 0x20 8, streamSeq := leAt bs 0x28 6, firstItem := leAt bs 0x30 4,
    bytesBefore := leAt bs 0x34 4, recordAtStart := leAt bs 0x38 6, linkDsn := leAt bs 0x40 6, linkWrap := leAt bs 0x46 1,
    linkLpos := leAt bs 0x48 4 }

/-- A piece entry (Table 12-9). -/
def readPiece (bs : List Byte) : Piece :=
  { record := leAt bs 0 6, stream := leAt bs 6 1, first := (leAt bs 7 1) % 2 == 1, last := (leAt bs 7 1) / 2 % 2 == 1,
    dsn := leAt bs 8 6, wrap := leAt bs 0x0E 1, lpos := leAt bs 0x10 4, offset := leAt bs 0x14 4, length := leAt bs 0x18 4,
    bytesBefore := leAt bs 0x1C 4, streamSeq := leAt bs 0x20 6, hostTag := leAt bs 0x28 8 }

/-- A manifest (Table 12-8); none where MAGIC, VERSION, its length or its CRC-64 is wrong (R562). -/
def readManifest (bs : List Byte) : Option Manifest :=
  let count := leAt bs 0x0C 4
  let sets := leAt bs 0x34 4
  let pieces := leAt bs 0x38 8
  let total := leAt bs 0x40 8
  let setsAt := 128 + (4 * count + 63) / 64 * 64
  let piecesAt := setsAt + 72 * sets
  if leAt bs 0 4 ≠ 0x31464D58 ∨ leAt bs 4 2 ≠ 1 ∨ total > bs.length ∨ total ≠ piecesAt + 48 * pieces + 8 then none
  else if (crc64 (bs.take (total - 8))).toNat ≠ leAt bs (total - 8) 8 then none
  else some {
    sessionNo := leAt bs 8 4, nonceFloor := leAt bs 0x10 8, cartridge := leAt bs 0x18 8, firstDsn := leAt bs 0x20 6,
    prevDsn := leAt bs 0x28 6, prevWrap := leAt bs 0x2E 1, prevLpos := leAt bs 0x30 4,
    sessions := (List.range count).map (fun i => leAt bs (128 + 4 * i) 4),
    sets := (List.range sets).map (fun i => (leAt bs (setsAt + 72 * i) 1,
      (List.range (min 8 (leAt bs (setsAt + 72 * i + 1) 1))).map (fun j => leAt bs (setsAt + 72 * i + 8 + 8 * j) 8))),
    pieces := (List.range pieces).map (fun i => readPiece (slice bs (piecesAt + 48 * i) 48)) }

/-! ### A pass over a data set (R674 to R678, R691, R692) -/

/-- What stands in more than half of the bytes (R560). -/
def majority (bs : List Byte) : Option Byte := bs.find? (fun b => decide (2 * (bs.filter (· == b)).length > bs.length))

/-- The data-set information that a data set's ID words give (R537, R560). -/
def seenDsi (ids : List (List Byte)) : Option Dsi := (ids.mapM majority).bind readDsi

/-- The sync marks of one channel, row by row: codewords erased, and timing recovery after the last (R674). -/
def syncChannel (cws : List ((Nat × Nat) × CwRead)) (c : Nat) (k : ChanLock) : List (Nat × Nat) × ChanLock :=
  (List.range 96).foldl (fun acc row =>
    let mark := match cws.find? (fun x => x.1 == (row, c)) with
      | some x => x.2.sync
      | none => some 0
    let y := syncStep row mark acc.2
    (if y.1.2 then acc.1 ++ [(row, c)] else acc.1, y.2)) ([], k)

/-- The sync marks of a data set: codewords erased, and timing recovery after it; a channel with nothing out of place and
nothing missed before stays as it is. -/
def syncSet (cws : List ((Nat × Nat) × CwRead)) (locks : Vector ChanLock 64) : List (Nat × Nat) × Vector ChanLock 64 :=
  ((List.range 64).filter (fun c => getN locks c {} != {} || cws.any (fun x => x.1.2 == c))).foldl (fun acc c =>
    let y := syncChannel cws c (getN acc.2 c {})
    (acc.1 ++ y.1, updN acc.2 c (fun _ => y.2))) ([], locks)

/-- The number of the pass that TRN_n makes: 1, or that of the retry pass under way. -/
def passNumber (n : Trn) (s : State) : Nat :=
  if s.rst.trn[n].retrying then s.rst.trn[n].passNo else 1

/-- A pass over a data set: the codewords that fail it and the wrong information bytes of those decoded wrongly. First
passes use target A and DEEP_ITER, retry passes target B and 16 global iterations (R678, Table 16-5; log 191). -/
def readPass (n : Trn) (d : DataSetRead) (s : State) :
    (List (Nat × Nat) × List ((Nat × Nat) × List Byte)) × State :=
  let again := decide (passNumber n s > 1)
  let y := syncSet d.cws s.rst.trn[n].lock
  let rs := (d.cws.filter (fun x => !y.1.contains x.1)).map (fun x =>
    (x.1, cwResult again (if again then 16 else getN s.rst.param 3 8) (c1Codeword (infoAt d.area x.1)) x.2.signal))
  let deep := (rs.filter (fun x => wentDeep x.2)).map (·.1)
  let dropped := deep.filter (fun x => d.dropped.contains x)
  let fails := y.1 ++ (rs.filter (fun x => x.2.iters == 0 || dropped.contains x.1)).map (·.1)
  let wrong := rs.filterMap (fun x => if fails.contains x.1 then none else x.2.read.map (fun bs => (x.1, bs)))
  ((fails, wrong), count 0x8B00 deep.length (count 0x8B08 fails.length (count 0x8B10 dropped.length
    (modRst n (fun r => { r with lock := y.2 }) s))))

/-- A codeword decoded in any pass over any copy serves the data set (R548, R691). -/
def HeldSet.meet (h : HeldSet) (fails : List (Nat × Nat)) (wrong : List ((Nat × Nat) × List Byte)) : HeldSet :=
  { h with
    fails := h.fails.filter (fun x => fails.contains x)
    wrong := h.wrong ++ wrong.filter (fun w => h.fails.contains w.1) }

/-- What the ladder made of one data set: bytes left unknown, its highest step, and the verdict's C2_USED, C3_USED and
AVERAGED (Table 16-4). -/
structure Ruling where
  gaps : Gaps
  step : Nat
  bits : BitVec 8
  deriving DecidableEq, Repr

/-- The ruling once C2 has run. -/
def HeldSet.ruling (h : HeldSet) : Ruling :=
  { gaps := c2Gaps h.area h.fails h.wrong, step := h.step
    bits := BitVec.ofNat 8 (16 * b2n (decide (c2Fixed h.area h.fails h.wrong > 0)) + 64 * b2n h.averaged) }

/-! ### Searching a tape (R552, R562, R682, R695) -/

/-- The start of wrap `w`, as a place: wrap, DSN, LPOS. -/
def wrapGoal (w : Nat) : Nat × Nat × Nat := (w, 0, (Config.wrapStart w).toNat)

/-- A search begins at the start of the middle wrap (R552 step 1). -/
def beginScan (t : Nat) (p : ScanFor) : Scan := { ticket := t, purpose := p, phase := .search 0 192, goal := wrapGoal 96 }

/-- The place after a data set, 28.71 mm on in its wrap. -/
def afterDs (d : Dsi) : Nat × Nat × Nat :=
  (d.wrap, d.dsn + 1, (Config.lposAt (BitVec.ofNat 32 d.lpos) (if wrapRev d.wrap then -28710 else 28710)).toNat)

/-- Reading goes on behind a data set; the Bool of a step says whether the tape must be located anew. -/
def goOn (d : Dsi) (x : Scan) : Scan × Bool := ({ x with goal := afterDs d }, false)

def scanOver (x : Scan) : Scan × Bool := ({ x with phase := .ended }, false)

/-- A rebuild reads forward, from the newest manifest that passed or the first data set (R695). -/
def startForward (x : Scan) : Scan × Bool :=
  let g := match x.newest with
    | some m => (m.wrap, m.dsn, m.lpos)
    | none => wrapGoal 0
  ({ x with phase := .forward, lastDsn := none, manifest := [], goal := g }, true)

/-- No manifest is left to read. -/
def chainOver (x : Scan) : Scan × Bool := match x.purpose with
  | .rebuild _ => startForward x
  | _ => scanOver x

/-- Reading of the manifest at `g` begins. -/
def startManifest (g : Nat × Nat × Nat) (x : Scan) : Scan × Bool :=
  ({ x with phase := .chain, goal := g, manifest := [], lastDsn := none }, true)

/-- Whether the start of wrap (lo + hi) / 2 holds sync marks halves the search (R552 step 1). -/
def searchStep (marks : Bool) (lo hi : Nat) (x : Scan) : Scan × Bool :=
  let mid := (lo + hi) / 2
  let lo := if marks then mid + 1 else lo
  let hi := if marks then hi else mid
  if lo < hi then ({ x with phase := .search lo hi, goal := wrapGoal ((lo + hi) / 2) }, true)
  else if lo = 0 then scanOver x
  else ({ x with wraps := lo, phase := .wrap, goal := wrapGoal (lo - 1) }, true)

/-- MAGIC of a manifest stands at the start of these bytes. -/
def hasMagic (bs : List Byte) : Bool := leAt bs 0 4 == 0x31464D58

/-- A data set of the last wrap: END names the newest manifest (R552 steps 2 and 3). Without END, the newest manifest is
the last one met, in this wrap or one before it (R682). -/
def wrapStep (empty : Bool) (d : Option Dsi) (area : List Byte) (x : Scan) : Scan × Bool :=
  match d with
  | none =>
    if !empty then (x, false)
    else if x.purpose = .load then scanOver x
    else match x.met with
      | some g => startManifest g x
      | none => if x.goal.1 = 0 then chainOver x else ({ x with goal := wrapGoal (x.goal.1 - 1) }, true)
  | some d =>
    if d.kind = 4 then startManifest (d.linkWrap, d.linkDsn, d.linkLpos) { x with endDsi := some d }
    else
      goOn d { x with
        group := max x.group (d.group + 1), inWrap := x.inWrap + 1
        met := if d.kind = 3 ∧ hasMagic area = true then some (d.wrap, d.dsn, d.lpos) else x.met }

/-- TOTAL_LEN of a manifest that begins with these bytes. -/
def totalOf (bs : List Byte) : Option Nat := if bs.length < 0x48 ∨ hasMagic bs = false then none else some (leAt bs 0x40 8)

/-- The manifest before the one that begins with these bytes: none where they do not say, some none at the first session. -/
def prevOf (bs : List Byte) : Option (Option (Nat × Nat × Nat)) :=
  if (totalOf bs).isNone then none
  else if leAt bs 0x28 6 = 2 ^ 48 - 1 then some none
  else some (some (leAt bs 0x2E 1, leAt bs 0x28 6, leAt bs 0x30 4))

/-- What the index keeps of a manifest that begins at `g`. -/
def sessionAt (g : Nat × Nat × Nat) (m : Manifest) : IdxSession :=
  { no := m.sessionNo, floor := m.nonceFloor, list := m.sessions, sets := m.sets, pieces := m.pieces,
    dsn := g.2.1, wrap := g.1, lpos := g.2.2 }

/-- The manifest with the known bytes of the next data set: `k` of them. -/
def growManifest (old area : List Byte) (k : Nat) : List Byte :=
  let rest := match totalOf (if old = [] then slice area 0 (min k 0x48) else old) with
    | some t => t - old.length
    | none => k
  old ++ slice area 0 (min k rest)

/-- A manifest is read in full, or can be read no further. -/
def manifestDone (bs : List Byte) (k : Nat) : Bool :=
  decide (k < dataAreaBytes) || (match totalOf bs with
    | some t => decide (t ≤ bs.length)
    | none => true)

/-- The manifest's bytes are at hand as far as they go: the newest sound one is kept; reading goes on at the manifest
before it where that is wanted and known (R682, R695). -/
def endManifest (bs : List Byte) (x : Scan) : Scan × Bool :=
  let m := (readManifest bs).map (sessionAt x.place)
  let x := { x with newest := if x.newest.isNone then m else x.newest, manifest := [], lastDsn := none }
  match x.purpose, m with
  | .load, _ => scanOver x
  | .rebuild _, some _ => startForward x
  | _, _ => match prevOf bs with
    | some (some g) => startManifest g x
    | _ => chainOver x

/-- A data set while manifests are read; `k` is how many of its bytes are known up to the first unknown one. The last
component gives the manifest's bytes once no more come. -/
def chainStep (empty : Bool) (d : Option Dsi) (area : List Byte) (k : Nat) (x : Scan) : (Scan × Bool) × Option (List Byte) :=
  match d with
  | none =>
    if !empty then ((x, false), none)
    else if x.lastDsn.isSome ∧ x.goal.2.1 ≠ 0 ∧ x.goal.1 < 191 then
      (({ x with goal := wrapGoal (x.goal.1 + 1) }, true), none)
    else (endManifest x.manifest x, some x.manifest)
  | some d =>
    let x := { x with group := max x.group (if d.kind = 4 then 0 else d.group + 1) }
    let early := match x.lastDsn with
      | none => decide (d.dsn < x.goal.2.1)
      | some l => decide (d.dsn ≤ l)
    if early = true then ((x, false), none)
    else if d.kind = 2 ∧ x.lastDsn.isSome then (goOn d x, none)
    else if d.kind = 3 ∧ (x.lastDsn.isSome ∨ d.dsn = x.goal.2.1) then
      let bs := growManifest x.manifest area k
      let x := { x with
        lastDsn := some d.dsn, place := if x.lastDsn.isSome then x.place else (d.wrap, d.dsn, d.lpos), manifest := bs }
      if manifestDone bs k = true then (endManifest bs x, some bs) else (goOn d x, none)
    else (endManifest x.manifest x, some x.manifest)

/-! ### Cipher contexts (R481, R484, R485) -/

/-- SESSION values that a draw for stream `i` may not take (R481). -/
def barredSession (i : Strm) (v : Nat) (s : State) : Bool :=
  v == 0 ||
  allStrm.any (fun j => match s.cip.ctx[j] with
    | some c => (decide (j ≠ i) && c.session.toNat == v) || (c.old.any (fun x => x.toNat == v))
    | none => false) ||
  allTrn.any (fun n => match s.fmt.trn[n].session with
    | some x => x.list.contains v
    | none => false)

/-- A draw from the entropy source: a free value, taken again while it is barred; after 8 draws the lowest value that is
not barred (log 24). -/
def drawSession (i : Strm) : Nat → State → Nat × State
  | 0, s => (((List.range 0x8000).find? (fun v => !barredSession i v s)).getD 1, s)
  | fuel + 1, s =>
    let f := entropyWord s
    let v := f.1.toNat % 2 ^ 29
    if barredSession i v f.2 then drawSession i fuel f.2 else (v, f.2)

/-- The largest nonce floor of the cartridges loaded for writing in a set (R484). -/
def setFloor (set : BitVec 8) (s : State) : Nat :=
  (allTrn.filter (fun n => set.getLsbD n.val)).foldl (fun m n => match s.fmt.trn[n].session with
    | some x => max m x.floor
    | none => m) 0

/-- A stream's blocks that CIP has encrypted or holds under the context and FMT has not taken in full. -/
def contextInUse (i : Strm) (v : BitVec 29) (s : State) : Bool :=
  s.ing.recs.any (fun x => match x.2 with
    | some r => r.stream == i && r.verdict.isNone && decide (r.placed < runLen r) &&
        r.blocks.any (fun b => !b.iv.isEmpty && ivSession b.iv == v.toNat)
    | none => false)

/-- The context is reseeded: a new SESSION, COUNT at least the floors of its set (R484). -/
def reseed (i : Strm) (s : State) : State :=
  match s.cip.ctx[i] with
  | none => s
  | some c =>
    let d := drawSession i 8 s
    let floor := setFloor s.ing.stream[i].set d.2
    { d.2 with cip.ctx := upd d.2.cip.ctx i (fun _ => some { c with
        session := BitVec.ofNat 29 d.1, count := BitVec.ofNat 64 (max c.count.toNat floor), blocks := 0
        reseeds := c.reseeds + 1
        old := (c.session :: c.old).filter (fun v => contextInUse i v s) }) }

/-- Blocks encrypted and not taken by FMT whose SESSION is in cartridge list `list`, of streams whose set holds TRN_n
(R485). -/
def blocksAgain (n : Trn) (list : List Nat) (s : State) : List (Nat × Nat) :=
  s.ing.recs.flatMap (fun x => match x.2 with
    | some v =>
      if v.verdict.isNone && s.ing.stream[v.stream].set.getLsbD n.val then
        (v.blocks.zipIdx.filter (fun b => b.1.st == .encrypted && list.contains (ivSession b.1.iv) &&
          decide (v.placed ≤ 64 + ((v.blocks.take b.2).map (fun y => y.len + 32)).sum))).map (fun b => (x.1, b.2))
      else []
    | none => [])

/-! ### Opening a writing session (R484, R485, R500, R513, R590) -/

/-- What a load for writing found on the tape. -/
structure Found where
  no : Nat
  floor : Nat
  list : List Nat
  dsn : Nat
  group : Nat
  prev : Option (Nat × Nat × Nat)
  wrap : Nat
  /-- LPOS at which writing goes on: that of the END data set, or the start of wrap 0 of a new cartridge. -/
  lpos : Word
  inWrap : Nat

/-- What the search says of the end of data (R552); the refusal's code otherwise (R500, R513). -/
def endOfData (x : Scan) : Except Nat Found :=
  match x.endDsi, x.newest with
  | some d, some m =>
    if m.no ≠ d.sessionNo then .error rNotfound
    else if m.list.length ≥ 4096 then .error rNonce
    else .ok ⟨d.sessionNo + 1, m.floor, m.list, d.dsn, x.group, some (d.linkDsn, d.linkWrap, d.linkLpos), d.wrap,
      BitVec.ofNat 32 d.lpos, x.inWrap⟩
  | _, _ => if x.wraps = 0 then .ok ⟨0, 0, [], 0, 0, none, 0, Config.wrapStart 0, 0⟩ else .error rNotfound

/-- The writing session opens: numbering, the contexts' reseed, the blocks to encrypt again; the member stands parked at
the END data set (R484, R485, R546, R590, R669). -/
def openSession (n : Trn) (e : Found) (s : State) : State :=
  let s := modFmt n (fun f => { f with
    session := some { no := e.no, firstDsn := e.dsn, prev := e.prev, floor := e.floor, old := e.list, added := [], inv := 0,
                      pieces := [], sets := [], written := 0, ending := false }
    nextDsn := e.dsn, group := e.group, members := 0, tailsDue := 0, tail14 := [], tail15 := [], u := 0, n := 0
    inWrap := e.inWrap, full := false, written := 0, windowHold := false, window := [], unruled := [], copyDue := [], cur := none }) s
  let s := modTrn n (fun t => { t with loaded := .writing, loading := none, wrap := e.wrap }) s
  let s := modGov n (fun g => { g with state := .parked, parked := true, locating := false, code := 255, fill := 0 }) s
  let s := (allStrm.filter (fun i => s.ing.stream[i].set.getLsbD n.val && s.ing.stream[i].state != .closed)).foldl
    (fun s i => reseed i s) s
  { s with cip.again := s.cip.again ++ (blocksAgain n e.list s).filter (fun x => !s.cip.again.contains x) }

/-- The load ends (R590): refused, or the cartridge stands loaded; W2 and W3 hold CARTRIDGE_ID, W4 SESSION_NO. -/
def finishLoad (n : Trn) (l : Loading) (s : State) : State :=
  let id := s.trn[n].cartId
  let ws := [BitVec.ofNat 32 id.toNat, BitVec.ofNat 32 (id.toNat / 2 ^ 32)]
  let s := ring 14 (clearLadder n s)
  if !l.forWrite then
    completeTicket l.ticket rOk ws (modTrn n (fun t => { t with loaded := .reading, loading := none, wrap := 0 }) s)
  else
    match endOfData l.scan with
    | .error c => completeTicket l.ticket c [] (modTrn n (fun t => { t with loading := none }) s)
    | .ok e => completeTicket l.ticket rOk (ws ++ [BitVec.ofNat 32 e.no]) (openSession n e s)

end Sys2Proof.Machine
end

