-- ==== Sys2Proof/Machine/Seek.lean ====
section
/-!
DEFINITION. Where a transport loaded for reading goes next: what its requests and scans need, LOCATE and MOTION toward it,
and the stop when nothing needs it (ch16, R679 to R681, R699).
-/
namespace Sys2Proof.Machine
open Sys2Proof

/-- Speed in mm/s of a speed code (Table 13-5). -/
def codeSpeed (k : Nat) : Nat := 1600 + 50 * k

/-- The way from the LOCATE target to the data set, in micrometres: v² ÷ 2a + 0.05742 m (R679). -/
def leadUm (k accel : Nat) : Nat := 5 * codeSpeed k ^ 2 / max 1 accel + 57420

/-- The speed code of TRN_n's pass (R679, R691), no higher than THERM_CAP under the throttle (Table 17-3). -/
def passCode (n : Trn) (s : State) : Nat := min (kMax s) (getN s.rst.param (b2n s.rst.trn[n].retrying) 128)

/-- LOCATE to the point before wrap, DSN and LPOS (R679). -/
def locateRead (n : Trn) (g : Nat × Nat × Nat) (s : State) : State :=
  let d : Int := leadUm (passCode n s) s.trn[n].accel
  let target := Config.lposAt (BitVec.ofNat 32 g.2.2) (if wrapRev g.1 then d else -d)
  let s := modRst n (fun r => { r with dsn := g.2.1 }) (modTrn n (fun t => { t with wrap := g.1 }) s)
  sendLocate n g.1 target.toNat s

/-- The data set at this wrap and DSN lies ahead in the wrap that is read, within 20 m: at 28.71 mm a data set, at most
696 of them (R679). -/
def aheadOf (n : Trn) (g : Nat × Nat × Nat) (s : State) : Bool :=
  g.1 == s.trn[n].wrap && decide (s.rst.trn[n].dsn ≤ g.2.1 ∧ g.2.1 - s.rst.trn[n].dsn ≤ 696)

/-- Data sets that hold the bytes of a piece. -/
def pieceSets (p : Piece) : Nat := (p.offset + p.length + dataAreaBytes - 1) / dataAreaBytes

/-- The information of the data set with this place in the stream, if it is decoded or on the ladder. -/
def readSet (n : Trn) (stream seq : Nat) (s : State) : Option Dsi :=
  let r := s.rst.trn[n]
  (r.cache.map (·.dsi) ++ r.held.map (·.dsi)).find? (fun d => d.kind == 1 && d.stream == stream && d.streamSeq == seq)

/-- Where the first data set of a piece lies that is not read yet: the piece's own place, or behind the data set before
it. -/
def pieceGoal (n : Trn) (p : Piece) (s : State) : Option (Nat × Nat × Nat) :=
  match (List.range (pieceSets p)).find? (fun j => (readSet n p.stream (p.streamSeq + j) s).isNone) with
  | none => none
  | some 0 => some (p.wrap, p.dsn, p.lpos)
  | some (j + 1) => (readSet n p.stream (p.streamSeq + j) s).map afterDs

/-- Data sets of TRN_n that its requests need and that are not read yet. -/
def unread (n : Trn) (s : State) : List (Nat × Nat × Nat) :=
  (s.rst.reqs.filter (reads n)).flatMap (fun q =>
    (q.todo.filter (fun p => decide (p.1 = n.val))).filterMap (fun p => pieceGoal n p.2 s))

/-- The least by DSN, the order along the tape in the direction of travel. -/
def firstDsn (gs : List (Nat × Nat × Nat)) : Option (Nat × Nat × Nat) :=
  gs.foldl (fun (b : Option (Nat × Nat × Nat)) g =>
    match b with
    | none => some g
    | some x => if g.2.1 < x.2.1 then some g else b) none

/-- What TRN_n is to read next: its scan's goal, unless a data set of it is on the ladder; else the next unread data set in
the direction of travel, and with none ahead the first of all (R699, R700; log 195). -/
def goalOf (n : Trn) (s : State) : Option (Nat × Nat × Nat) :=
  match s.rst.trn[n].scan with
  | some x => if s.rst.trn[n].held.isEmpty then some x.goal else none
  | none =>
    let gs := unread n s
    match firstDsn (gs.filter (fun g => decide (s.rst.trn[n].dsn ≤ g.2.1))) with
    | some g => some g
    | none => firstDsn gs

/-- Where the ladder's pass under way begins, if it is not the first: the first data set held, or its group's sweep. -/
def ladderPlace (n : Trn) (s : State) : Option (Nat × Nat × Nat) :=
  let r := s.rst.trn[n]
  match r.sweep, r.held with
  | some g, _ => some g.place
  | none, h :: _ => if r.retrying then some (h.dsi.wrap, h.dsi.dsn, h.dsi.lpos) else none
  | none, [] => none

/-- The transport may be moved for reading. -/
def mayRead (n : Trn) (s : State) : Bool :=
  s.trn[n].port == .up && !s.trn[n].degraded && s.trn[n].loaded == .reading && !interlock s && !haltedSrc 19 s &&
    !haltedSrc (11 + n.val) s && !s.faults.safe

/-- TRN_n is located for reading. -/
def goRead (n : Trn) (g : Nat × Nat × Nat) (s : State) : State := locateRead n g (modRst n (fun r => { r with reading := true }) s)

/-- TRN_n goes on reading: it reads on where its next data set lies ahead, else it is located anew; a half that is off is
asked for first; with nothing to read it stops (R679 to R681). One that was stopped on the retry ladder goes back to where
the pass began. -/
def serve (n : Trn) (anew : Bool) (s : State) : State :=
  if !needsTrn n s then stopIdle n s
  else if !mayRead n s then s
  else if !domOn (halfOf n) s then wakeHalf n s
  else
    let r := s.rst.trn[n]
    let on := r.reading && !anew
    match ladderPlace n s, goalOf n s, r.held with
    | some g, _, _ => if on then s else goRead n g s
    | none, some g, _ => if on && aheadOf n g s then s else goRead n g s
    | none, none, h :: _ => if on then s else goRead n (h.dsi.wrap, h.dsi.dsn, h.dsi.lpos) s
    | none, none, [] => s

/-- An asserted interlock stops a reading transport at a data-set boundary (R72, R680). -/
def holdReading (n : Trn) (s : State) : State :=
  if interlock s && s.rst.trn[n].reading then
    modRst n (fun r => { r with reading := false }) (sendMotion n 255 (wrapRev s.trn[n].wrap) s.trn[n].accel s)
  else s

/-- A pass begins or changes its speed: MOTION at READ_SPEED or RETRY_SPEED (R679, R691). -/
def runPass (n : Trn) (s : State) : State := sendMotion n (passCode n s) (wrapRev s.trn[n].wrap) s.trn[n].accel s

/-- A reading transport that has stopped at its target reads on (R674, R679). -/
def readOn (n : Trn) (s : State) : State := if s.rst.trn[n].reading then runPass n (freshLocks n s) else s

/-! ### Loads (R552, R581, R590, R709) -/

/-- A load goes on to `ph`. -/
def loadPhase (n : Trn) (l : Loading) (ph : LoadPhase) (s : State) : State :=
  modTrn n (fun p => { p with loading := some { l with phase := ph } }) s

/-- The next LOCATE of a load that no interlock holds back, once its VRF half is on (R101): to the start of wrap 0, to
what its search reads next, or before the END data set (R581, R590 step 3). -/
def loadLocate (n : Trn) (s : State) : State :=
  match s.trn[n].loading with
  | none => s
  | some l =>
    if interlock s || l.phase != .waiting then s
    else if !domOn (halfOf n) s then wakeHalf n s
    else if !l.forWrite then
      sendLocate n 0 (Config.wrapStart 0).toNat (modTrn n (fun p => { p with wrap := 0 }) (loadPhase n l .seeking s))
    else
      match l.scan.phase, endOfData l.scan with
      | .ended, .ok e => locatePark n e.wrap e.lpos (modTrn n (fun p => { p with wrap := e.wrap }) (loadPhase n l .positioning s))
      | _, _ => locateRead n l.scan.goal (loadPhase n l .seeking s)

/-- A load ends with a refusal's code. -/
def failLoad (n : Trn) (code : Nat) (s : State) : State :=
  match s.trn[n].loading with
  | none => s
  | some l => ring 14 (completeTicket l.ticket code [] (modTrn n (fun p => { p with loading := none }) (clearLadder n s)))

/-- The tape has stopped while a load is under way (R552, R590, R709). -/
def loadStopped (n : Trn) (l : Loading) (s : State) : State :=
  match l.phase with
  | .seeking =>
    if l.forWrite && !domOn (halfOf n) s then wakeHalf n (loadPhase n l .waiting s)
    else if l.forWrite then runPass n (freshLocks n (loadPhase n l .reading s))
    else finishLoad n l s
  | .positioning => finishLoad n l s
  | _ => s

/-- A step of a load's search: LOCATE again, or the end of data is known, or the load is refused (R500, R513, R590). -/
def loadStep (n : Trn) (l : Loading) (r : Scan × Bool) (s : State) : State :=
  let l := { l with scan := r.1 }
  if r.1.phase = .ended then
    match endOfData r.1 with
    | .error c => failLoad n c (sendMotion n 255 (wrapRev s.trn[n].wrap) s.trn[n].accel s)
    | .ok _ => loadLocate n (loadPhase n l .waiting s)
  else if r.2 then loadLocate n (loadPhase n l .waiting s)
  else loadPhase n l .reading s

end Sys2Proof.Machine
end

