-- ==== Sys2Proof/Machine/FamTrn.lean ====
section
/-!
DEFINITION. Transport ports and the gondola link: the XPORT commands, link start, the gondola's status messages, the servo
engine, lost lanes and transports (ch13), and what motion reports do to stops, parks, turns and loads (ch15).
-/
namespace Sys2Proof.Machine
open Sys2Proof

/-! ### The XPORT commands (R588 to R593) -/

/-- The transport that P1 [2:0] names. -/
def trnOf (m : Msg) : Trn := Fin.ofNat 8 (m.f 1 0 3)

/-- The transport's domain is off (ch13, The XPORT family). -/
def tlOff (m : Msg) (s : State) : Bool := !domOn (tlDomain (trnOf m).val) s

/-- An open stream's set names the transport. -/
def named (n : Trn) (s : State) : Bool :=
  allStrm.any (fun i => s.ing.stream[i].state != .closed && s.ing.stream[i].set.getLsbD n.val)

/-- A load or an unload of TRN_n is in flight. -/
def loadBusy (n : Trn) (s : State) : Bool := s.trn[n].loading.isSome || s.trn[n].unloading.isSome

/-- A restore uses TRN_n (R591). -/
def restoreUses (n : Trn) (s : State) : Bool :=
  s.rst.trn[n].scan.isSome ||
    s.rst.reqs.any (fun q => decide (q.trn = n) || q.todo.any (fun p => decide (p.1 = n.val)))

/-- The answer of XPORT.INFO (R588). -/
def xportWords (n : Trn) (s : State) : List Word :=
  let t := s.trn[n]
  let lo := fun (v : Nat) => BitVec.ofNat 32 v
  [pack [(0, portCode t.port), (8, b2n t.degraded), (9, b2n t.spareInUse), (10, t.spareRole.toNat)],
   pack [(0, t.cart.toNat), (4, b2n t.wp), (8, b2n s.fmt.trn[n].session.isSome), (9, b2n s.fmt.trn[n].full)],
   lo t.cartId.toNat, lo (t.cartId.toNat / 2 ^ 32), lo t.serial.toNat, lo (t.serial.toNat / 2 ^ 32),
   pack [(0, t.motion.toNat), (16, t.speed.toNat)], lo t.wrap, t.lpos]

def xportInfo : Cmd := {
  opcode := 0x0201, lens := fun _ => [1], bits := fun _ => [7], state := tlOff
  act := fun m s => (rOk, xportWords (trnOf m) s, s) }

/-- XPORT.INFO (R588). -/
def execXportInfo (ch : Chan) (s : State) : Host.Outcome State Fault Refusal := done (runCommand xportInfo ch) s

/-- START's first step: SYSREF, markers and LINK_START, with nothing known of the far side yet (Table 13-10, R575). -/
def startLink (n : Trn) (t : Nat) (s : State) : State :=
  let s := modTrn n (fun p => { p with
    port := .starting, linkTicket := some t, sysref := true, downlink := true, hello := false, identified := false
    restored := false, holdup := false, spareInUse := false, spareRole := 0, lostRoles := 0, credit0 := 0, credit1 := 0
    wait0 := 0, wait1 := 0, nextSeq := 0, servoBad := 0, servoGood := 0 }) s
  sendCtl n 0x01 (n.val + 0x100) [] ([10, 11, 12, 13].foldl (fun s l => sendMarker n l s) s)

def xportLinkStart : Cmd := {
  opcode := 0x0202, mine := fun m => m.f 1 8 2 != 2, lens := fun _ => [1], bits := fun _ => [0x307]
  param := fun m _ => m.f 1 8 2 != 1
  state := fun m s =>
    let p := s.trn[trnOf m]
    tlOff m s || !(p.port == .idle || (p.port == .offline && p.restored)) || s.dbg.loopTrn.getLsbD (trnOf m).val
  long := fun m => some (.linkStart (trnOf m))
  start := fun m t s => startLink (trnOf m) t s }

/-- XPORT.LINK, START (R589). -/
def execXportLinkStart (ch : Chan) (s : State) : Host.Outcome State Fault Refusal := done (runCommand xportLinkStart ch) s

/-- STOP's effect: the downlinks go to electrical idle, and the command completes. A start in flight ends with E_MEDIA. -/
def stopLink (n : Trn) (t : Nat) (s : State) : State :=
  let s := completeWhere (fun w => w = .linkStart n) rMedia [] s
  ring 14 (completeTicket t rOk [] (modTrn n (fun p => { p with port := .idle, linkTicket := none, restored := false })
    (idleDownlinks n s)))

def xportLinkStop : Cmd := {
  opcode := 0x0202, mine := fun m => m.f 1 8 2 != 1, lens := fun _ => [1], bits := fun _ => [0x307]
  param := fun m _ => m.f 1 8 2 != 2
  state := fun m s => tlOff m s || s.trn[trnOf m].cart == 2 || named (trnOf m) s
  long := fun m => some (.linkStop (trnOf m))
  start := fun m t s => stopLink (trnOf m) t s }

/-- XPORT.LINK, STOP (R589). -/
def execXportLinkStop (ch : Chan) (s : State) : Host.Outcome State Fault Refusal :=
  doneS (runCommand xportLinkStop ch) s

/-- A load for writing or reading begins with LOAD (R590). -/
def startLoad (n : Trn) (forWrite : Bool) (t : Nat) (s : State) : State :=
  sendCtl n 0x30 0 [] (modTrn n (fun p => { p with
    loading := some { ticket := t, forWrite := forWrite, phase := .threading, scan := beginScan t .load } }) s)

/-- R590's refusals with E_STATE. -/
def loadState (forWrite : Bool) (m : Msg) (s : State) : Bool :=
  let p := s.trn[trnOf m]
  tlOff m s || p.port != .up || p.cart == 2 || loadBusy (trnOf m) s || interlock s || (forWrite && p.wp)

def xportLoad (forWrite : Bool) : Cmd := {
  opcode := 0x0203, mine := fun m => decide (m.f 1 8 1 = b2n forWrite), lens := fun _ => [1], bits := fun _ => [0x107]
  state := loadState forWrite
  long := fun m => some (.load (trnOf m) forWrite)
  start := fun m t s => startLoad (trnOf m) forWrite t s }

/-- XPORT.LOAD, WRITE (R590). -/
def execXportLoadWrite (ch : Chan) (s : State) : Host.Outcome State Fault Refusal :=
  done (runCommand (xportLoad true) ch) s

/-- XPORT.LOAD, READ (R590, R709). -/
def execXportLoadRead (ch : Chan) (s : State) : Host.Outcome State Fault Refusal :=
  done (runCommand (xportLoad false) ch) s

/-- An unload begins: a writing session is to end first, else UNLOAD goes out (R591, R606). -/
def startUnload (n : Trn) (t : Nat) (s : State) : State :=
  match s.fmt.trn[n].session with
  | some _ =>
    modTrn n (fun p => { p with unloading := some (t, false) }) (modFmt n (fun f => { f with
      closing := f.cur.isSome, session := f.session.map (fun x => { x with ending := true }) }) s)
  | none => sendCtl n 0x31 0 [] (modTrn n (fun p => { p with unloading := some (t, true) }) s)

def xportUnload : Cmd := {
  opcode := 0x0204, lens := fun _ => [1], bits := fun _ => [7]
  state := fun m s =>
    let n := trnOf m
    tlOff m s || s.trn[n].port != .up || loadBusy n s || named n s || restoreUses n s
  long := fun m => some (.unload (trnOf m))
  start := fun m t s => startUnload (trnOf m) t s }

/-- XPORT.UNLOAD (R591). -/
def execXportUnload (ch : Chan) (s : State) : Host.Outcome State Fault Refusal := done (runCommand xportUnload ch) s

def xportClear : Cmd := {
  opcode := 0x0205, lens := fun _ => [1], bits := fun _ => [7]
  state := fun m s => tlOff m s || s.trn[trnOf m].port != .up
  act := fun m s => (rOk, [], if s.trn[trnOf m].degraded then
    ring 14 (modTrn (trnOf m) (fun p => { p with degraded := false }) s) else s) }

/-- XPORT.CLEAR (R592). -/
def execXportClear (ch : Chan) (s : State) : Host.Outcome State Fault Refusal := doneS (runCommand xportClear ch) s

/-- Range of a parameter of Table 13-12. -/
def xportRange (k : Nat) : Option (Nat × Nat) :=
  match k with
  | 1 => some (5, 100)
  | 2 => some (10, 600)
  | 3 => some (40, 200)
  | _ => none

def setXport (n : Trn) (k v : Nat) (s : State) : State :=
  modTrn n (fun p => match k with
    | 1 => { p with accel := v }
    | 2 => { p with loadTimeout := v }
    | _ => { p with offtrack := v }) s

def xportParam : Cmd := {
  opcode := 0x0206, lens := fun _ => [2], bits := fun _ => [0xFF07]
  param := fun m _ => match xportRange (m.f 1 8 8) with
    | some (lo, hi) => decide ((m.p 2).toNat < lo ∨ hi < (m.p 2).toNat)
    | none => true
  state := fun m s => tlOff m s || (s.trn[trnOf m].motion != 0 && s.trn[trnOf m].motion != 4)
  act := fun m s => (rOk, [m.p 2], setXport (trnOf m) (m.f 1 8 8) (m.p 2).toNat s) }

/-- XPORT.PARAM (R593). -/
def execXportParam (ch : Chan) (s : State) : Host.Outcome State Fault Refusal := done (runCommand xportParam ch) s

/-! ### The GOV commands (R670 to R672) -/

/-- State of a member as GOV.INFO gives it; a parked member that a condition of Table 15-4 holds is held. -/
def govStateCode (n : Trn) (s : State) : Nat :=
  match s.gov.mem[n].state with
  | .parked => if memberHeld n s then 1 else 0
  | .held => 1
  | .stopping => 2
  | .restarting => 3
  | .running => 4
  | .turning => 5

def govWords (n : Trn) (s : State) : List Word :=
  let g := s.gov.mem[n]
  let grp := groupOf n s
  let lo := fun (v : Nat) => BitVec.ofNat 32 v
  pack [(0, g.code), (8, g.kReq), (16, govStateCode n s)] ::
  pack [(0, s.trn[n].speed.toNat), (16, min g.fill 255)] ::
  (if grp = 0 then [0, 0, 0, 0]
   else [pack [(0, grp.toNat), (8, g.mode)], lo ((groupQ grp s + 1023) / 1024),
         lo (groupAdded grp s / (getN s.gov.param 1 64 * 1000)), lo (groupAge grp s)])

def govInfo : Cmd := {
  opcode := 0x0701, safe := true, lens := fun _ => [1], bits := fun _ => [7]
  act := fun m s => (rOk, govWords (trnOf m) s, s) }

/-- GOV.INFO (R670). -/
def execGovInfo (ch : Chan) (s : State) : Host.Outcome State Fault Refusal := done (runCommand govInfo ch) s

/-- Default, minimum and maximum of Table 15-7. -/
def govRange (k : Nat) : Option (Nat × Nat × Nat) :=
  match k with
  | 1 => some (100, 50, 10000)
  | 2 => some (64, 16, 8192)
  | 3 => some (100, 0, 5000)
  | 4 => some (3, 1, 64)
  | 5 => some (2048, 64, 16384)
  | 6 => some (10000, 100, 600000)
  | 7 => some (10000, 0, 600000)
  | 8 => some (68, 0, 128)
  | _ => none

def govParamGet : Cmd := {
  opcode := 0x0702, mine := fun m => decide (m.f 1 0 1 = 0), lens := fun _ => [1], bits := fun _ => [0xFF01]
  param := fun m _ => (govRange (m.f 1 8 8)).isNone
  act := fun m s => match govRange (m.f 1 8 8) with
    | some (d, lo, hi) => (rOk, getAnswer (getN s.gov.param (m.f 1 8 8 - 1) 0) d lo hi, s)
    | none => (rParam, [], s) }

/-- GOV.PARAM, GET (R671). -/
def execGovParamGet (ch : Chan) (s : State) : Host.Outcome State Fault Refusal := done (runCommand govParamGet ch) s

/-- The value is none that Table 15-7 allows; RATE_WINDOW is a power of two. -/
def govBadValue (k v : Nat) : Bool :=
  match govRange k with
  | none => true
  | some (_, lo, hi) => decide (v < lo ∨ hi < v) || (k == 2 && !(List.range 14).any (fun i => decide (v = 2 ^ i)))

def govParamSet : Cmd := {
  opcode := 0x0702, mine := fun m => decide (m.f 1 0 1 = 1), lens := fun _ => [2], bits := fun _ => [0xFF01]
  param := fun m _ => govBadValue (m.f 1 8 8) (m.p 2).toNat
  act := fun m s => (rOk, [m.p 2], { s with gov.next := updN s.gov.next (m.f 1 8 8 - 1) (fun _ => (m.p 2).toNat) }) }

/-- GOV.PARAM, SET: in force at the next evaluation (R666, R671). -/
def execGovParamSet (ch : Chan) (s : State) : Host.Outcome State Fault Refusal := done (runCommand govParamSet ch) s

/-- The groups that hold a named transport take the mode, as a whole (R672). -/
def holdGroups (mask : BitVec 8) (mode code : Nat) (s : State) : State :=
  let gs := (allTrn.filter (fun n => mask.getLsbD n.val)).foldl (fun g n => g ||| groupOf n s) (0 : BitVec 8)
  (groupMembers gs).foldl (fun s n => modGov n (fun g => { g with mode := mode, fixed := code }) s) s

/-- GOV.HOLD with the mode `mode` in P2 [9:8]; a message of mode 3 belongs to every row. -/
def govHold (mode : Nat) : Cmd := {
  opcode := 0x0703, mine := fun m => decide (m.f 2 8 2 = mode ∨ m.f 2 8 2 = 3), lens := fun _ => [2]
  bits := fun _ => [0xFF, 0x3FF]
  param := fun m _ => decide (m.f 1 0 8 = 0 ∨ m.f 2 0 8 > 128 ∨ m.f 2 8 2 = 3)
  state := fun m s => allTrn.any (fun n => (m.p 1).getLsbD n.val && groupOf n s == 0)
  thermal := fun m s => s.therm.throttle && mode == 1 && decide (m.f 2 0 8 > getN s.gov.param 7 68)
  act := fun m s => (rOk, [], holdGroups (BitVec.ofNat 8 (m.f 1 0 8)) mode (m.f 2 0 8) s) }

/-- GOV.HOLD, AUTO (R672). -/
def execGovHoldAuto (ch : Chan) (s : State) : Host.Outcome State Fault Refusal := done (runCommand (govHold 0) ch) s

/-- GOV.HOLD, FIXED (R672). -/
def execGovHoldFixed (ch : Chan) (s : State) : Host.Outcome State Fault Refusal := done (runCommand (govHold 1) ch) s

/-- GOV.HOLD, STOP (R672). -/
def execGovHoldStop (ch : Chan) (s : State) : Host.Outcome State Fault Refusal := done (runCommand (govHold 2) ch) s

/-! ### Link start (Tables 13-9, 13-10) -/

/-- The port receives status messages: its link is starting or up. -/
def rxUp (n : Trn) (s : State) : Bool := s.trn[n].port == .starting || s.trn[n].port == .up

/-- A status message arrives: `go` is what it does, unless an armed injector spoils its CRC (R571, Table 19-6). -/
def statusIn (n : Trn) (go : State → State) (s : State) : State :=
  if !rxUp n s then go s
  else match takeInjector 7 (fun a => decide (a.p2.toNat = n.val)) s with
    | (none, s) => go s
    | (some _, s) => count (0x8718 + 0x40 * n.val) 1 s

/-- A link start fails with W2 `w2` and a leaf of TRN_n_LINK_CAUSE (Table 13-9): the port is IDLE again. -/
def linkFailed (n : Trn) (w2 bit : Nat) (s : State) : State :=
  let s := modTrn n (fun p => { p with port := .idle, linkTicket := none }) (idleDownlinks n s)
  let s := completeWhere (fun w => w = .linkStart n) rMedia [BitVec.ofNat 32 w2] s
  raise1 (11 + n.val) (leafCode 1 bit) 0 [] (ring 14 s)

/-- The transport's lane PLL or a gearbox of its link is lost: a link start ends with E_MEDIA, as one whose inbound lanes did
not lock (R136; log 168). -/
def startLost (n : Trn) (s : State) : State :=
  if s.trn[n].port != .starting then s
  else ring 14 (completeWhere (fun w => w = .linkStart n) rMedia [1]
    (modTrn n (fun p => { p with port := .idle, linkTicket := none }) (idleDownlinks n s)))

/-- HELLO (Table 13-10 step 3; Table 13-9). -/
def execHello (n : Trn) (m : HelloMsg) (s : State) : Host.Outcome State Fault Refusal :=
  done (statusIn n (fun s =>
    if s.trn[n].port != .starting then s
    else if m.version ≠ 1 then linkFailed n 5 6 s
    else modTrn n (fun p => { p with hello := true, serial := m.serial }) s)) s

/-- No HELLO within 5 ms (Table 13-9). -/
def execHelloTimeout (n : Trn) (s : State) : Host.Outcome State Fault Refusal :=
  done (fun s => if s.trn[n].port == .starting && !s.trn[n].hello then linkFailed n 5 6 s else s) s

/-- An inbound lane did not lock within 5 ms (Table 13-9). -/
def execLaneLockTimeout (n : Trn) (lane : Fin 14) (s : State) : Host.Outcome State Fault Refusal :=
  done (fun s =>
    if s.trn[n].port == .starting && !s.trn[n].identified && decide (lane.val < 10) then linkFailed n 1 0 s else s) s

/-- What the identity words of the ten inbound lanes show: 0 where they agree, else W2 of Table 13-9. -/
def identityFault (n : Trn) (ids : List LaneId) : Nat :=
  if ids.any (fun i => decide (field i.word 44 4 ≠ i.lane.val)) then 2
  else if ids.any (fun i => decide (field i.word 41 3 ≠ n.val)) then 3
  else if ids.any (fun i => !i.aligned || decide (field i.word 33 8 ≥ 200)) then 4
  else 0

/-- Two identity groups have come on every inbound lane (R565, R567, Table 13-10 step 4). -/
def execIdentityCheck (n : Trn) (ids : List LaneId) (s : State) : Host.Outcome State Fault Refusal :=
  done (fun s =>
    if s.trn[n].port != .starting || !(List.finRange 10).all (fun l => ids.any (fun i => decide (i.lane = l))) then s
    else
      let s := ids.foldl (fun s i => setInverted (14 * n.val + i.lane.val) i.inverted s) s
      match identityFault n ids with
      | 0 => modTrn n (fun p => { p with identified := true }) s
      | 4 => linkFailed n 4 4 s
      | k => linkFailed n k 3 s) s

def creditWindow : Nat := 16384

/-- The link start ends: HELLO, identities and full credits are there (Table 13-10 step 6). -/
def execPortUp (n : Trn) (s : State) : Host.Outcome State Fault Refusal :=
  doneS (fun s =>
    let p := s.trn[n]
    if p.port == .starting && p.hello && p.identified && p.credit0 == creditWindow && p.credit1 == creditWindow then
      completeWhere (fun w => w = .linkStart n) rOk [] (ring 14
        (modTrn n (fun p => { p with port := .up, linkTicket := none }) s))
    else s) s

/-- LINK_START goes out again every 10 µs until HELLO arrives (Table 13-5). -/
def execLinkStartResend (n : Trn) (s : State) : Host.Outcome State Fault Refusal :=
  done (fun s => if s.trn[n].port == .starting && !s.trn[n].hello then sendCtl n 0x01 (n.val + 0x100) [] s else s) s

/-! ### Status messages -/

/-- CREDIT (R573; Table 13-8). -/
def execCredit (n : Trn) (wd0 wd1 : Nat) (s : State) : Host.Outcome State Fault Refusal :=
  doneS (statusIn n (fun s =>
    let p := s.trn[n]
    let excess := decide (p.credit0 + wd0 > creditWindow ∨ p.credit1 + wd1 > creditWindow)
    if p.port == .starting then
      modTrn n (fun p => { p with credit0 := min creditWindow (p.credit0 + wd0),
                                  credit1 := min creditWindow (p.credit1 + wd1) }) s
    else if p.port != .up then s
    else if excess then loseWith n (leafCode 1 5) rMedia s
    else spendCredits n (modTrn n (fun p => { p with credit0 := p.credit0 + wd0, credit1 := p.credit1 + wd1 }) s))) s

/-- The member has come to its park point (R653 step 4); at a wrap's turn it restarts at once (R659). -/
def arrivePark (n : Trn) (s : State) : State :=
  let turning := s.gov.mem[n].state == .turning
  let s := modGov n (fun g => { g with state := .parked, parked := true, locating := false }) s
  let s := ring 14 (count 0x8A00 1 (setLeaf 20 0 s))
  if memberHeld n s then modGov n (fun g => { g with state := .held }) s
  else if turning && s.trn[n].port == .up && s.fmt.trn[n].session.isSome then restartMember n s
  else s

/-- A stop that GOV or FMT commanded is reached: LOCATE to the park point, in the same wrap or at the start of the next
(R653 step 3, R659); nothing is sent where GOV does not park (R585, R668). -/
def stopReached (n : Trn) (s : State) : State :=
  let g := s.gov.mem[n]
  let f := s.fmt.trn[n]
  if haltedSrc 20 s && !s.faults.safe && f.session.isSome then
    modGov n (fun g => { g with state := .held, locating := false, parked := false }) s
  else if (f.session.isNone && !f.full) || s.faults.safe || s.trn[n].loading.isSome then
    modGov n (fun g => { g with state := .parked, locating := false, parked := false }) s
  else if g.state = .turning then
    let w := s.trn[n].wrap + 1
    let s := modFmt n (fun f => { f with u := f.copyDue.length, n := 0, inWrap := 0 }) s
    locatePark n w (Config.wrapStart w) (modTrn n (fun p => { p with wrap := w }) s)
  else locatePark n s.trn[n].wrap g.stopLpos s

/-- A transport that lost its supply has stopped: its port goes OFFLINE (R586). -/
def goOffline (n : Trn) (s : State) : State :=
  let s := dropSession n (fun _ _ => false) s
  let s := modTrn n (fun p => { p with port := .offline, holdup := false, linkTicket := none, loaded := .nothing })
    (idleDownlinks n s)
  ring 14 (modGov n (fun g => { g with state := .parked, parked := false, locating := false }) s)

/-- A report that the tape is stopped: `moved` is whether the report before it said otherwise. -/
def tapeStopped (n : Trn) (moved : Bool) (s : State) : State :=
  let g := s.gov.mem[n]
  if s.faults.safeStopping.getLsbD n.val then
    idleDownlinks n (modGov n (fun g => { g with locating := false })
      { s with faults.safeStopping := clrBit s.faults.safeStopping n.val })
  else if s.trn[n].holdup then goOffline n s
  else
    match s.trn[n].loading with
    | some l => if moved then loadStopped n l s else s
    | none =>
      if g.locating then (if moved then arrivePark n s else s)
      else if g.state = .stopping ∨ g.state = .turning then stopReached n s
      else if moved then readOn n s
      else s

/-- MOTION_STAT (Table 13-6; R586, R590, R653, R656, R659; Table 05-5 step 4). -/
def execMotionStat (n : Trn) (m : MotionMsg) (s : State) : Host.Outcome State Fault Refusal :=
  doneS (statusIn n (fun s =>
    if !rxUp n s then s
    else
      let moved := s.trn[n].motion != 0
      let s := modTrn n (fun p => { p with motion := m.state, speed := m.speed }) s
      if m.state = 0 then tapeStopped n moved s else s)) s

/-- CARTRIDGE (R590, R591, R595). -/
def execCartridge (n : Trn) (m : CartMsg) (s : State) : Host.Outcome State Fault Refusal :=
  doneS (statusIn n (fun s =>
    let p := s.trn[n]
    if !rxUp n s then s
    else
      let changed := p.cart != m.state || p.wp != m.wp || p.notXt1 != m.notXt1
      let s := modTrn n (fun p => { p with
        cart := m.state, wp := m.wp, notXt1 := m.notXt1, cartId := m.id.getD 0, lengthMm := m.lengthMm.toNat }) s
      let s := if changed then notice (11 + n.val) (leafCode 0 3) s else s
      match p.loading, p.unloading with
      | some l, _ =>
        if l.phase ≠ .threading then s
        else if m.state = 2 then
          if m.notXt1 || m.id.isNone then failLoad n rMedia s
          else loadLocate n (modTrn n (fun p => { p with loading := some { l with phase := .waiting } }) s)
        else s
      | none, some (t, true) =>
        if m.state = 0 ∨ m.state = 1 then
          let w := s.fmt.trn[n].written
          let es := s.rst.trn[n].extents
          let s := freeExtents es (modRst n (fun r => { r with index := none, extents := [] }) s)
          let s := modFmt n (fun f => { f with full := false, written := 0 }) s
          let s := modTrn n (fun p => { p with loaded := .nothing, unloading := none }) s
          let s := modGov n (fun g => { g with state := .parked, parked := false, locating := false }) s
          ring 14 (completeTicket t rOk [BitVec.ofNat 32 w] s)
        else s
      | _, _ => s)) s

/-- POWER with HOLDUP: no new data set, the records of R585 fail, the data set in progress is let finish, and loads and
unloads end with E_MEDIA (R580, R586). -/
def powerLoss (n : Trn) (s : State) : State :=
  let owes := recsOnTrn n s
  let s := failRecs owes rMedia false s
  let s := modTrn n (fun p => { p with
    degraded := true, holdup := true, loading := none, unloading := none }) s
  let s := dropReading n (completeWhere (trnWork n) rMedia [] s)
  raise1 (11 + n.val) (leafCode 0 4) 0 owes (stopAtBoundary n s)

/-- POWER (R580, R586). -/
def execPower (n : Trn) (m : PowerMsg) (s : State) : Host.Outcome State Fault Refusal :=
  doneS (statusIn n (fun s =>
    let s := if m.holdup && s.trn[n].port == .up && !s.trn[n].holdup then powerLoss n s else s
    if m.restored then modTrn n (fun p => { p with restored := true }) s else s)) s

/-- The SP lane takes over role `r` (R574, R575, R630): its marker names the role, a WD role's credits are whole again, and
the data set in progress counts as failing. -/
def takeOver (n : Trn) (r : Nat) (s : State) : State :=
  let s := spendCredits n (sendMarker n 13 (setTrnLeaf n 1 2 (modTrn n (fun p => { p with
    spareInUse := true, spareRole := BitVec.ofNat 2 r
    credit0 := if r = 0 then creditWindow else p.credit0, credit1 := if r = 1 then creditWindow else p.credit1 }) s)))
  match s.fmt.trn[n].cur.bind (fun k => findDs n k s) with
  | none => s
  | some d =>
    match d.copies with
    | [] => s
    | c :: _ => rowFailed n d.dsn c.rewrite c.built s

/-- The outbound lane in role `r` has lost lock: the role goes to the spare, or the transport is lost (Table 13-8, R574,
R579). -/
def roleLost (n : Trn) (r : Nat) (s : State) : State :=
  let s := setTrnLeaf n 1 1 s
  let p := s.trn[n]
  if r = 3 then s
  else if !p.spareInUse && !p.lostRoles.getLsbD 3 then takeOver n r s
  else loseWith n (leafCode 1 6) rMedia s

/-- Roles that were not lost before, among those in `lost`, are lost. -/
def rolesLost (n : Trn) (lost : BitVec 4) (s : State) : State :=
  let old := s.trn[n].lostRoles
  (List.range 4).foldl (fun s r => if lost.getLsbD r && !old.getLsbD r then roleLost n r s else s)
    (modTrn n (fun p => { p with lostRoles := lost }) s)

/-- LANE_STAT: each role newly lost goes to the spare, or takes the link down (R574, R579). -/
def execLaneStat (n : Trn) (bits : Word) (s : State) : Host.Outcome State Fault Refusal :=
  doneS (statusIn n (fun s =>
    if s.trn[n].port != .up then s else rolesLost n (BitVec.ofNat 4 bits.toNat) s)) s

/-- SENSOR (Table 13-6). -/
def execSensor (n : Trn) (temp : BitVec 16) (s : State) : Host.Outcome State Fault Refusal :=
  done (statusIn n (fun s => if rxUp n s then modTrn n (fun p => { p with headTemp := temp }) s else s)) s

/-- REG_DATA ends the far access in progress (R578, R596). -/
def execRegData (n : Trn) (addr val : Word) (err : Bool) (s : State) : Host.Outcome State Fault Refusal :=
  done (statusIn n (fun s =>
    match s.trn[n].far with
    | q :: _ =>
      if rxUp n s && decide (q.addr % 0x1000000 = addr.toNat % 0x1000000) then
        if q.write then writeAnswered q (!err) s
        else readAnswered q (if err then .farError else .word val) s
      else s
    | [] => s)) s

/-- FAULT: the transport is lost with E_MEDIA (Table 13-8). -/
def execFault (n : Trn) (kind : Byte) (s : State) : Host.Outcome State Fault Refusal :=
  doneS (statusIn n (fun s =>
    if s.trn[n].port == .up && decide (1 ≤ kind.toNat ∧ kind.toNat ≤ 3) then loseWith n (leafCode 0 5) rMedia s else s)) s

/-- KEEPALIVE only shows that the link lives (R571). -/
def execKeepalive (n : Trn) (s : State) : Host.Outcome State Fault Refusal := done (statusIn n (fun s => s)) s

/-- A status message with a bad CRC or an unknown TYPE (R571). -/
def execStatusMessageDiscard (n : Trn) (s : State) : Host.Outcome State Fault Refusal :=
  done (fun s => if rxUp n s then count (0x8718 + 0x40 * n.val) 1 s else s) s

/-- 50 µs without a control message: KEEPALIVE (R571). -/
def execKeepaliveDue (n : Trn) (s : State) : Host.Outcome State Fault Refusal := done (sendCtl n 0x7F 0 []) s

/-! ### Losses (Table 13-8) -/

/-- No valid status message for 1 ms. -/
def execLinkDown (n : Trn) (s : State) : Host.Outcome State Fault Refusal :=
  doneS (fun s => if s.trn[n].port == .up then loseWith n (leafCode 1 6) rMedia s else s) s

/-- An inbound lane loses lock. -/
def execLosIn (n : Trn) (lane : Fin 14) (s : State) : Host.Outcome State Fault Refusal :=
  doneS (fun s =>
    if s.trn[n].port == .up && decide (lane.val < 10) then loseWith n (leafCode 1 0) rMedia s else s) s

/-- A multiblock fails the release of R567. -/
def execSysrefErr (n : Trn) (s : State) : Host.Outcome State Fault Refusal :=
  doneS (fun s => if s.trn[n].port == .up then loseWith n (leafCode 1 4) rMedia s else s) s

/-- A CRC-12 error on an inbound lane counts; VRF sees the lane's samples as erasures, and a servo frame on SV comes
invalid in SERVO_FRAME (Table 13-8). -/
def execJesdCrcError (n : Trn) (lane : Fin 14) (s : State) : Host.Outcome State Fault Refusal :=
  done (fun s =>
    if s.trn[n].port == .up && decide (lane.val < 10) then count (0x8720 + 0x40 * n.val) 1 s else s) s

/-- Speed outside ±0.5 % of the set point for 10 ms while at speed. -/
def execSpeedErr (n : Trn) (s : State) : Host.Outcome State Fault Refusal :=
  doneS (fun s =>
    if s.trn[n].port == .up && s.trn[n].motion == 2 then loseWith n (leafCode 2 2) rMedia s else s) s

/-- A load has not completed within LOAD_TIMEOUT (R590). -/
def execLoadTimeout (n : Trn) (s : State) : Host.Outcome State Fault Refusal := done (failLoad n rMedia) s

/-! ### The servo engine (R576, R577, R631) -/

/-- INC of WRITE_RATE for a speed in µm/s (R576). -/
def writeRate (speed : Nat) : Nat := (2 * (speed * 32 * 2 ^ 32) + 390625000) / (2 * 390625000)

/-- The write gate drops off track: the rest of the data set in progress is not written, and a copy of it comes first when
writing resumes (R577, R631). -/
def dropOffTrack (n : Trn) (s : State) : State :=
  let cur := s.fmt.trn[n].cur
  let s := count (0x8710 + 0x40 * n.val) 1 (gateOff n s)
  let s := modTrn n (fun p => { p with servoGood := 0 }) s
  let s := modFmt n (fun f => { f with offTrack := true, cur := none, rowOpen := false, closing := false }) s
  let s := match cur.bind (fun k => findDs n k s) with
    | none => s
    | some d =>
      match d.copies with
      | [] => s
      | c :: _ =>
        let s := rowFailed n d.dsn c.rewrite c.built s
        modFmt n (fun f => if f.copyDue.contains d.dsn then
          { f with copyDue := d.dsn :: f.copyDue.filter (fun k => decide (k ≠ d.dsn)) } else f) s
  raise1 (11 + n.val) (leafCode 2 0) 0 [] s

/-- What a sound frame's position error does: off track with the gate on drops it; 8 frames on track end the drop. -/
def onFrame (n : Trn) (f : ServoFrame) (s : State) : State :=
  let p := s.trn[n]
  if f.pes.natAbs > p.offtrack then
    if p.gate then dropOffTrack n s else modTrn n (fun p => { p with servoGood := 0 }) s
  else
    let s := modTrn n (fun p => { p with servoGood := p.servoGood + 1 }) s
    if s.trn[n].servoGood ≥ 8 then modFmt n (fun f => { f with offTrack := false }) s else s

/-- A servo frame ends (R576, R577; Table 13-8). What ACTUATOR commands is the servo law's, a free value. -/
def execServoFrame (n : Trn) (f : ServoFrame) (s : State) : Host.Outcome State Fault Refusal :=
  doneS (fun s =>
    if s.trn[n].port != .up then s
    else if !f.valid then
      let s := modTrn n (fun p => { p with servoBad := p.servoBad + 1, servoGood := 0 }) s
      if s.trn[n].servoBad ≥ 8 then
        loseWith n (leafCode 2 1) rMedia (modTrn n (fun p => { p with servoBad := 0 }) s)
      else s
    else
      let v := freeValue s
      let s := sendCtl n 0x10 (v.1.toNat % 65536) [] v.2
      let s := if s.trn[n].motion = 0 then s else sendCtl n 0x11 (writeRate f.speed) [] s
      let s := modTrn n (fun p => { p with servoBad := 0, lpos := f.lpos, pes := BitVec.ofInt 16 f.pes }) s
      onFrame n f s) s

end Sys2Proof.Machine
end

