-- ==== Sys2Proof/Machine/FamAux.lean ====
section
/-!
DEFINITION. The AUX pins: function changes, debounced levels, interlocks, external start, contention and the LED wave
(ch02).
-/
namespace Sys2Proof.Machine
open Sys2Proof

/-- The AUX block is out of reset and CCLK runs, so that its grids run (R835). -/
def auxGrids (s : State) : Bool := s.power.cclk && s.boot.phase != .held && s.boot.phase != .standby && s.boot.phase != .copying

/-- One pin changed. -/
def modPin (k : Fin 24) (f : AuxPin → AuxPin) (s : State) : State := { s with aux.pin := upd s.aux.pin k f }

/-- A write of AUX_FUNC_j (R76, R78, Table 02-9). -/
def execAuxFuncWrite (o : Origin) (j : Fin 3) (v : Word) (s : State) : Host.Outcome State Fault Refusal :=
  done (writeBy o (0x5D98 + 4 * j.val) v) s

/-- The park of pin `k` ends: the last function written takes the pad, with no debounced level yet (R76, R78, R79). From
then until the new function's debounce accepts its first level, AUX_IN keeps the bit it held through the park where the
function is sampled, and reads 0 where it is not: R79 gives that time no level, and this is the model's choice (log 163). -/
def execAuxParkEnd (k : Fin 24) (s : State) : Host.Outcome State Fault Refusal :=
  done (fun s => if s.aux.pin[k].parked then
    modPin k (fun p => { p with
      parked := false, active := p.fn, started := false, level := p.level && auxSampled p.fn, keeper := none }) s
  else s) s

/-- A write of AUX_CONT (R84). -/
def execAuxContClear (o : Origin) (v : Word) (s : State) : Host.Outcome State Fault Refusal := done (writeBy o 0x5D94 v) s

/-- Members under GOV follow a change of the interlock (R72, R657, R663). -/
def interlockMembers (s : State) : State :=
  if govOn s then allTrn.foldl (fun s n => holdMember n s) s else s

/-- What follows a change of the OR of the interlock inputs: ILK_IN and the holds, or the loads and the reading that it held
back (R72, R581, R680). -/
def afterInterlock (was : Bool) (s : State) : State :=
  if was == interlock s then s
  else if was then allTrn.foldl (fun s n => serve n true (loadLocate n s)) (interlockMembers s)
  else interlockMembers (setLeaf 27 1 s)

/-- The debounce accepts a level of the pad (R72, R79, R80, R658). An interlock input's frozen value stands until this
acceptance after the function was selected again: R77 does not say at which moment that releases it, and this is the
model's choice (log 164). -/
def execAuxLevelAccepted (k : Fin 24) (pad : Bool) (s : State) : Host.Outcome State Fault Refusal :=
  done (fun s =>
    let p := s.aux.pin[k]
    if p.parked || padctl s || !auxSampled p.active || !auxGrids s then s
    else
      let l := pad ^^ s.aux.pol.getLsbD k.val
      let was := interlock s
      let rises := p.started && !p.level && l
      let s := modPin k (fun p => { p with level := l, started := true, ilk := if p.active = 4 then l else p.ilk }) s
      let s := if p.active = 7 ∧ rises = true then
          let s := setLeaf 27 2 s
          if interlock s || !s.gov.enabled then s else { s with gov.extEvent := true, gov.extHold := true }
        else s
      afterInterlock was s) s

/-- Four mismatches of the readback comparator (R83, R772). -/
def execAuxContentionTrip (k : Fin 24) (s : State) : Host.Outcome State Fault Refusal :=
  done (fun s =>
    if auxGrids s && auxDrives s.aux.pin[k].active && !s.aux.pin[k].parked && !padctl s && !s.faults.safe && !s.aux.cont.getLsbD k.val then
      setLeaf 27 0 { s with aux.cont := setBit s.aux.cont k.val }
    else s) s

/-- A half period of the 2 Hz wave ends (R835). -/
def execLedWave (s : State) : Host.Outcome State Fault Refusal :=
  done (fun s => if auxGrids s then { s with aux.wave := !s.aux.wave } else s) s

end Sys2Proof.Machine
end

