-- ==== Sys2Proof/Machine/Log.lean ====
section
/-!
DEFINITION. The tether-log writer's starts: START, anchors, the ring laid out anew (ch18).
-/
namespace Sys2Proof.Machine
open Sys2Proof

/-- The running image's digest as the three continuation units of START. -/
def digestUnits (s : State) : List Nat :=
  (List.range 3).map (fun p => leNat (slice (beBytes 48 (s.boot.digest.getD 0).toNat) (16 * p) 16))

/-- START at Fjarma's first instruction, or after the ring was laid out anew (R748, R755, R763). -/
def writeStart (s : State) : State :=
  logEntry 0x01 (s.boot.version.toNat + 2 ^ 32 * s.aon.cause.toNat + 2 ^ 40 * s.aon.resets.toNat) (digestUnits s)
    { s with tether.running := true }

/-- The slot that holds the older anchor; an empty one counts as oldest (R747). -/
def olderSlot (s : State) : Fin 2 :=
  match s.tether.anchor[0], s.tether.anchor[1] with
  | none, _ => 0
  | some _, none => 1
  | some a, some b => if a.epoch < b.epoch ∨ (a.epoch = b.epoch ∧ a.stamp ≤ b.stamp) then 0 else 1

/-- An anchor copy begins, unless one runs or the writer is stopped (R747, R749). -/
def startAnchor (s : State) : State :=
  if s.tether.frozen || !s.tether.running || s.tether.anchoring.isSome then s
  else
    let k := olderSlot s
    { s with tether.anchoring := some k, tether.anchor := upd s.tether.anchor k (fun _ => none) }

/-- The lowest run of extents that holds `len` bytes is lent to the host for ticket `t` (R688, R765). -/
def lend (t len : Nat) (s : State) : Option (Nat × Nat × State) :=
  let k := (len + extBytes - 1) / extBytes
  match takeRun .restore k s with
  | none => none
  | some (e, s) => some (e, k, { s with
      rst.lent := s.rst.lent ++ [(e, k, some t)], stg.lent := s.stg.lent ++ (List.range k).map (fun i => e + i) })

/-- A running export ends with E_FAULT: its DMA writes failed with a detail of Table 07-8, or were abandoned (R126, R762,
R765). -/
def failExport (detail : Nat) (s : State) : State :=
  match s.tether.exporting with
  | none => s
  | some e =>
    let off := (e.lent.map (fun l => l.1 * extBytes)).getD 0
    endExport rFault [w32 e.done, w32 (e.done / 2 ^ 32), w32 ((e.first.map (·.2)).getD 0), w32 off, w32 detail] s

/-- The ring is laid out with `t` MiB: old entries and anchors go, no block of it is valid until it is written again, and START
and an anchor follow (R395, R755). -/
def layRing (t : Nat) (s : State) : State :=
  let hi := 256 + max t s.stg.ringExtents
  let gone := fun (unit k : Nat) => decide (256 * extBytes ≤ k * unit ∧ k * unit < hi * extBytes)
  let s := { s with
    stg.ringExtents := t, mbx.config.tetherRingMib := t
    stg.valid := spDrop (gone 4096) s.stg.valid, stg.errs := spDrop (gone 64) s.stg.errs
    stg.poison := spDrop (gone 64) s.stg.poison
    tether.ring := [], tether.ringPos := 0, tether.anchor := Vector.replicate 2 none, tether.anchoring := none }
  replayBreak 3 (startAnchor (writeStart s))

end Sys2Proof.Machine
end

