-- ==== Sys2Proof/Machine/FamSys.lean ====
section
/-!
DEFINITION. The SYS family and the unknown opcode (ch06), the books of a snapshot (ch17), and the supervisor's handling of
faults (ch05).
-/
namespace Sys2Proof.Machine
open Sys2Proof

/-! ### SYS.INFO (Table 06-9) -/


/-- Rows spent of the eight KEK slots, one byte each (Tables 06-9, 06-14). -/
def kekSpent (s : State) : List Byte := (List.range 8).map (fun k => BitVec.ofNat 8 (rowsSpent (4 + k) s))

/-- Free tickets of a pool. -/
def freeTickets (c : Chan) (s : State) : Nat := ((poolOf c).filter (fun t => match s.mbx.ticket[t]? with
  | some k => !k.held
  | none => false)).length

/-- Streams that are not CLOSED, by number. -/
def openStreams (s : State) : BitVec 64 := ofBits 64 (fun i => if h : i < 64 then s.ing.stream[i].state != .closed else false)

def anyOpen (s : State) : Bool := openStreams s != 0

/-- The tape of TRN_n moves. -/
def tapeMoves (n : Trn) (s : State) : Bool := s.trn[n].motion == 1 || s.trn[n].motion == 2 || s.trn[n].motion == 3

def infoPage (page : Nat) (s : State) : List Word :=
  match page with
  | 0 =>
    [0x48124E48, 0x00000200, s.boot.version, s.boot.secver, pack [(0, lifeCode s), (8, b2n s.boot.slot)]] ++
    (List.range 4).map (fun i => w32 (Config.uniqueNumber.toNat / 2 ^ (32 * i))) ++
    [rstCause s, rstCount s, s.boot.bootTime]
  | 1 =>
    [98304, 64, 262144,
     pack [(0, trnBits (fun n => s.trn[n].port == .up)), (8, b2n s.net.port[0].link + 2 * b2n s.net.port[1].link)],
     pack [(0, 16), (16, (ofBits 16 (fun k => domOn 6 s && (getN s.cip.slot k {}).state == .valid)).toNat)],
     wordAt (kekSpent s) 0, wordAt (kekSpent s) 4,
     pack [(0, freeTickets 0 s), (8, freeTickets 8 s), (16, freeTickets 9 s)]]
  | _ =>
    [w32 (openStreams s).toNat, w32 ((openStreams s).toNat / 2 ^ 32),
     pack [(0, trnBits (fun n => s.trn[n].cart == 2)), (8, trnBits (fun n => tapeMoves n s)),
           (16, trnBits (fun n => s.trn[n].degraded))],
     w32 s.ing.recs.length, w32 s.faults.log.length, s.mbx.heartbeat]

def sysInfo : Cmd := {
  opcode := 0x0101, safe := true, lens := fun _ => [1], param := fun m _ => decide ((m.p 1).toNat > 2)
  act := fun m s => (rOk, infoPage (m.p 1).toNat s, s) }

/-- SYS.INFO. -/
def execSysInfo (ch : Chan) (s : State) : Host.Outcome State Fault Refusal := done (runCommand sysInfo ch) s

/-! ### SYS.POWER (Table 06-10, R99, R106, R280, R281) -/

/-- Domains that SYS.POWER may name (R280). -/
def powerNames (d : Nat) : Bool := [2, 3, 5, 6, 7, 8, 9, 10, 11].contains d

/-- Transports of a VRF half or of a TL domain. -/
def halfOfDomain (d : Nat) : List Trn := allTrn.filter (fun n => decide (n.val < 4) == (d == 8 || d == 10))

/-- The precondition of Table 03-3 for switching domain `d` off. -/
def offAllowed (d : Nat) (s : State) : Bool :=
  match d with
  | 2 => s.net.port[0].qp.toList.all (fun q => q.isNone)
  | 3 => s.net.port[1].qp.toList.all (fun q => q.isNone)
  | 5 => !anyOpen s
  | 6 => !anyOpen s
  | 7 => !anyOpen s
  | 8 => (halfOfDomain 8).all (fun n => !tapeMoves n s)
  | 9 => (halfOfDomain 9).all (fun n => !tapeMoves n s)
  | 10 => (halfOfDomain 10).all (fun n => s.trn[n].cart != 2 && !named n s)
  | 11 => (halfOfDomain 11).all (fun n => s.trn[n].cart != 2 && !named n s)
  | _ => false

/-- A message whose action is none of Table 06-10 belongs to every row. -/
def powerForm (k : Nat) (m : Msg) : Bool := (m.p 1).toNat == k || decide ((m.p 1).toNat = 0 ∨ (m.p 1).toNat > 5)

/-- While automatic gating is on, a VRF half is GOV's (R280). -/
def gatedHalf (m : Msg) (s : State) : Bool := s.power.autoVrf && decide ((m.p 2).toNat = 8 ∨ (m.p 2).toNat = 9)

/-- A switch joins the queue (R118). -/
def queueSwitch (d : Nat) (on : Bool) (t : Option Nat) (s : State) : State :=
  { s with power.queue := s.power.queue ++ [{ dom := d, on := on, ticket := t }] }

def sysDomainOn : Cmd := {
  opcode := 0x0102, mine := powerForm 1, lens := fun _ => [2]
  param := fun m _ => m.p 1 != 1 || !powerNames (m.p 2).toNat
  state := gatedHalf
  thermal := fun _ s => s.therm.throttle
  long := fun m => some (.domain (m.p 2).toNat true)
  start := fun m t s => queueSwitch (m.p 2).toNat true (some t) s }

/-- SYS.POWER, DOMAIN_ON. -/
def execSysPowerDomainOn (ch : Chan) (s : State) : Host.Outcome State Fault Refusal := done (runCommand sysDomainOn ch) s

def sysDomainOff : Cmd := {
  opcode := 0x0102, mine := powerForm 2, lens := fun _ => [2]
  param := fun m _ => m.p 1 != 2 || !powerNames (m.p 2).toNat
  state := fun m s => gatedHalf m s || (domOn (m.p 2).toNat s && !offAllowed (m.p 2).toNat s)
  long := fun m => some (.domain (m.p 2).toNat false)
  start := fun m t s => queueSwitch (m.p 2).toNat false (some t) s }

/-- SYS.POWER, DOMAIN_OFF. -/
def execSysPowerDomainOff (ch : Chan) (s : State) : Host.Outcome State Fault Refusal := done (runCommand sysDomainOff ch) s

/-- AUTO_VRF_ON and AUTO_VRF_OFF (R101). -/
def sysAutoVrf (on : Bool) : Cmd := {
  opcode := 0x0102, mine := powerForm (if on then 3 else 4), lens := fun _ => [2]
  param := fun m _ => decide ((m.p 1).toNat ≠ (if on then 3 else 4)) || m.p 2 != 0
  act := fun _ s => (rOk, [], { s with power.autoVrf := on }) }

/-- SYS.POWER, AUTO_VRF_ON. -/
def execSysPowerAutoVrfOn (ch : Chan) (s : State) : Host.Outcome State Fault Refusal :=
  done (runCommand (sysAutoVrf true) ch) s

/-- SYS.POWER, AUTO_VRF_OFF. -/
def execSysPowerAutoVrfOff (ch : Chan) (s : State) : Host.Outcome State Fault Refusal :=
  done (runCommand (sysAutoVrf false) ch) s

/-- Something stands against a standby request (R106). -/
def standbyBarred (s : State) : Bool :=
  anyOpen s || allTrn.any (fun n => s.trn[n].cart == 2) || !s.ing.recs.isEmpty || !(ticketsOf (fun _ => true) s).isEmpty

def sysStandby : Cmd := {
  opcode := 0x0102, mine := powerForm 5, lens := fun _ => [2]
  param := fun m _ => m.p 1 != 5 || m.p 2 != 0
  state := fun _ s => standbyBarred s
  act := fun _ s => (rOk, [], { s with power.standbyAcked := true }) }

/-- SYS.POWER, STANDBY. -/
def execSysPowerStandby (ch : Chan) (s : State) : Host.Outcome State Fault Refusal := done (runCommand sysStandby ch) s

def sysReset : Cmd := {
  opcode := 0x0103, safe := true, lens := fun _ => [1], param := fun m _ => m.p 1 != 0x52535431
  act := fun _ s => (rOk, [], { s with mbx.resetDue := true }) }

/-- SYS.RESET (R282). -/
def execSysReset (ch : Chan) (s : State) : Host.Outcome State Fault Refusal := done (runCommand sysReset ch) s

/-! ### SYS.AUDIT (R283 to R285, R726) -/

/-- Reads of host memory that were issued and may be outstanding: an SQ pull, payloads, fetches, descriptors' data. -/
def readsUnderWay (s : State) : Bool :=
  s.dma.sqOut.isSome ||
    allStrm.any (fun i => s.ing.stream[i].pulls.any (fun p => p.asked && p.data.isNone && p.refused.isNone)) ||
    s.dma.chan.toList.any (fun c => c.fetching || (c.desc.isSome && c.asked))

/-- PCIe non-posted reads outstanding: none when nothing is being read, else a matter of how the reads are split and
answered, a free value. -/
def readsOutstanding (s : State) : Nat × State :=
  if readsUnderWay s then
    let f := freeValue s
    (f.1.toNat % (if s.pcie.tag10 then 513 else 257), f.2)
  else (0, s)

/-- `n` free words of four bytes. -/
def freeWords : Nat → State → List Byte × State
  | 0, s => ([], s)
  | n + 1, s =>
    let f := freeValue s
    let r := freeWords n f.2
    (leBytes 4 f.1.toNat ++ r.1, r.2)

/-- The counter a cipher unit would assign next: the COUNT of a context that exists, which of them is open where there are
several; with none, a free value (R482; log 78). -/
def unitCounter (s : State) : Nat × State :=
  let cs := s.cip.ctx.toList.filterMap id
  if h : cs.length = 1 then ((cs[0]'(by omega)).count.toNat, s)
  else
    let f := freeValue s
    ((cs[f.1.toNat % cs.length]?.map (fun c => c.count.toNat)).getD f.1.toNat, f.2)

def unitCounters : Nat → State → List Byte × State
  | 0, s => ([], s)
  | n + 1, s =>
    let c := unitCounter s
    let r := unitCounters n c.2
    (leBytes 8 c.1 ++ r.1, r.2)

/-- A stream's record book (Table 06-14 offset 0x140). -/
def recordBook (m : Stream) : List Byte :=
  let left := m.accepted - m.verified - m.rejected - m.poisoned
  [m.accepted, m.verified, left, m.rejected, m.poisoned].flatMap (fun v => leBytes 8 v.toNat)

def outboundWrites (s : State) : Nat :=
  (s.net.port.toList.map (fun p => (p.qp.toList.map (fun q => match q with
    | some q => q.outstanding.length
    | none => 0)).sum)).sum

/-- The 2,880 bytes of Table 06-14. -/
def snapshotBytes (number : Nat) (s : State) : List Byte × State :=
  let fc := freeWords 6 s
  let rd := readsOutstanding fc.2
  let uc := unitCounters 8 rd.2
  let p := fun (i : Fin 2) => s.net.port[i]
  (leBytes 2 1 ++ leBytes 2 0x0B40 ++ leBytes 4 number ++ leBytes 6 s.tether.stamp.toNat ++ leBytes 2 s.tether.epoch.toNat ++
   ([.free, .ingest, .compressed, .assembling, .awaiting, .restore, .tether] : List Owner).flatMap
     (fun o => leBytes 4 (ownerCount o s)) ++ leBytes 4 (transitCount s) ++
   leBytes 4 s.ing.recs.length ++ leBytes 4 (262144 - s.ing.recs.length) ++
   leBytes 4 ((s.mbx.ticket.toList.filter (fun t => t.held)).length) ++ leBytes 4 s.faults.log.length ++
   fc.1 ++ leBytes 4 rd.1 ++ leBytes 4 (outboundWrites s) ++
   leBytes 1 (p 0).pausedTx.toNat ++ leBytes 1 (p 1).pausedTx.toNat ++ leBytes 1 (p 0).pausedRx.toNat ++
   leBytes 1 (p 1).pausedRx.toNat ++ leBytes 4 0 ++
   allTrn.flatMap (fun n => leBytes 4 (8 * (s.trn[n].credit0 + s.trn[n].credit1))) ++
   allTrn.flatMap (fun n => leBytes 4 (windowCount n s)) ++
   allTrn.flatMap (fun n => leBytes 4 s.fmt.trn[n].u ++ leBytes 4 s.fmt.trn[n].n) ++
   uc.1 ++ kekSpent s ++ (List.range 16).map (fun k => if k < 4 then BitVec.ofNat 8 (rowsSpent k s) else 0) ++
   allStrm.flatMap (fun i => recordBook s.ing.stream[i]), uc.2)

/-- The freeze and the snapshot; its number, stamp and epoch answer. -/
def audit (s : State) : Nat × List Word × State :=
  let number := s.mbx.audits + 1
  let r := snapshotBytes number s
  let stamp := s.tether.stamp.toNat
  (rOk, [w32 number, w32 stamp, pack [(0, stamp / 2 ^ 32), (16, s.tether.epoch.toNat)]],
    { r.2 with mbx.audits := number, mbx.snapshot := r.1 })

def sysAudit : Cmd := { opcode := 0x0104, safe := true, lens := fun _ => [0], act := fun _ s => audit s }

/-- SYS.AUDIT. -/
def execSysAudit (ch : Chan) (s : State) : Host.Outcome State Fault Refusal := done (runCommand sysAudit ch) s

/-! ### SYS.FAULTS (Tables 06-11, 06-12, R286, R287) -/

/-- A message whose action is none of Table 06-11 belongs to the three short rows. -/
def faultsForm (k : Nat) (m : Msg) : Bool := (m.p 1).toNat == k || decide ((m.p 1).toNat > 3)

/-- Index `i` precedes `j`, modulo 2^24. -/
def precedes (i j : BitVec 24) : Bool := decide (0 < (j - i).toNat ∧ (j - i).toNat < 2 ^ 23)

def entryWords (e : LogEntry) : List Word :=
  [pack [(25, b2n e.flt.preempted), (24, b2n e.unhandled), (0, e.index.toNat)], w32 e.flt.stamp.toNat,
   pack [(16, e.flt.stamp.toNat / 2 ^ 32), (8, e.flt.leaf.toNat), (3, e.flt.source), (0, e.flt.level)], e.flt.detail]

def sysFaultsStatus : Cmd := {
  opcode := 0x0105, safe := true, mine := faultsForm 0, lens := fun _ => [2]
  param := fun m _ => m.p 1 != 0 || m.p 2 != 0
  act := fun _ s => (rOk, [w32 s.faults.halted.toNat, w32 (min 255 (pendingCount s)), w32 s.faults.log.length,
    w32 ((s.faults.log.head?.map (fun e => e.index)).getD s.faults.nextLog).toNat, w32 s.faults.nextLog.toNat], s) }

/-- SYS.FAULTS, STATUS. -/
def execSysFaultsStatus (ch : Chan) (s : State) : Host.Outcome State Fault Refusal :=
  done (runCommand sysFaultsStatus ch) s

/-- Up to three entries from the first held index not below `i`. -/
def readLog (i : BitVec 24) (s : State) : List Word :=
  let es := (s.faults.log.filter (fun e => !precedes e.index i)).take 3
  let next := match es.getLast? with
    | some e => e.index + 1
    | none => i
  w32 es.length :: w32 next.toNat :: es.flatMap entryWords

def sysFaultsRead : Cmd := {
  opcode := 0x0105, safe := true, mine := faultsForm 1, lens := fun _ => [2], bits := fun _ => [0xFFFFFFFF, 0x00FFFFFF]
  param := fun m _ => m.p 1 != 1
  act := fun m s => (rOk, readLog (BitVec.ofNat 24 (m.p 2).toNat) s, s) }

/-- SYS.FAULTS, READ. -/
def execSysFaultsRead (ch : Chan) (s : State) : Host.Outcome State Fault Refusal := done (runCommand sysFaultsRead ch) s

def sysFaultsRelease : Cmd := {
  opcode := 0x0105, safe := true, mine := faultsForm 2, lens := fun _ => [2], bits := fun _ => [0xFFFFFFFF, 0x00FFFFFF]
  param := fun m _ => m.p 1 != 2
  act := fun m s =>
    let log := s.faults.log.filter (fun e => !precedes e.index (BitVec.ofNat 24 (m.p 2).toNat))
    (rOk, [w32 log.length], { s with faults.log := log }) }

/-- SYS.FAULTS, RELEASE. -/
def execSysFaultsRelease (ch : Chan) (s : State) : Host.Outcome State Fault Refusal :=
  done (runCommand sysFaultsRelease ch) s

/-- Sources that RECOVER accepts (R287). -/
def recoverable (src : Nat) : Bool :=
  [3, 4, 5, 7, 8, 9, 10, 19, 20].contains src || decide (11 ≤ src ∧ src ≤ 18)

def sysFaultsRecover : Cmd := {
  opcode := 0x0105, mine := fun m => (m.p 1).toNat == 3, lens := fun _ => [2]
  param := fun m _ => !(recoverable (m.p 2).toNat || [1, 2, 6].contains (m.p 2).toNat)
  state := fun m s => !recoverable (m.p 2).toNat || !haltedSrc (m.p 2).toNat s
  long := fun m => some (.recover (m.p 2).toNat) }

/-- SYS.FAULTS, RECOVER. -/
def execSysFaultsRecover (ch : Chan) (s : State) : Host.Outcome State Fault Refusal :=
  done (runCommand sysFaultsRecover ch) s

/-! ### SYS.CONFIG (Table 06-13, R288, R289, R403, R405, R755) -/

/-- Value, default, minimum and maximum of a parameter. -/
def configRow (k : Nat) (s : State) : Option (Nat × Nat × Nat × Nat) :=
  let c := s.mbx.config
  match k with
  | 1 => some (c.ballastMib, 4096, 1024, 16384)
  | 2 => some (c.highWaterMib, 90112, 8192, 94208)
  | 3 => some (c.tetherRingMib, 1024, 256, 8192)
  | 4 => some (c.heartbeatMs, 0, 0, 10000)
  | 5 => some (c.mgmtFamilies.toNat, 0x802, 0, 0x1FFE)
  | _ => none

/-- A message whose action is neither GET nor SET belongs to both rows. -/
def configForm (k : Nat) (m : Msg) : Bool := (m.p 1).toNat == k || decide ((m.p 1).toNat > 1)

def sysConfigGet : Cmd := {
  opcode := 0x0106, mine := configForm 0, lens := fun _ => [2]
  param := fun m s => m.p 1 != 0 || (configRow (m.p 2).toNat s).isNone
  act := fun m s => match configRow (m.p 2).toNat s with
    | some (v, d, lo, hi) => (rOk, getAnswer v d lo hi, s)
    | none => (rParam, [], s) }

/-- SYS.CONFIG, GET. -/
def execSysConfigGet (ch : Chan) (s : State) : Host.Outcome State Fault Refusal := done (runCommand sysConfigGet ch) s

/-- B, H and T as a SET of parameter `k` to `v` would leave them. -/
def bht (k v : Nat) (s : State) : Nat × Nat × Nat :=
  let c := s.mbx.config
  (if k = 1 then v else c.ballastMib, if k = 2 then v else c.highWaterMib, if k = 3 then v else c.tetherRingMib)

/-- R288 and R289's refusals with E_PARAM: range, power of two, map bits, the fit of R403. -/
def badConfig (k v : Nat) (s : State) : Bool :=
  match configRow k s with
  | none => true
  | some (_, _, lo, hi) =>
    let x := bht k v s
    decide (v < lo ∨ hi < v) || (k == 3 && !(List.range 14).any (fun i => decide (v = 2 ^ i))) ||
    (k == 5 && decide (v % 2 = 1)) ||
    (decide (k ≤ 3) && !(decide (x.2.1 + x.1 + 1024 ≤ 98304) && decide (x.2.1 ≥ 256 + x.2.2 + 1024)))

/-- Extents of the landing partitions that exist. -/
def partitions (s : State) : Nat :=
  (s.net.port.toList.map (fun p => (p.qp.toList.map (fun q => match q with
    | some q => q.mib
    | none => 0)).sum)).sum

/-- The extents that a ring of `t` MiB adds are free. -/
def ringRoom (t : Nat) (s : State) : Bool :=
  s.stg.owner.all (fun e => decide (e.1 ≥ 256 + t))

def configState (k v : Nat) (s : State) : Bool :=
  let x := bht k v s
  decide (k ≤ 3) && (anyOpen s || decide (partitions s > (x.2.1 - 256 - x.2.2) / 2) ||
    (k == 3 && (s.tether.exporting.isSome || !ringRoom v s)))

/-- The parameter takes the value. -/
def setConfig (k v : Nat) (s : State) : State :=
  match k with
  | 1 => { s with mbx.config.ballastMib := v }
  | 2 => { s with mbx.config.highWaterMib := v }
  | 3 => if v = s.mbx.config.tetherRingMib then s else layRing v s
  | 4 => { s with mbx.config.heartbeatMs := v }
  | _ => { s with mbx.config.mgmtFamilies := w32 v }

def sysConfigSet : Cmd := {
  opcode := 0x0106, mine := configForm 1, lens := fun m => if m.p 1 = 1 then [3] else [2, 3]
  auth := fun m _ => m.p 2 == 5 && decide (m.chan.val ≥ 8)
  param := fun m s => m.p 1 != 1 || badConfig (m.p 2).toNat (m.p 3).toNat s
  state := fun m s => configState (m.p 2).toNat (m.p 3).toNat s
  act := fun m s => (rOk, [m.p 3], setConfig (m.p 2).toNat (m.p 3).toNat s) }

/-- SYS.CONFIG, SET. -/
def execSysConfigSet (ch : Chan) (s : State) : Host.Outcome State Fault Refusal := done (runCommand sysConfigSet ch) s

/-- A taken message whose opcode is not in the index: E_OPCODE, after the safe state's E_FAULT (R262, R830). -/
def execUnknownOpcode (ch : Chan) (s : State) : Host.Outcome State Fault Refusal :=
  done (fun s =>
    let m := msgOf ch s
    if !takes ch s || knownOpcodes.contains m.opcode then s
    else match replayed m s with
      | some s' => s'
      | none => remember m (answer m (if s.faults.safe then rFault else rOpcode) 0 false [] s)) s

/-! ### Handling of faults (R225 to R236, R286, R832) -/

/-- The highest level among faults that wait. -/
def topLevel (s : State) : Nat := (s.faults.suspended ++ s.faults.queue).foldl (fun m f => max m f.level) 0

/-- SUP takes the next fault in hand: of the highest level, a suspended one first, then in the order of detection
(R227). -/
def takeFault (s : State) : State :=
  let l := topLevel s
  match s.faults.suspended.find? (fun f => f.level = l) with
  | some f => { s with faults.inHand := some f, faults.suspended := s.faults.suspended.erase f }
  | none =>
    match s.faults.queue.find? (fun f => f.level = l) with
    | some f => { s with faults.inHand := some f, faults.queue := s.faults.queue.erase f }
    | none => s

/-- FAULT_IN_HAND (R226, R227). -/
def execFaultInHand (s : State) : Host.Outcome State Fault Refusal :=
  done (fun s => if supRuns s && !s.faults.safe && s.faults.inHand.isNone then takeFault s else s) s

/-- DETAIL holds something else than the number of FAILED completions: a CFG_PARITY or a derived TRN leaf (Table 06-12). -/
def detailFixed (f : FaultRec) : Bool := f.leaf == leafCode 0 31 || field f.leaf 5 3 != 0

/-- The completions the handling owes are posted, or held on DETACHED streams; those that cannot go yet stay owed
(R236, R832). -/
def postOwed (f : FaultRec) (s : State) : FaultRec × State :=
  (inOrder f.owes s).foldl (fun (x : FaultRec × State) r =>
    let s := tryFinal r { x.2 with faults.inHand := some { x.1 with owes := x.1.owes.erase r } }
    if s.ing.finals.contains r then (x.1, s)
    else ({ x.1 with owes := x.1.owes.erase r, detail := if detailFixed f then f.detail else x.1.detail + 1 }, s)) (f, s)

/-- FAULT_HANDLING_DONE (R226, R286, R832): completions, then the log; a full log is an overflow (R264). -/
def execFaultHandlingDone (s : State) : Host.Outcome State Fault Refusal :=
  done (fun s =>
    match s.faults.inHand with
    | none => s
    | some f =>
      if !supRuns s then s
      else
        let r := postOwed { f with owes := inOrder f.owes s } s
        if !r.1.owes.isEmpty then { r.2 with faults.inHand := some r.1 }
        else
          let s : State := { r.2 with faults.inHand := none }
          if logFull s then overflow s else appendLog r.1 false s) s

/-- A transport has not reported itself stopped within 3.0 s of the safe-state stop (Table 05-5 step 4). -/
def execSafeStopTimeout (n : Trn) (s : State) : Host.Outcome State Fault Refusal :=
  done (fun s => if s.faults.safeStopping.getLsbD n.val then
    idleDownlinks n { s with faults.safeStopping := clrBit s.faults.safeStopping n.val } else s) s

end Sys2Proof.Machine
end

