-- ==== Sys2Proof/Machine/Ingest.lean ====
section
/-!
DEFINITION. Ingest over both pipes: acceptance, landing and its STAGED completion, the submissions pulled over PCIe, and
streams that lose their host rings (ch01, ch03, ch07, ch14).
-/
namespace Sys2Proof.Machine
open Sys2Proof

/-! ### Acceptance (R23, R24, R39 to R44) -/

/-- The lowest number that is no key of the map. -/
def lowestKey {β : Type} (m : List (Nat × β)) : Nat := m.foldl (fun k e => if e.1 = k then k + 1 else k) 0

/-- The number that no record takes (R42). -/
def noRecord : Nat := 0xFFFFFFFFFFFF

/-- ING and SUP can accept a submission: enabled, the core runs, a descriptor is free (R44, R53). -/
def canAccept (s : State) : Bool := s.ing.enabled && supRuns s && decide (s.ing.recs.length < 262144)

/-- The record is accepted: number, descriptor, book (R23, R24, R38, R39), its bytes toward the cap (R43); reaching the last number sets STREAM_EVENT
(R42). `last` is the line still to be written. -/
def acceptRec (i : Strm) (src : RecSrc) (tag len : Nat) (segs : List (Nat × Nat)) (last : Option (Nat × List Byte))
    (s : State) : State :=
  let m := s.ing.stream[i]
  let r := lowestKey s.ing.recs
  let v : Rec := {
    stream := i, number := m.next, hostTag := tag, origLen := len, src := src, segs := segs, holder := .ing
    lastLine := last, landed := false, stagedDue := m.staged
    blocks := List.replicate (blockCount (profileOf i s) len) {}
    slot := none, placed := 0, rowsDue := [], pieces := [], verdict := none, entered := none, lateExempt := false }
  let s := setRec r (some v) (modStream i (fun m => { m with
    next := m.next + 1, accepted := m.accepted + 1, last := some m.next, order := m.order ++ [r] }) (countAccepted len s))
  if m.next + 1 = noRecord then ring 13 s else s

/-- A refusal of a submission that had room reserved: the FAILED completion goes out, and what is left of the reservation
is given back (R40, R41, R301). -/
def refuseSub (i : Strm) (c : Cpl) (s : State) : State :=
  let rest := cplNeed s.ing.stream[i] - 1
  writeCpl i c (modStream i (fun m => { m with reserved := m.reserved - rest }) s)

/-! ### Landing and STAGED (R25, R31, R32) -/

/-- STAGED completions due on the stream go out in record-number order, up to the first record that has not landed; on a
DETACHED stream they are held (R32, R127). -/
def postStaged (i : Strm) : Nat → State → State
  | 0, s => s
  | fuel + 1, s =>
    let m := s.ing.stream[i]
    match m.order.find? (fun r => match getRec r s with
      | some v => v.stagedDue
      | none => false) with
    | none => s
    | some r =>
      match getRec r s with
      | none => s
      | some v =>
        if !v.landed then s
        else
          let s' := modRec r (fun v => { v with stagedDue := false }) s
          if m.state = .detached then postStaged i fuel (holdCpl r (stagedCpl v) i s')
          else if canPost i s && m.held.isEmpty then postStaged i fuel (writeCpl i (stagedCpl v) s')
          else s

/-- The record's last line is written (R25, R303). -/
def landRec (r : Nat) (s : State) : State :=
  match getRec r s with
  | none => s
  | some v =>
    let s := match v.lastLine with
      | some (l, bs) => writeLine l bs s
      | none => s
    modRec r (fun v => { v with landed := true, lastLine := none }) s

/-! ### Submissions over PCIe (R300 to R304, R328) -/

/-- The bytes of a swap unit (Table 07-6). -/
def swapUnit (c : Nat) : Nat :=
  match c with
  | 0 => 1
  | 1 => 2
  | 2 => 4
  | 3 => 8
  | _ => 4

/-- One swap unit swapped (Table 07-6). -/
def swapOne (c : Nat) (u : List Byte) : List Byte := if c = 4 then u.drop 2 ++ u.take 2 else u.reverse

/-- The bytes swapped, units counted from the first byte (R311); `fuel` bounds the units. -/
def swapFrom (c : Nat) : Nat → List Byte → List Byte
  | 0, _ => []
  | fuel + 1, bs => if bs.isEmpty then [] else swapOne c (bs.take (swapUnit c)) ++ swapFrom c fuel (bs.drop (swapUnit c))

def swapBytes (c : Nat) (bs : List Byte) : List Byte := if c = 0 then bs else swapFrom c (bs.length / swapUnit c + 1) bs

/-- Bytes written over ranges in whole lines, the last one filled with zeros (R310). -/
def writeOver : List (Nat × Nat) → List Byte → State → State
  | [], _, s => s
  | (o, n) :: t, bs, s => writeOver t (bs.drop n) (writeLines o (bs.take n) s)

/-- The last line of `bs` laid over extents: its number and bytes (R303, R310). -/
def lastLineOf (es : List Nat) (bs : List Byte) : Nat × List Byte :=
  let k := (bs.length - 1) / 64
  (es.getD (64 * k / extBytes) 0 * (extBytes / 64) + k % (extBytes / 64), slice bs (64 * k) 64)

/-- Every line of a payload but its last is written (R303). -/
def writePayload (es : List Nat) (bs : List Byte) (s : State) : State :=
  let n := (bs.length - 1) / 64 * 64
  writeOver (rangesOver es n) (bs.take n) s

/-- The stream's pull of number `no` changed. -/
def modPull (i : Strm) (no : Nat) (f : Pull → Pull) (s : State) : State :=
  modStream i (fun m => { m with pulls := m.pulls.map (fun p => if p.no = no then f p else p) }) s

/-- The entry's pull is over. -/
def dropPull (i : Strm) (no : Nat) (s : State) : State :=
  modStream i (fun m => { m with pulls := m.pulls.filter (fun p => decide (p.no ≠ no)) }) s

/-- The submission is refused: its extents return to free, and its completion waits in the pull until it can go
(R40, R41, R42, R328). -/
def refusePull (i : Strm) (p : Pull) (code detail : Nat) (s : State) : State :=
  modPull i p.no (fun p => { p with refused := some (code, detail), exts := [], data := none }) (freeExtents p.exts s)

/-- The ring can be written for a refused entry, the stream open or not (R41). -/
def canRefuse (i : Strm) (s : State) : Bool :=
  match s.ing.stream[i].rings with
  | none => false
  | some r => supRuns s && !s.faults.safe && s.ing.stream[i].state != .detached && (r.cqStg || pcieIssues s)

/-- The oldest pulls of a stream are decided, in SQ order: refusals posted, finished payloads accepted or refused, up to
the first that waits (R304). -/
def drainPulls (i : Strm) : Nat → State → State
  | 0, s => s
  | fuel + 1, s =>
    let m := s.ing.stream[i]
    match m.pulls with
    | [] => s
    | p :: _ =>
      match p.refused, p.data with
      | some (code, detail), _ =>
        if canRefuse i s then drainPulls i fuel (refuseSub i (refusal (.sq p.idx) p.hostTag code detail) (dropPull i p.no s))
        else s
      | none, some bs =>
        if !canAccept s then s
        else if m.state ≠ .isOpen then drainPulls i fuel (refusePull i p rState 0 s)
        else if m.next = noRecord then drainPulls i fuel (refusePull i p rLimit 0 s)
        else
          drainPulls i fuel (acceptRec i (.sq p.idx) p.hostTag p.len (rangesOver p.exts p.len) (some (lastLineOf p.exts bs))
            (dropPull i p.no s))
      | none, none => s

/-- What a stream can do once an obstacle ends: decide pulls, post held completions, STAGED completions and verdicts
(R301, R327, R781). -/
def resumeStream (i : Strm) (s : State) : State :=
  let s := drainPulls i (2 * s.ing.stream[i].pulls.length) s
  let s := postHeld i s.ing.stream[i].held.length s
  let s := postStaged i s.ing.stream[i].order.length s
  (s.ing.finals.filter (fun r => match getRec r s with
    | some v => decide (v.stream = i)
    | none => false)).foldl (fun s r => if owedToFault r s then s else tryFinal r s) s

/-- Every stream with rings goes on. -/
def resumeStreams (s : State) : State :=
  allStrm.foldl (fun s i => if s.ing.stream[i].rings.isSome then resumeStream i s else s) s

/-! ### Losing the host rings (R127, R329, R336) -/

/-- Some ring of the stream lies in host memory. -/
def hostRings (m : Stream) : Bool := match m.rings with
  | some r => r.hasSq || !r.cqStg
  | none => false

/-- The stream's rings in host memory are gone: unfinished pulls are abandoned, an open stream becomes DETACHED and says
so, a closed one has no rings any more. Refusals not yet posted are held with the other completions. A payload that has
come and waits for an earlier entry is dropped with the unfinished ones (R336; log 176, DEDUCED), and the failure of an SQ
entry pull abandons the stream's payload pulls as a reset does (R329; log 175, DEDUCED). -/
def detachStream (i : Strm) (s : State) : State :=
  let m := s.ing.stream[i]
  if !hostRings m then s
  else
    let s := freeExtents (m.pulls.flatMap (·.exts)) { s with
      dma.sqOut := s.dma.sqOut.filter (fun o => decide (o.1 ≠ i)) }
    let owed := m.pulls.filterMap (fun p => p.refused.map (fun c => (262144, refusal (.sq p.idx) p.hostTag c.1 c.2)))
    let s := modStream i (fun m => { m with pulls := [], reserved := m.reserved - cplNeed m * m.pulls.length }) s
    match m.state with
    | .closed => modStream i (fun m => { m with rings := none, reserved := 0 }) s
    | .detached => s
    | _ => ring 13 (modStream i (fun m => { m with state := .detached, held := m.held ++ owed }) s)

end Sys2Proof.Machine
end

