-- ==== Sys2Proof/Machine/FamCmp.lean ====
section
/-!
DEFINITION. Compression: dispatch, coding, the self-check and the known-answer test that follows it, packing into
compressed extents, and the PROFILE family (ch10).
-/
namespace Sys2Proof.Machine
open Sys2Proof

/-! ### Packing (R45, R400, R427; ch01 Compression) -/

/-- The next block of a stream that is still to be packed, by descriptor and block: records and blocks in order, failed
records left out (R45, R457). -/
def nextToPack (i : Strm) (s : State) : Option (Nat × Nat × Blk) :=
  s.ing.stream[i].order.findSome? (fun r => match getRec r s with
    | some v =>
      if v.verdict.isNone then
        (v.blocks.zipIdx.find? (fun b => uncoded b.1 || b.1.st == .coded)).map (fun b => (r, b.2, b.1))
      else none
    | none => none)

/-- Room of `len` bytes at the end of the stream's compressed extents: ranges, and a new extent where the open one is too
short. None while no extent is free (R400, R427). -/
def packRoom (i : Strm) (len : Nat) (s : State) : Option (List (Nat × Nat) × State) :=
  let setOut (e used : Nat) (s : State) : State :=
    modStream i (fun m => { m with outExt := if used = extBytes then none else some (e, used) }) s
  let fresh (need : Nat) (pre : List (Nat × Nat)) : Option (List (Nat × Nat) × State) :=
    (takeExtent .compressed s).map (fun x => (pre ++ [(x.1 * extBytes, need)], setOut x.1 need x.2))
  match s.ing.stream[i].outExt with
  | none => fresh len []
  | some (e, used) =>
    if used + len ≤ extBytes then some ([(e * extBytes + used, len)], setOut e (used + len) s)
    else fresh (len - (extBytes - used)) [(e * extBytes + used, extBytes - used)]

/-- One block of a record changed. -/
def modBlk (r k : Nat) (f : Blk → Blk) (s : State) : State :=
  modRec r (fun v => { v with blocks := v.blocks.zipIdx.map (fun b => if b.2 = k then f b.1 else b.1) }) s

/-- The stream's coded blocks are packed in order, each with room for the 16 bytes before and after it that CIP writes
(Table 11-1), until one is not coded or no extent is free. -/
def packStream (i : Strm) : Nat → State → State
  | 0, s => s
  | fuel + 1, s =>
    match nextToPack i s with
    | none => s
    | some (r, k, b) =>
      if b.st ≠ .coded then s
      else
        match packRoom i (b.len + 32) s with
        | none => s
        | some (rs, s) =>
          let s := writeRanges (subRanges rs 16 b.len) b.coded s
          let s := modBlk r k (fun b => { b with st := .packed, coded := [], segs := rs, since := s.gov.evals }) s
          packStream i fuel (modStream i (fun m => { m with addedNow := m.addedNow + b.len + 32 }) s)

/-- Blocks of the streams that wait only for their packing. -/
def codedCount (i : Strm) (s : State) : Nat :=
  (s.ing.stream[i].order.map (fun r => ((getRec r s).map (fun v => (v.blocks.filter (fun b => b.st == .coded)).length)).getD 0)).sum

/-- Every stream packs what it can. -/
def packAll (s : State) : State := allStrm.foldl (fun s i => packStream i (codedCount i s) s) s

/-- CMP waits for a free extent: the packer is stuck (R427). -/
def packStuck (s : State) : Bool :=
  allStrm.any (fun i => match nextToPack i s with
    | some (_, _, b) => b.st == .coded
    | none => false)

/-! ### Dispatch (R457, R458) -/

/-- CMP runs. -/
def cmpOn (s : State) : Bool := s.cmp.enabled && domOn 5 s && !haltedSrc 7 s

/-- A DIAG.KAT runs on a unit: 0 to 15 engines, 16 and up cipher units (R798). -/
def katOn (u : Nat) (s : State) : Bool := !(ticketsOf (fun w => w == .kat u) s).isEmpty

/-- The engine is in service and free. -/
def engineFree (e : Fin 16) (s : State) : Bool :=
  s.cmp.engine[e].job.isNone && !s.cmp.engine[e].off && !katOn e.val s

/-- Engines that decode the blocks of request `t`. -/
def decoding (t : Nat) (s : State) : Nat := (s.cmp.engine.toList.filter (fun e => e.job == some (.decode t))).length

/-- A restore block that waits for an engine, while fewer than 4 decode (R458). -/
def decodeWaiting (s : State) : Option Nat :=
  let busy := (s.cmp.engine.toList.filter (fun e => match e.job with
    | some (.decode _) => true
    | _ => false)).length
  if busy ≥ 4 then none
  else (s.rst.reqs.find? (fun q => !q.rawItem && decide (decoding q.ticket s < q.plain.length))).map (·.ticket)

/-- The next block of a stream for dispatch: the first record in order with a block not yet dispatched, once it has
landed (R22, R45, R457). -/
def nextToCode (i : Strm) (s : State) : Option (Nat × Nat) :=
  match s.ing.stream[i].order.findSome? (fun r => match getRec r s with
    | some v =>
      if v.verdict.isNone then
        (v.blocks.zipIdx.find? (fun b => b.1.st == .waiting)).map (fun b => (r, b.2, v.landed))
      else none
    | none => none) with
  | some (r, k, true) => some (r, k)
  | _ => none

/-- CMP_DISPATCH (R457, R458). -/
def execCmpDispatch (s : State) : Host.Outcome State Fault Refusal :=
  done (fun s =>
    if !cmpOn s then s
    else
      let s := packAll s
      match (List.finRange 16).find? (fun e => engineFree e s) with
      | none => s
      | some e =>
        let give (j : CmpJob) (s : State) : State := { s with cmp.engine := upd s.cmp.engine e (fun x => { x with job := some j }) }
        match decodeWaiting s with
        | some t => give (.decode t) s
        | none =>
          if packStuck s then s
          else
            match (roundFrom s.cmp.turn).findSome? (fun i => (nextToCode i s).map (fun x => (i, x))) with
            | none => s
            | some (i, r, k) =>
              give (.code r k) (modRec r (fun v => { v with holder := .cmp }) (modBlk r k (fun b => { b with st := .inEngine })
                { s with cmp.turn := i.val }))) s

/-! ### Coding and the self-check (R453, R455, R463, R465) -/

def freeEngine (e : Fin 16) (s : State) : State :=
  { s with cmp.engine := upd s.cmp.engine e (fun x => { x with job := none }) }

/-- The loadable table `j` that CMP codes with (R444). -/
def tableIn (s : State) (j : Nat) : CodeTable := tableOf ((getN s.cmp.table j none).getD 0)

/-- Source space that the record gives up once block `k` is coded: whole extents over PCIe, the footprint with the last
block over RoCE (ch01 Compression, R353). -/
def releaseCoded (v w : Rec) (s : State) : State :=
  match v.src with
  | .sq _ =>
    let p := profileOf v.stream s
    let still := heldSource p w
    freeExtents ((heldSource p v).filter (fun e => !still.contains e && decide (ownerOf s e = .ingest))) s
  | .roce _ _ _ => if w.blocks.any uncoded then s else releaseSource v s

/-- A self-check mismatch: the leaf, the count, the record failed, the engine out of service (R455, R465). -/
def selfCheckFailed (e : Fin 16) (r : Nat) (s : State) : State :=
  let s := { s with cmp.engine := upd s.cmp.engine e (fun x => { x with job := none, off := true, katDue := true }) }
  let owes := recsWhere (fun v => v.verdict.isNone) s |>.filter (fun x => decide (x = r))
  raise1 7 (leafCode 0 0) 0 owes (failRecs owes rFault false (count 0x8538 1 s))

/-- A block leaves its engine coded or raw: the counters, the source space, the packer (R453, R457). -/
def blockCoded (e : Fin 16) (r k : Nat) (orig : List Byte) (v : Rec) (s : State) : State :=
  let out := encodeBlock (profileOf v.stream s) (tableIn s) k orig
  let reason := (leAt out 3 1) / 16
  let s := count 0x8500 orig.length (count 0x8508 out.length (count 0x8510 1 s))
  let s := if reason = 1 then count 0x8518 1 s else if reason = 0 then s else count 0x8520 1 s
  let s := modBlk r k (fun b => { b with st := .coded, coded := out, raw := (leAt out 3 1) % 2 == 1, len := out.length })
    (freeEngine e s)
  let s := match getRec r s with
    | none => s
    | some w => if w.blocks.any uncoded then releaseCoded v w s
      else modRec r (fun v => { v with holder := .cip }) (releaseCoded v w s)
  packStream v.stream (codedCount v.stream s) s

/-- BLOCK_CODED: `selfOk` says whether the shadow decoder agreed (R453, R455). -/
def execBlockCoded (e : Fin 16) (selfOk : Bool) (s : State) : Host.Outcome State Fault Refusal :=
  done (fun s =>
    if !cmpOn s then s
    else
      match s.cmp.engine[e].job with
      | some (.code r k) =>
        let x := takeInjector 4 (fun a => decide (a.p2.toNat = e.val)) s
        let s := x.2
        if !selfOk || x.1.isSome then selfCheckFailed e r s
        else
          match getRec r s with
          | none => freeEngine e s
          | some v =>
            if v.verdict.isSome then freeEngine e s
            else
              match readHeld r (blockRanges (profileOf v.stream s) v k) s with
              | (some orig, s) => blockCoded e r k orig v s
              | (none, s) => freeEngine e s
      | _ => s) s

/-- ENGINE_KAT_START (R465). -/
def execEngineKatStart (e : Fin 16) (s : State) : Host.Outcome State Fault Refusal :=
  done (fun s =>
    if cmpOn s && supRuns s && s.cmp.engine[e].katDue then
      { s with cmp.engine := upd s.cmp.engine e (fun x => { x with katDue := false, kat := true }) }
    else s) s

/-- ENGINE_KAT_DONE: the engine returns to service, or stays out of it (R465). -/
def execEngineKatDone (e : Fin 16) (pass : Bool) (s : State) : Host.Outcome State Fault Refusal :=
  done (fun s =>
    if cmpOn s && s.cmp.engine[e].kat then
      { s with cmp.engine := upd s.cmp.engine e (fun x => { x with kat := false, off := !pass }) }
    else s) s

/-! ### The PROFILE family (R460 to R462, R467 to R470) -/

/-- Open streams bound to profile `p`. -/
def boundTo (p : Nat) (s : State) : Nat :=
  (allStrm.filter (fun i => s.ing.stream[i].state != .closed && s.ing.stream[i].profile == p)).length

def profileIn (m : Msg) : Profile := { p2 := m.p 2, p3 := m.p 3, p4 := m.p 4, p5 := m.p 5 }

/-- The geometry breaks a limit of Table 10-8 (R460). In mode OFF no predictor is in use. -/
def badGeometry (p : Profile) : Bool :=
  decide (p.x = 0 ∨ p.y = 0 ∨ p.y > 16777215) ||
  (p.mode != 0 && (
    (decide (p.pred = 3 ∨ p.pred = 4) && decide (p.x * p.sampleBytes > 262144)) ||
    (decide (p.pred = 5 ∨ p.pred = 6) && decide (p.x * p.y * p.sampleBytes > 131072))))

/-- A value outside Table 10-1, or a breach of R467. -/
def badProfile (p : Profile) : Bool :=
  decide (p.mode = 3 ∨ p.width < 8 ∨ p.width > 48) || (p.mode != 0 && decide (p.pred > 6)) ||
  (p.mode == 1 && !p.mask.getLsbD p.start) || badGeometry p

def profileSet : Cmd := {
  opcode := 0x0601, lens := fun _ => [5], bits := fun _ => [0x1F, 0x1F3F0173]
  param := fun m _ => m.p 1 == 0 || badProfile (profileIn m)
  state := fun m s => decide (0 < boundTo (m.f 1 0 5) s)
  act := fun m s => (rOk, [], { s with cmp.profile := updN s.cmp.profile (m.f 1 0 5) (fun _ => some (profileIn m)) }) }

/-- PROFILE.SET (R467). -/
def execProfileSet (ch : Chan) (s : State) : Host.Outcome State Fault Refusal := done (runCommand profileSet ch) s

def profileGet : Cmd := {
  opcode := 0x0602, safe := true, lens := fun _ => [1], bits := fun _ => [0x1F]
  act := fun m s =>
    let k := m.f 1 0 5
    let info := pack [(0, b2n (getN s.cmp.profile k none).isSome), (8, boundTo k s)]
    match getN s.cmp.profile k none with
    | some p => (rOk, [p.p2, p.p3, p.p4, p.p5, info], s)
    | none => (rOk, [0, 0, 0, 0, info], s) }

/-- PROFILE.GET (R468). -/
def execProfileGet (ch : Chan) (s : State) : Host.Outcome State Fault Refusal := done (runCommand profileGet ch) s

/-- The 256-bit value of P2 to P9 (R469). -/
def tableWord (m : Msg) : BitVec 256 :=
  BitVec.ofNat 256 ((List.range 8).map (fun i => (m.p (2 + i)).toNat * 2 ^ (32 * i))).sum

/-- An open stream's profile may use loadable table `j` (R461). -/
def tableInUse (j : Nat) (s : State) : Bool :=
  allStrm.any (fun i => s.ing.stream[i].state != .closed &&
    (profileOf i s).mode == 1 && (profileOf i s).mask.getLsbD (16 + j))

def profileLoadTable : Cmd := {
  opcode := 0x0603, lens := fun _ => [9]
  bits := fun _ => [0xF] ++ List.replicate 7 0xFFFFFFFF ++ [0x001FFFFF]
  param := fun m _ => !tableValid (tableOf (tableWord m))
  state := fun m s => tableInUse (m.f 1 0 4) s
  act := fun m s =>
    let j := m.f 1 0 4
    let s := { s with cmp.table := updN s.cmp.table j (fun _ => some (tableWord m)) }
    (rOk, [], if cmpOn s then { s with cmp.loaded := setBit s.cmp.loaded j } else s) }

/-- PROFILE.LOAD_TABLE (R444, R469). -/
def execProfileLoadTable (ch : Chan) (s : State) : Host.Outcome State Fault Refusal := done (runCommand profileLoadTable ch) s

/-- The table that a number of PROFILE.READ_TABLE names, if it is loaded (R470). -/
def tableNamed (k : Nat) (s : State) : Option (BitVec 256) :=
  if k < 16 then some (tableBits (builtinTable k)) else getN s.cmp.table (k - 16) none

def profileReadTable : Cmd := {
  opcode := 0x0604, safe := true, lens := fun _ => [1], bits := fun _ => [0x1F]
  act := fun m s =>
    let t := tableNamed (m.f 1 0 5) s
    (rOk, pack [(0, b2n t.isSome)] :: (List.range 8).map (fun i => BitVec.ofNat 32 ((t.getD 0).toNat / 2 ^ (32 * i))), s) }

/-- PROFILE.READ_TABLE (R470). -/
def execProfileReadTable (ch : Chan) (s : State) : Host.Outcome State Fault Refusal := done (runCommand profileReadTable ch) s

end Sys2Proof.Machine
end

