-- ==== Sys2Proof/Machine/Net.lean ====
section
/-!
DEFINITION. The Ethernet ports and the RoCE engine: frames sent, queue-pair errors, the transport's checks on inbound
packets, landing partitions, and ING's taking of closing packets (ch08).
-/
namespace Sys2Proof.Machine
open Sys2Proof

/-! ### Ports -/

/-- The port's receive and transmit run, outside a loopback (R384, R784, Table 05-5). -/
def portRuns (p : Port) (s : State) : Bool :=
  s.net.port[p].enabled && domOn (2 + p.val) s && s.dbg.loopEth[p] == 0 && !haltedSrc (3 + p.val) s && !haltedSrc 5 s &&
    !s.faults.safe

/-- The port's link is up and aligned as well. -/
def portUp (p : Port) (s : State) : Bool := portRuns p s && s.net.port[p].link && s.net.port[p].aligned

/-- Offset of a counter of port p (Table 08-12). -/
def ethCount (p : Port) (off k : Nat) (s : State) : State := count (0x8300 + 0x80 * p.val + off) k s

def isV6 : Ip → Bool
  | .v4 _ => false
  | .v6 _ => true

/-- The port tags its frames (Table 08-8). -/
def tagged (e : EthPort) : Bool := e.vlan.getLsbD 12

/-- Bytes of a RoCE frame, FCS included, with `ext` bytes between base header and ICRC (Table 08-1); no frame is shorter
than 64 bytes. -/
def frameBytes (v6 tag : Bool) (ext : Nat) : Nat :=
  max 64 (14 + 4 * b2n tag + (if v6 then 40 else 20) + 8 + 12 + (ext + 3) / 4 * 4 + 4 + 4)

/-- A frame goes out on its priority, or waits for the end of a received pause (R368); an idle transmitter sends
nothing. -/
def sendFrame (p : Port) (prio bytes : Nat) (o : Out) (s : State) : State :=
  if !portRuns p s then s
  else if s.net.port[p].pausedRx.getLsbD prio then modPort p (fun e => { e with txq := e.txq ++ [(prio, bytes, o)] }) s
  else emit o (ethCount p 0x08 bytes s)

/-- Frames of priorities no longer paused go out, in order (R368). -/
def flushTx (p : Port) (s : State) : State :=
  let go := s.net.port[p].txq.filter (fun f => !s.net.port[p].pausedRx.getLsbD f.1)
  let s := modPort p (fun e => { e with txq := e.txq.filter (fun f => e.pausedRx.getLsbD f.1) }) s
  go.foldl (fun s f => sendFrame p f.1 f.2.1 f.2.2 s) s

/-- The priority of the frames that firmware sends: the VLAN tag's PCP, or bits [5:3] of the outbound DSCP (ch08, PFC; Table
08-8). An untagged ARP frame carries neither and goes with the DSCP's (log 183, DEDUCED). -/
def portPrio (e : EthPort) : Nat := if tagged e then field e.vlan 13 3 else field e.vlan 19 3

/-- Bytes of an ARP frame, or of a neighbour solicitation or advertisement with its link-layer option, FCS included. -/
def neighBytes (v6 tag : Bool) : Nat := max 64 (14 + 4 * b2n tag + (if v6 then 72 else 28) + 4)

/-- Bytes of an ICMP or ICMPv6 echo frame with `n` bytes of data, FCS included. -/
def echoBytes (v6 tag : Bool) (n : Nat) : Nat := max 64 (14 + 4 * b2n tag + (if v6 then 40 else 20) + 8 + n + 4)

/-- A frame of firmware goes out on the port's priority (R345, R346, R368). -/
def sendFirmware (p : Port) (bytes : Nat) (o : Out) (s : State) : State := sendFrame p (portPrio s.net.port[p]) bytes o s

/-- A next hop is asked for its MAC address (R345). -/
def askHop (p : Port) (ip : Ip) (s : State) : State :=
  sendFirmware p (neighBytes (isV6 ip) (tagged s.net.port[p])) (.neighbourAsk p ip) s

/-- The frame that waits is one of queue pair `i`; a NAK too, as `naks` says. -/
def frameOf (naks : Bool) (i : Fin 64) (o : Out) : Bool :=
  match o with
  | .ack _ j _ _ => i == j
  | .cnp _ j => i == j
  | .rdmaWrite _ j _ _ _ => i == j
  | .nak _ j _ _ _ => naks && i == j
  | _ => false

/-- Frames of the queue pair that wait for the end of a pause are dropped (R348). -/
def dropFrames (naks : Bool) (p : Port) (i : Fin 64) (s : State) : State :=
  modPort p (fun e => { e with txq := e.txq.filter (fun f => !frameOf naks i f.2.2) }) s

/-- The MAC address of ETH_p (R344). -/
def portMac (p : Port) (s : State) : BitVec 48 := BitVec.ofNat 48 (macBase s + p.val)

/-- The link-local address in modified EUI-64 form (R344). -/
def linkLocal (p : Port) (s : State) : BitVec 128 :=
  let m := (portMac p s).toNat ^^^ (2 ^ 41)
  BitVec.ofNat 128 (0xFE80 * 2 ^ 112 + (m / 2 ^ 24) * 2 ^ 40 + 0xFFFE * 2 ^ 24 + m % 2 ^ 24)

/-- The address is one of the port's that answers (R385). -/
def ownAddress (p : Port) (ip : Ip) (s : State) : Bool :=
  let e := s.net.port[p]
  match ip with
  | .v4 a => match e.ip4 with
    | some (b, _) => a == b
    | none => false
  | .v6 a =>
    (e.dad.getLsbD 0 && (e.ip4.isSome || e.ip6.isSome) && a == linkLocal p s) ||
    (e.dad.getLsbD 1 && (match e.ip6 with
      | some (b, _) => a == b
      | none => false))

/-! ### Neighbours (R345) -/

/-- The address lies in the prefix. -/
def inPrefix {n : Nat} (a base : BitVec n) (len : Nat) : Bool := a >>> (n - len) == base >>> (n - len)

/-- The next hop toward a remote address: itself inside the prefix, else the gateway, where there is one. -/
def nextHop (p : Port) (ip : Ip) (s : State) : Ip :=
  let e := s.net.port[p]
  match ip with
  | .v4 a => match e.ip4, e.gw4 with
    | some (b, l), some g => if inPrefix a b l then ip else .v4 g
    | _, _ => ip
  | .v6 a => match e.ip6, e.gw6 with
    | some (b, l), some g => if inPrefix a b l || a.toNat / 2 ^ 118 == 0x3FA then ip else .v6 g
    | _, _ => ip

/-- Queue pairs of the port whose next hop is `ip`. -/
def qpsVia (p : Port) (ip : Ip) (s : State) : List (Fin 64) :=
  (List.finRange 64).filter (fun i => match s.net.port[p].qp[i] with
    | some q => nextHop p q.remote s == ip
    | none => false)

/-- A next hop is wanted: known or being asked for, or resolution begins, anew where it failed; a full table gives up its
oldest entry that no QP uses. -/
def wantHop (p : Port) (ip : Ip) (s : State) : State :=
  if s.net.port[p].neigh.any (fun x => x.ip == ip && x.state != .failed) then s
  else if s.net.port[p].neigh.any (fun x => x.ip == ip) then
    askHop p ip (modPort p (fun e => { e with
      neigh := e.neigh.map (fun x => if x.ip = ip then { x with state := .resolving, tries := 0 } else x) }) s)
  else
    let s := if s.net.port[p].neigh.length < 256 then s
      else match s.net.port[p].neigh.find? (fun x => (qpsVia p x.ip s).isEmpty) with
        | some x => modPort p (fun e => { e with neigh := e.neigh.erase x }) s
        | none => s
    askHop p ip (modPort p (fun e => { e with
      neigh := e.neigh ++ [{ ip := ip, state := .resolving, mac := 0, tries := 0 }] }) s)

/-- The hop is resolved. -/
def hopKnown (p : Port) (ip : Ip) (s : State) : Bool :=
  s.net.port[p].neigh.any (fun x => x.ip == ip && x.state == .resolved)

/-! ### Queue pairs -/

def getQp (p : Port) (i : Fin 64) (s : State) : Option Qp := s.net.port[p].qp[i]

/-- The queue pair gives back the reservations of its posted buffers and of the message it discards (R301, R379). -/
def dropCredits (p : Port) (i : Fin 64) (s : State) : State :=
  match getQp p i s with
  | none => s
  | some q =>
    let n := q.credits + (match q.msg with
      | some m => b2n m.credited
      | none => 0)
    modStream q.stream (fun m => { m with reserved := m.reserved - n * cplNeed m })
      (modQp p i (fun q => { q with credits := 0, msg := none }) s)

/-- Outbound messages of the queue pair end, and what waits for the end of a pause with them; a request whose QP is in ERROR
ends with E_FAULT and PARTIAL (R348, R380, R703). -/
def dropOutbound (p : Port) (i : Fin 64) (s : State) : State :=
  let mine (q : Request) : Bool := decide (q.output = 1) && q.port == p && q.qp == i
  let s := { s with rst.reqs := s.rst.reqs.map (fun q => if mine q then { q with delivered := q.acked } else q) }
  let s := abortReqs mine rFault none s
  modQp p i (fun q => { q with outstanding := [] }) (dropFrames false p i s)

/-- An error of Table 08-6: the QP goes to ERROR (one being destroyed stays DRAINING), with its registers, leaf and
doorbell (R379). -/
def qpError (p : Port) (i : Fin 64) (kind leaf : Nat) (s : State) : State :=
  match getQp p i s with
  | none => s
  | some _ =>
    let s := dropOutbound p i (dropCredits p i s)
    let s := modQp p i (fun q => { q with
      state := if q.state = .draining then .draining else .error, lastErr := kind, partialRec := false }) s
    ring 11 (raise1 5 (leafCode 0 leaf) 0 [] { s with net.errInfo := pack [(16, kind), (8, p.val), (0, i.val)] })

/-- The largest credit count that the AETH field can state, not above `n` (InfiniBand's end-to-end credits). -/
def aethCredits (n : Nat) : Nat :=
  ([0, 1, 2, 3, 4, 6, 8, 12, 16, 24, 32, 48, 64, 96, 128, 192, 256, 384, 512, 768, 1024] : List Nat).foldl
    (fun a v => if v ≤ n then v else a) 0

/-- An ACK of PSN `psn` (R360, R364). -/
def sendAck (p : Port) (i : Fin 64) (psn : BitVec 24) (s : State) : State :=
  match getQp p i s with
  | none => s
  | some q => sendFrame p q.prio (frameBytes (isV6 q.remote) (tagged s.net.port[p]) 4)
      (.ack p i psn (aethCredits q.credits)) s

/-- A NAK: kinds 0 sequence error, 1 invalid request, 2 remote access error, 3 RNR (Table 08-6, R365). -/
def sendNak (p : Port) (i : Fin 64) (psn : BitVec 24) (kind : Nat) (s : State) : State :=
  match getQp p i s with
  | none => s
  | some q => sendFrame p q.prio (frameBytes (isV6 q.remote) (tagged s.net.port[p]) 4) 
      (.nak p i psn kind (if kind = 3 then q.rnr else 0)) s

/-- A QP error answered with a NAK. -/
def nakError (p : Port) (i : Fin 64) (psn : BitVec 24) (kind leaf nak : Nat) (s : State) : State :=
  qpError p i kind leaf (sendNak p i psn nak s)

/-! ### Inbound packets (R347, R350, R352, R354 to R358, R365, R376, R377, R379) -/

def opFirst : RoceOp → Bool
  | .writeFirst | .writeOnly | .writeOnlyImm | .sendFirst | .sendOnly => true
  | _ => false

/-- The packet closes a record: the last of a WRITE with immediate or of a SEND (R359). -/
def opCloses : RoceOp → Bool
  | .writeLastImm | .writeOnlyImm | .sendLast | .sendOnly => true
  | _ => false

def opEnds : RoceOp → Bool
  | .writeLast | .writeOnly => true
  | o => opCloses o

def opSend : RoceOp → Bool
  | .sendFirst | .sendMiddle | .sendLast | .sendOnly => true
  | _ => false

/-- The header bytes a packet carries beside its base header. -/
def extBytesOf (k : RocePkt) : Nat :=
  (match k.op with
    | .writeFirst | .writeOnly => 16
    | .writeOnlyImm => 20
    | .writeLastImm => 4
    | .cnp => 16
    | _ => 0) + k.payload.length

/-- Bytes of a received frame of index `i` with `ext` bytes beside its base header; of one that names no QP the IP version,
and so the length, is not known. -/
def rxFrameBytes (p : Port) (i ext : Nat) (s : State) : Nat × State :=
  let e := s.net.port[p]
  match getN e.qp i none with
  | some q => (frameBytes (isV6 q.remote) (tagged e) ext, s)
  | none =>
    let f := freeValue s
    (frameBytes (f.1.getLsbD 0) (tagged e) ext, f.2)

/-- Bytes of a received packet's frame. -/
def rxBytes (p : Port) (k : RocePkt) (s : State) : Nat × State :=
  rxFrameBytes p (k.qpn.toNat - (0x400 + 64 * p.val)) (extBytesOf k) s

/-- The QP that a packet addresses (R347). -/
def qpOf (p : Port) (k : RocePkt) : Option (Fin 64) :=
  let base := 0x400 + 64 * p.val
  if h : base ≤ k.qpn.toNat ∧ k.qpn.toNat - base < 64 then some ⟨k.qpn.toNat - base, h.2⟩ else none

/-- Bytes of a landing partition. -/
def partBytes (q : Qp) : Nat := q.mib * extBytes

/-- No footprint that awaits release, and the partition's end, stand in the way of the range (R357). -/
def inWindow (q : Qp) (off len : Nat) : Bool :=
  decide (off + len ≤ partBytes q) &&
  q.footprints.all (fun f => decide (off + len ≤ f.start ∨ f.start + f.len ≤ off))

/-- Where the next SEND lands (R358). -/
def slotStart (q : Qp) : Nat := if q.fill + q.slot ≤ partBytes q then q.fill else 0

/-- The message after this packet's part: a new one, or the one in progress. -/
def msgAfter (q : Qp) (k : RocePkt) : Option InMsg :=
  if opFirst k.op then
    if q.msg.isSome then none
    else some {
      send := opSend k.op, start := if opSend k.op then slotStart q else k.va.toNat, got := 0
      dmaLen := if opSend k.op then 0 else k.dmaLen, first := k.psn, credited := decide (q.credits > 0), held := [] }
  else match q.msg with
    | some m => if m.send == opSend k.op then some m else none
    | none => none

/-- What the transport makes of an expected packet of a QP in RTS: a fault of Table 08-6 (kind, leaf, NAK), no credit, or
its message. -/
inductive PktCheck where
  | bad (kind leaf nak : Nat)
  | noCredit (first : BitVec 24)
  | good (m : InMsg)

def checkPkt (q : Qp) (k : RocePkt) : PktCheck :=
  let admits := match q.form with
    | .w => !(opSend k.op)
    | .s => opSend k.op
    | .r => false
  if k.op = .other ∨ admits = false then .bad 8 0 1
  else
    match msgAfter q k with
    | none => .bad 8 0 1
    | some m =>
      let n := k.payload.length
      if !m.send ∧ opFirst k.op = true ∧ k.rkey ≠ q.rkey then .bad 1 2 2
      else if !m.send ∧ opFirst k.op = true ∧ m.start % 64 ≠ 0 then .bad 3 2 1
      else if opCloses k.op = true ∧ m.credited = false then .noCredit m.first
      else if m.send ∧ m.credited = false then .noCredit m.first
      else if !(opEnds k.op) ∧ n ≠ 4096 then .bad 8 0 1
      else if m.send ∧ m.got + n > q.slot then .bad 7 4 1
      else if !inWindow q (m.start + m.got) n then .bad 2 2 2
      else if !m.send ∧ (m.got + n > m.dmaLen ∨ (opEnds k.op = true ∧ m.got + n ≠ m.dmaLen)) then
        (if opCloses k.op then .bad 6 4 1 else .bad 8 0 1)
      else if !m.send ∧ opEnds k.op = true ∧ opCloses k.op = false ∧ m.dmaLen % 64 ≠ 0 then .bad 3 2 1
      else .good m

/-- A packet's bytes land in the partition in whole lines (R352). Those of a message that found no credit wait until its end
shows that it closes no record, `ends` (R365; log 182, DEDUCED). -/
def landBytes (q : Qp) (m : InMsg) (ends : Bool) (bs : List Byte) (s : State) : State :=
  if m.credited then writeLines (q.base * extBytes + m.start + m.got) bs s
  else if ends then writeLines (q.base * extBytes + m.start) (m.held ++ bs) s
  else s

/-- The message after a packet of `bs`. -/
def tookBytes (m : InMsg) (bs : List Byte) : InMsg :=
  { m with got := m.got + bs.length, held := if m.credited then [] else m.held ++ bs }

/-- The message has begun: its credit is taken. -/
def takeCredit (q : Qp) (k : RocePkt) (m : InMsg) : Qp :=
  { q with msg := some m, credits := if opFirst k.op && m.credited then q.credits - 1 else q.credits }

/-- An expected packet is in order and good: it lands; the last of a message that closes no record ends it, gives its credit
back, and is acknowledged. -/
def landPkt (p : Port) (i : Fin 64) (q : Qp) (k : RocePkt) (m : InMsg) (s : State) : State :=
  let s := landBytes q m (opEnds k.op) k.payload s
  let m' := tookBytes m k.payload
  let s := modQp p i (fun _ =>
    let q := takeCredit q k m'
    { q with
      expPsn := k.psn + 1, nakSent := false, partialRec := q.partialRec || m.credited || opEnds k.op
      msg := if opEnds k.op then none else some m'
      credits := if opEnds k.op && m.credited then q.credits + 1 else q.credits }) s
  if opEnds k.op then sendAck p i k.psn s else s

/-- What becomes of the packet at the head of a port's receive buffer: gone, or a closing packet that waits for ING. -/
inductive PktFate where
  | gone
  | waits
  deriving DecidableEq, Repr

/-- PSN `a` lies behind `b` (RC's half range). -/
def psnBehind (a b : BitVec 24) : Bool := decide (0 < (b - a).toNat ∧ (b - a).toNat < 2 ^ 23)

/-- A CNP, at most one per QP in 50 µs (Table 08-1). -/
def sendCnp (p : Port) (i : Fin 64) (q : Qp) (s : State) : State :=
  match q.cnpAt with
  | some t => if stampAge t s < 50000 then s else go s
  | none => go s
where
  go (s : State) : State :=
    let s := modQp p i (fun q => { q with cnpAt := some (now s) }) (ethCount p 0x38 1 s)
    sendFrame p q.prio (frameBytes (isV6 q.remote) (tagged s.net.port[p]) 16) (.cnp p i) s

/-- The packet at the head of the buffer meets its QP (R347, R348, R365, R376, R377, R379); a CNP is counted and ignored
(Table 08-1). -/
def meetQp (p : Port) (k : RocePkt) (s : State) : PktFate × State :=
  match qpOf p k with
  | none => (.gone, ethCount p 0x10 1 s)
  | some i =>
    match getQp p i s with
    | none => (.gone, ethCount p 0x10 1 s)
    | some q =>
      if k.op = .cnp then (.gone, ethCount p 0x40 1 s)
      else if k.payload.length > 4096 then (.gone, ethCount p 0x10 1 s)
      else if !q.resolved then (.gone, s)
      else if q.state = .error then (.gone, sendNak p i k.psn 1 s)
      else if q.state = .draining then (.gone, if opFirst k.op then sendNak p i k.psn 1 s else s)
      else if psnBehind k.psn q.expPsn then (.gone, sendAck p i (q.expPsn - 1) s)
      else if k.psn ≠ q.expPsn then
        (.gone, if q.nakSent then s
          else ethCount p 0x48 1 (sendNak p i q.expPsn 0 (modQp p i (fun q => { q with nakSent := true }) s)))
      else
        match checkPkt q k with
        | .bad kind leaf nak => (.gone, nakError p i k.psn kind leaf nak s)
        | .noCredit first => (.gone, ethCount p 0x50 1 (sendNak p i first 3
            (modQp p i (fun q => { q with msg := none, expPsn := first }) s)))
        | .good m => if opCloses k.op then (.waits, s) else (.gone, landPkt p i q k m s)

/-- The other port. -/
def otherPort (p : Port) : Port := if p = 0 then 1 else 0

/-- The ingest pipe takes a packet of port `p`: 1 CCLK for its headers and one for each 96 bytes of payload; the other buffer
is next (R370). -/
def occupyPipe (p : Port) (n : Nat) (s : State) : State :=
  { s with net.pipe := 1 + (n + 95) / 96, net.turn := otherPort p }

/-- The packet at the head of the port's buffer can go on: it is no closing packet that waits for ING (R374). -/
def headGoes (p : Port) (s : State) : Bool :=
  match s.net.port[p].rx with
  | [] => false
  | k :: _ => portRuns p s && (meetQp p k s).1 == .gone

/-- It goes through the pipe. -/
def passHead (p : Port) (s : State) : State :=
  match s.net.port[p].rx with
  | [] => s
  | k :: rest => occupyPipe p k.payload.length (modPort p (fun e => { e with rx := rest }) (meetQp p k s).2)

/-- ING serves the two receive buffers in alternation, one packet at a time, once the pipe is free (R370). -/
def servePipe (s : State) : State :=
  if s.net.pipe ≠ 0 then s
  else if headGoes s.net.turn s then passHead s.net.turn s
  else if headGoes (otherPort s.net.turn) s then passHead (otherPort s.net.turn) s
  else s

/-- One CCLK of the ingest pipe (R370). -/
def pipeTick (s : State) : State := servePipe { s with net.pipe := s.net.pipe - 1 }

/-- Bytes standing in the port's receive buffer. -/
def rxLevel (p : Port) (s : State) : Nat := (s.net.port[p].rx.map (fun k => (rxBytes p k s).1)).sum

/-! ### ING takes a closing packet (R351, R353, R359 to R361, R40 to R42) -/

/-- A landing header: LENGTH, HOST_TAG; none where MAGIC, HCRC, SEQ or a reserved field is wrong (Table 08-3). -/
def readHeader (seq : Word) (h : List Byte) : Option (Nat × Nat) :=
  if leAt h 0 4 = 0x584C4831 ∧ leAt h 4 4 < 2 ^ 25 ∧ leAt h 0x10 4 = seq.toNat ∧ (slice h 0x14 40).all (fun b => b == 0) = true ∧
      leAt h 0x3C 4 = (crc32c (slice h 0 0x3C)).toNat then some (leAt h 4 4, leAt h 8 8)
  else none

/-- A record's footprint in bytes (R351). -/
def footBytes (len : Nat) : Nat := 64 + 64 * ((len + 63) / 64)

/-- The header line at a partition offset, if it can be read. -/
def headerAt (q : Qp) (off : Nat) (s : State) : Option (Nat × Nat) × State :=
  if off + 64 > partBytes q then (none, s)
  else
    let r := readRange (q.base * extBytes + off) 64 [] s
    match r.2.1 with
    | .ok => (readHeader q.seq r.1, r.2.2)
    | o => (none, afterRead o [] r.2.2)

/-- The record that a closing packet ends: header offset, length and tag; or the fault, kind (R354, R356, R358). -/
def closingRecord (q : Qp) (k : RocePkt) (m : InMsg) (s : State) : Except Nat (Nat × Nat × Nat) × State :=
  if m.send then
    let r := headerAt q m.start s
    match r.1 with
    | none => (.error 4, r.2)
    | some (len, tag) => if m.got = 64 + len then (.ok (m.start, len, tag), r.2) else (.error 6, r.2)
  else
    let fits := fun (h : Nat × Nat) => decide (q.fill + footBytes h.1 ≤ partBytes q)
    let r := headerAt q q.fill s
    let found : Option (Nat × Nat × Nat) × State := match r.1 with
      | some h => (if fits h then some (q.fill, h.1, h.2) else none, r.2)
      | none =>
        let r0 := headerAt q 0 r.2
        (match r0.1 with
          | some h => if fits h then none else some (0, h.1, h.2)
          | none => none, r0.2)
    match found.1 with
    | none => (.error 4, found.2)
    | some (off, len, tag) =>
      if k.imm.toNat * 64 ≠ off then (.error 5, found.2)
      else if m.start + m.got ≠ off + 64 + len then (.error 6, found.2)
      else (.ok (off, len, tag), found.2)

/-- Why the record is refused, if it is: code and detail (R40 to R42). -/
def refusedRoce (i : Strm) (len : Nat) (s : State) : Option (Nat × Nat) :=
  let m := s.ing.stream[i]
  if len = 0 ∨ len > 16777216 then some (rLength, 0x0A)
  else if m.state ≠ .isOpen ∧ m.state ≠ .detached then some (rState, 0)
  else if m.next = noRecord then some (rLimit, 0)
  else none

/-- The record joins its QP: SEQ, fill point, footprint (R353, R354, R358). -/
def closeMsg (k : RocePkt) (off len : Nat) (q : Qp) : Qp :=
  let foot := if q.form = .s then q.slot else footBytes len
  { q with
    expPsn := k.psn + 1, nakSent := false, msg := none, partialRec := false, seq := q.seq + 1, fill := off + foot
    footprints := q.footprints ++ [{ start := off, len := foot, released := false }] }

/-- The completion of a refused record goes out, or is held on a DETACHED stream. -/
def refuseRoce (i : Strm) (c : Cpl) (s : State) : State :=
  if s.ing.stream[i].state = .detached then holdCpl 262144 c i s else refuseSub i c s

/-- ING takes the closing packet `k` at the head of the port's buffer: its bytes land, the record is checked, then accepted
or refused, and the packet acknowledged. -/
def takeClosing (p : Port) (i : Fin 64) (q : Qp) (k : RocePkt) (m : InMsg) (s : State) : State :=
  let s := landBytes q m true k.payload s
  let m := tookBytes m k.payload
  let s := modQp p i (fun q => takeCredit q k m) s
  let r := closingRecord q k m s
  match r.1 with
  | .error kind => nakError p i k.psn kind 4 1 r.2
  | .ok (off, len, tag) =>
    let s := modQp p i (closeMsg k off len) r.2
    let src : RecSrc := .roce p i q.seq
    let s := match refusedRoce q.stream len s with
      | some (code, detail) => releaseFootprint p i off (refuseRoce q.stream (refusal src tag code detail) s)
      | none => acceptRec q.stream src tag len [(q.base * extBytes + off + 64, len)] none s
    sendAck p i k.psn s

/-! ### Outbound RDMA WRITE (R369, R371) -/

/-- Messages unacknowledged, device-wide. -/
def outboundCount (s : State) : Nat := outboundWrites s

/-- Bytes on the wire of a message's packets, after the first `done`, with `n` bytes of data. -/
def wireBytes (q : Qp) (tag : Bool) (packets done n : Nat) : Nat :=
  frameBytes (isV6 q.remote) tag (if done = 0 then 16 else 0) + (packets - done - 1) * frameBytes (isV6 q.remote) tag 0 + n

/-- The message is sent again from its first packet that is not acknowledged (R369). -/
def resend (p : Port) (i : Fin 64) (q : Qp) (s : State) (o : OutMsg) : State :=
  let bs := o.bytes.drop (4096 * o.acked)
  sendFrame p q.prio (wireBytes q (tagged s.net.port[p]) o.packets o.acked bs.length)
    (.rdmaWrite p i (o.addr + 4096 * o.acked) o.rkey bs) s

/-- The oldest message has a retry fewer, and every message of the queue pair is sent again in order; after the last retry the
QP fails with kind 9 (R369, Table 08-6). -/
def retryAll (p : Port) (i : Fin 64) (s : State) : State :=
  match getQp p i s with
  | none => s
  | some q =>
    match q.outstanding with
    | [] => s
    | o :: rest =>
      if o.retries = 0 then qpError p i 9 3 s
      else
        (o :: rest).foldl (resend p i q)
          (modQp p i (fun q => { q with outstanding := { o with retries := o.retries - 1 } :: rest }) s)

/-- A message goes out on the queue pair for a restore request. -/
def sendWrite (p : Port) (i : Fin 64) (ticket addr : Nat) (rkey : Word) (data : Bool) (bs : List Byte) (s : State) : State :=
  match getQp p i s with
  | none => s
  | some q =>
    let packets := max 1 ((bs.length + 4095) / 4096)
    let o : OutMsg := { psn := q.outPsn, packets := packets, ticket := ticket, addr := addr, rkey := rkey, bytes := bs,
                        data := data, acked := 0, retries := q.retry }
    let s := modQp p i (fun q => { q with outPsn := q.outPsn + BitVec.ofNat 24 packets, outstanding := q.outstanding ++ [o] }) s
    sendFrame p q.prio (wireBytes q (tagged s.net.port[p]) packets 0 bs.length) (.rdmaWrite p i addr rkey bs) s

end Sys2Proof.Machine
end

