-- ==== Sys2Proof/Machine/Restore.lean ====
section
/-!
DEFINITION. Serving restore requests: the pieces of a record, its item run in working extents, the envelope check,
delivery in the three output forms, the result entry, and how a request ends (ch16, R684 to R694, R698).
-/
namespace Sys2Proof.Machine
open Sys2Proof

/-! ### The restore index (R682 to R684, R708) -/

/-- The sessions of TRN_n's index, newest first. -/
def sessionsOf (n : Nat) (s : State) : List IdxSession := ((getN s.rst.trn n {}).index.map (·.sessions)).getD []

/-- A session lists the record. -/
def lists (stream number : Nat) (x : IdxSession) : Bool :=
  x.pieces.any (fun p => p.stream == stream && p.record == number)

/-- The session of TRN_n's index that a request's session number means: 0xFFFF_FFFF the newest one that lists the record
(ch16, Serving a request). -/
def sessionFor (n stream number session : Nat) (s : State) : Option IdxSession :=
  (sessionsOf n s).find? (fun x => lists stream number x && (session == 0xFFFFFFFF || x.no == session))

/-- The transports of a mask. -/
def maskTrn (m : Nat) : List Nat := (List.range 8).filter (fun n => m / 2 ^ n % 2 == 1)

/-- Piece entries of the record in the indexes of the transports, with the transport of each (R684). -/
def piecesFor (ns : List Nat) (stream number session : Nat) (s : State) : List (Nat × Piece) :=
  ns.flatMap (fun n => match sessionFor n stream number session s with
    | some x => (x.pieces.filter (fun p => p.stream == stream && p.record == number)).map (fun p => (n, p))
    | none => [])

/-- The pieces in order of BYTES_BEFORE from byte `pos` of the run on, as far as each begins where the one before it
ends (R684 step 3). -/
def gather (ps : List (Nat × Piece)) : Nat → Nat → List (Nat × Piece)
  | 0, _ => []
  | fuel + 1, pos =>
    match ps.find? (fun p => p.2.bytesBefore == pos && decide (0 < p.2.length)) with
    | none => []
    | some p => if p.2.last then [p] else p :: gather ps fuel (pos + p.2.length)

/-- The pieces reach the end of the run. -/
def reachesEnd (ps : List (Nat × Piece)) : Bool := match ps.getLast? with
  | some p => p.2.last
  | none => false

/-- A cartridge of the record's stream-set table that no named transport holds (R684 step 4). -/
def missingCart (ns : List Nat) (stream number session : Nat) (s : State) : Option Nat :=
  let held := ns.map (fun n => (getN s.trn n {}).cartId.toNat)
  let carts := ns.flatMap (fun n => match sessionFor n stream number session s with
    | some x => (x.sets.filter (fun e => e.1 == stream)).flatMap (·.2)
    | none => [])
  carts.find? (fun c => !held.contains c)

/-- Entry `k` of TRN_n's index stands in these bytes of its extents. -/
def entryRange (n : Trn) (k : Nat) (s : State) : List (Nat × Nat) :=
  subRanges (rangesOver s.rst.trn[n].extents (s.rst.trn[n].extents.length * extBytes)) (48 * k) 48

/-- Bytes of `len` entries laid over `es`. -/
def writeEntries (es : List Nat) (ps : List Piece) (s : State) : State :=
  writeRanges (rangesOver es (48 * ps.length)) (ps.flatMap pieceBytes) s

/-- The index's extents grow to hold its entries, those below the high bound only (R399, R683). None where an extent is
waited for. -/
def fitIndex (n : Trn) (s : State) : Option State :=
  let ps := (sessionsOf n.val s).flatMap (·.pieces)
  let need := (48 * ps.length + extBytes - 1) / extBytes
  let has := s.rst.trn[n].extents
  if need ≤ has.length then
    some (writeEntries (has.take need) ps (freeExtents (has.drop need)
      (modRst n (fun r => { r with extents := has.take need }) s)))
  else
    (takeMany .restore (need - has.length) s).map (fun x =>
      writeEntries (has ++ x.1) ps (modRst n (fun r => { r with extents := has ++ x.1 }) x.2))

/-- The record's entries are read from TRN_n's index; a bad line there discards the index (R708). -/
def readEntries (n : Trn) (stream number : Nat) (s : State) : LineOutcome × State :=
  let ps := (sessionsOf n.val s).flatMap (·.pieces)
  let ks := (ps.zipIdx.filter (fun p => p.1.stream == stream && p.1.record == number)).map (·.2)
  let x := readRanges (ks.flatMap (fun k => entryRange n k s)) s
  match x.2.1 with
  | .ok => (.ok, x.2.2)
  | o =>
    let s := afterRead o [] x.2.2
    (o, freeExtents s.rst.trn[n].extents (modRst n (fun r => { r with index := none, extents := [] }) s))

/-! ### The item run in working extents (R698, R708) -/

/-- Staging ranges that hold the item run of a request. -/
def runRanges (q : Request) : List (Nat × Nat) := rangesOver q.exts q.got

/-- Working extents of TRN_n: item runs, samples and decoded data areas (R698). -/
def workingExts (n : Trn) (s : State) : Nat :=
  ((s.rst.reqs.filter (fun q => q.trn == n)).map (fun q => q.exts.length)).sum + s.rst.trn[n].cacheExts.length +
    s.rst.trn[n].sampleExts.length

/-- `k` more working extents for TRN_n; none where it must wait for them (R399, R698). -/
def takeWorking (n : Trn) (k : Nat) (s : State) : Option (List Nat × State) :=
  if k > 0 ∧ workingExts n s + k > 512 then none else takeMany .restore k s

/-- Bytes join the item run; none while an extent is waited for (R399, R698). -/
def appendRun (q : Request) (bs : List Byte) (s : State) : Option State :=
  let need := (q.got + bs.length + extBytes - 1) / extBytes - q.exts.length
  (takeWorking q.trn need s).map (fun x =>
    let es := q.exts ++ x.1
    let s := writeRanges (subRanges (rangesOver es (es.length * extBytes)) q.got bs.length) bs x.2
    modReq q.ticket (fun q => { q with exts := es, got := q.got + bs.length }) s)

/-- `len` bytes of the item run from `off`; a bad line ends the request with E_FAULT and PARTIAL (R708). -/
def readRun (q : Request) (off len : Nat) (s : State) : Option (List Byte) × State :=
  let x := readRanges (subRanges (runRanges q) off len) s
  match x.2.1 with
  | .ok => (some x.1, x.2.2)
  | .control => (none, afterRead .control [] x.2.2)
  | .bad => (none, abortReq rFault none ((findReq q.ticket s).getD q) (afterRead .bad [] x.2.2))

/-- The bytes of the item run as stored, without their line code: what the pipeline looks at to find the next block. -/
def peekRun (q : Request) (off len : Nat) (s : State) : List Byte :=
  (subRanges (runRanges q) off len).flatMap (fun r => (List.range r.2).map (fun i => spGet 0 s.stg.mem (r.1 + i)))

/-! ### The next block (R480, R486, Table 11-1) -/

/-- The key of a data-key slot. -/
def slotKey (k : Nat) (s : State) : BitVec 256 := (getN s.cip.slot k {}).key

/-- Bytes of the run's length that the envelope gives. -/
def runTotal (e : Envelope) : Nat := 64 + e.storedLen

/-- Stored bytes of the block that begins at `pos` of the run: STORED_LEN of its decrypted header, plus 32. Where that
cannot be (a wrong key, a damaged header), the rest of the run, since no other length is known. -/
def blockLen (q : Request) (e : Envelope) (key : BitVec 256) (pos : Nat) (s : State) : Nat :=
  let head := peekRun q pos 32 s
  let plain := (gcmDec key (slice head 4 12) [] (slice head 16 16) (List.replicate 16 0)).1
  let len := leAt plain 8 4
  let rest := runTotal e - pos
  if leAt plain 0 2 = 0xC0B1 ∧ 40 ≤ len ∧ len % 8 = 0 ∧ len ≤ 262184 ∧ len + 32 ≤ rest then len + 32 else rest

/-- Whole blocks that stand in the run from `pos` on, at most `fuel`. -/
def wholeBlocks (q : Request) (e : Envelope) (key : BitVec 256) (s : State) : Nat → Nat → Nat
  | 0, _ => 0
  | fuel + 1, pos =>
    if pos + 32 > q.got then 0
    else
      let n := blockLen q e key pos s
      if n < 32 ∨ pos + n > q.got then 0 else 1 + wholeBlocks q e key s fuel (pos + n)

/-! ### Delivery (R686, R687, R689, Table 16-2) -/

/-- The length that the request delivers (R712). -/
def outLength (q : Request) (e : Envelope) : Nat := if q.rawItem then runTotal e else e.origLen

/-- An outbound message may be sent (R371). -/
def mayWrite (q : Request) (s : State) : Bool :=
  decide (outboundCount s < 256) && (match getQp q.port q.qp s with
    | some p => p.state == .rts && p.resolved
    | none => false)

/-- The output can take bytes now. -/
def outReady (q : Request) (s : State) : Bool :=
  match q.output with
  | 0 => pcieIssues s
  | 1 => mayWrite q s
  | _ => true

/-- Bytes of the messages of RDMA output. -/
def messageBytes : Nat := 16777216

/-- A data message of the request goes out. -/
def sendData (q : Request) (bs : List Byte) (s : State) : State :=
  let s := sendWrite q.port q.qp q.ticket (q.dest + q.sent) q.rkey true bs s
  modReq q.ticket (fun q => { q with sent := q.sent + bs.length, unacked := q.unacked + 1 }) s

/-- Output bytes are written at the next ascending offset. -/
def putOut (t : Nat) (bs : List Byte) (s : State) : State :=
  match findReq t s with
  | none => s
  | some q =>
    let s := modReq t (fun q => { q with delivered := q.delivered + bs.length }) (count 0x8B38 bs.length s)
    match q.output with
    | 0 => if bs.isEmpty then s else count 0x8208 bs.length (emit (.hostWrite (q.dest + q.delivered) bs s.pcie.roEn false) s)
    | 1 =>
      let all := q.msg ++ bs
      if all.length ≥ messageBytes then
        modReq t (fun q => { q with msg := all.drop messageBytes }) (sendData q (all.take messageBytes) s)
      else modReq t (fun q => { q with msg := all }) s
    | _ => writeOwn ((q.lent.map (fun l => l.1 * extBytes)).getD 0 + q.delivered) bs s

/-- Decoded bytes are swapped in whole units and written (R686). -/
def deliver (t : Nat) (bs : List Byte) (s : State) : State :=
  match findReq t s with
  | none => s
  | some q =>
    let all := q.carry ++ bs
    let n := all.length / swapUnit q.swap * swapUnit q.swap
    putOut t (swapBytes q.swap (all.take n)) (modReq t (fun q => { q with carry := all.drop n }) s)

/-! ### How a request ends (R685, R689, R690, R694, R712) -/

/-- The request is to end with `code`: PARTIAL when bytes are missing. -/
def endReq (t code : Nat) (s : State) : State :=
  modReq t (fun q =>
    let whole := match q.env with
      | some e => decide (q.delivered = outLength q e)
      | none => false
    { q with
      code := some code, todo := []
      verdict := if whole then q.verdict else q.verdict ||| 8
      delivered := if code = rMedia ∧ q.rawItem = false then min q.good q.delivered else q.delivered }) s

/-- Blocks of the request that units and engines hold. -/
def inWork (t : Nat) (s : State) : Bool :=
  s.cip.unit.any (fun u => u.job == some (.decrypt t)) || s.cmp.engine.any (fun e => e.job == some (.decode t))

/-- The key that its slot holds. -/
def reqKey (q : Request) (s : State) : BitVec 256 := slotKey (q.slot.getD 16) s

/-- The code of a request that has nothing more to do. -/
def finished (q : Request) (s : State) : Option Nat :=
  match q.env with
  | none => if q.broken then some rMedia else none
  | some e =>
    if q.rawItem then
      if q.delivered = runTotal e then some rOk
      else if q.broken ∧ q.pos = q.got then some rMedia else none
    else if inWork q.ticket s ∨ q.plain ≠ [] then none
    else if q.decoded = e.blocks then
      some (if q.verdict.getLsbD 1 then rAuth else if q.verdict.getLsbD 2 then rFault else rOk)
    else if q.broken ∧ (q.slot = none → q.got < 96) ∧
        (q.slot.isSome → wholeBlocks q e (reqKey q s) s 1 q.pos = 0) then some rMedia
    else none

/-- The result entry (Table 16-3). -/
def resultEntry (q : Request) (code : Nat) : List Byte :=
  leBytes 8 (q.number + 2 ^ 48 * q.stream) ++ leBytes 8 ((q.env.map (·.hostTag)).getD 0) ++ leBytes 2 code ++
    leBytes 1 q.verdict.toNat ++ leBytes 1 q.ticket ++ leBytes 4 q.delivered ++
    leBytes 4 (q.ladder % 256 + 256 * (q.sets % 65536)) ++ leBytes 4 0x80000000

/-- What is left to send goes out: the last data message, then the result entry (Table 16-2, R689). -/
def tell (t : Nat) (s : State) : State :=
  match findReq t s with
  | none => s
  | some q =>
    match q.code with
    | none => s
    | some code =>
      let done (s : State) : State := modReq t (fun q => { q with told := true }) s
      if q.told then s
      else
        match q.output with
        | 0 =>
          if !q.notify then done s
          else if pcieIssues s then
            done (count 0x8208 32 (emit (.hostWrite q.resAddr (resultEntry q code) false false) s))
          else s
        | 1 =>
          if q.msg ≠ [] ∧ mayWrite q s = false then s
          else
            let s := if q.msg = [] then s
              else modReq t (fun q => { q with msg := [] }) (sendData q q.msg s)
            if !q.notify then done s
            else if mayWrite q s then
              done (modReq t (fun q => { q with unacked := q.unacked + 1 })
                (sendWrite q.port q.qp t q.resAddr q.rkey false (resultEntry q code) s))
            else s
        | _ => done s

/-- The request ends as far as it can. -/
def settleReq (t : Nat) (s : State) : State :=
  match findReq t s with
  | none => s
  | some q =>
    let s := match q.code, finished q s with
      | none, some c => endReq t c s
      | _, _ => s
    tell t s

/-- An item run delivered as it stands (R687). -/
def pumpRaw (t : Nat) (s : State) : State :=
  match findReq t s with
  | none => s
  | some q =>
    if !q.rawItem || q.env.isNone || q.code.isSome || q.pos ≥ q.got || !outReady q s then s
    else
      match readRun q q.pos (min (q.got - q.pos) messageBytes) s with
      | (none, s) => s
      | (some bs, s) => putOut t bs (modReq t (fun q => { q with pos := q.pos + bs.length }) s)

/-- The output's space is settled once the envelope is read: lengths, swap units, and the extents of staging output
(R688, R712). -/
def openOutput (q : Request) (e : Envelope) (s : State) : State :=
  let s := modReq q.ticket (fun q => { q with env := some e, pos := if q.rawItem then 0 else 64 }) s
  let len := outLength q e
  if q.output ≠ 2 ∧ len > q.bufLen then endReq q.ticket rLength s
  else if len % swapUnit q.swap ≠ 0 then endReq q.ticket rParam s
  else if q.output ≠ 2 then s
  else
    let k := (len + extBytes - 1) / extBytes
    match takeRun .restore k s with
    | none => endReq q.ticket rNores s
    | some (e, s) =>
      modReq q.ticket (fun q => { q with lent := some (e, k) })
        { s with rst.lent := s.rst.lent ++ [(e, k, some q.ticket)]
                 stg.lent := s.stg.lent ++ (List.range k).map (fun i => e + i) }

/-- The envelope is checked once its bytes are read (R685). -/
def checkEnv (t : Nat) (s : State) : State :=
  match findReq t s with
  | none => s
  | some q =>
    if q.env.isSome || q.code.isSome || decide (q.got < 64) then s
    else
      match readRun q 0 64 s with
      | (none, s) => s
      | (some bs, s) =>
        match readEnvelope bs with
        | none => endReq t rMedia s
        | some e =>
          if e.stream ≠ q.stream ∨ e.record ≠ q.number ∨ e.hostTag ≠ q.hostTag then endReq t rMedia s
          else openOutput q e s

/-! ### Decoded data sets (R698, R699) -/

/-- Bytes of the decoded data area in place `slot` of TRN_n's cache. -/
def cacheRanges (n : Trn) (slot off len : Nat) (s : State) : List (Nat × Nat) :=
  let es := s.rst.trn[n].cacheExts
  subRanges (rangesOver es (es.length * extBytes)) (slot * dataAreaBytes + off) len

/-- A decoded data set is kept, in place of the oldest of 16; none where an extent is waited for. -/
def storeSet (n : Trn) (d : Dsi) (area : List Byte) (r : Ruling) (s : State) : Option State :=
  let kept := s.rst.trn[n].cache.take 15
  let slot := ((List.range 16).find? (fun k => kept.all (fun c => decide (c.slot ≠ k)))).getD 0
  let need := ((slot + 1) * dataAreaBytes + extBytes - 1) / extBytes - s.rst.trn[n].cacheExts.length
  (takeWorking n need s).map (fun x =>
    let s := modRst n (fun t => { t with
      cacheExts := t.cacheExts ++ x.1
      cache := { dsi := d, slot := slot, gaps := r.gaps, step := r.step, bits := r.bits } :: kept }) x.2
    writeRanges (cacheRanges n slot 0 area.length s) area s)

/-! ### What a data set brings to a request (R685, R691, R694, R699) -/

/-- The data set holds bytes of the piece; `mid` says that the piece goes on in the first such data set at or behind its
place, not at it. -/
def pieceIn (mid : Bool) (d : Dsi) (p : Piece) : Bool :=
  d.kind == 1 && d.stream == p.stream &&
    decide (p.streamSeq ≤ d.streamSeq ∧ d.streamSeq < p.streamSeq + pieceSets p ∧ p.dsn ≤ d.dsn) &&
    (mid || decide (p.streamSeq < d.streamSeq) || d.dsn == p.dsn)

/-- Bytes that a piece has in a data set: offset and length. -/
def pieceBytesIn (d : Dsi) (p : Piece) : Nat × Nat :=
  let j := d.streamSeq - p.streamSeq
  if j = 0 then (p.offset, min p.length (dataAreaBytes - p.offset))
  else (0, min dataAreaBytes (p.offset + p.length - j * dataAreaBytes))

/-- What a request still needs of a data set of TRN_n. -/
def wantedBytes (n : Trn) (d : Dsi) (q : Request) : Option (Nat × Nat) :=
  if !reads n q || q.broken then none
  else (q.todo.zipIdx.find? (fun p => decide (p.1.1 = n.val) && pieceIn (q.mid && p.2 == 0) d p.1.2)).map
    (fun p => pieceBytesIn d p.1.2)

/-- Where the head piece goes on after `k` of its bytes were read in data set `d`. -/
def restOf (d : Dsi) (p : Piece) (k : Nat) : Piece :=
  let um : Int := if wrapRev d.wrap then -28710 else 28710
  { p with
    length := p.length - k, bytesBefore := p.bytesBefore + k, offset := 0, streamSeq := p.streamSeq + 1, dsn := d.dsn + 1
    wrap := d.wrap, lpos := (Config.lposAt (BitVec.ofNat 32 d.lpos) um).toNat }

/-- The head piece of the request takes its bytes from a decoded data set, up to the first unknown one; a bad line among
them ends it with E_FAULT and PARTIAL (R694, R708). -/
def feedReq (n : Trn) (c : CachedSet) (p : Piece) (rest : List (Nat × Piece)) (q : Request) (s : State) : State :=
  let w := pieceBytesIn c.dsi p
  let k := knownRun c.gaps w.1 w.2
  let x := readRanges (cacheRanges n c.slot w.1 k s) s
  match x.2.1 with
  | .ok =>
    match appendRun q x.1 x.2.2 with
    | none => x.2.2
    | some s =>
      let todo := if k < w.2 then [] else if k = p.length then rest else (n.val, restOf c.dsi p k) :: rest
      let s := modReq q.ticket (fun q => { q with
        todo := todo, mid := decide (k = w.2 ∧ k < p.length), sets := q.sets + 1, ladder := max q.ladder c.step
        verdict := q.verdict ||| c.bits, broken := q.broken || decide (k < w.2) || (todo.isEmpty && q.cut) }) s
      settleReq q.ticket (pumpRaw q.ticket (checkEnv q.ticket s))
  | o => abortReq rFault none q (afterRead o [] x.2.2)

/-- A rebuild runs on TRN_n. -/
def rebuilding (n : Trn) (s : State) : Bool := match s.rst.trn[n].scan with
  | some x => match x.purpose with
    | .rebuild _ => true
    | _ => false
  | none => false

/-- A request takes what the decoded data sets of its transport hold of it, piece after piece; while a rebuild runs there it
waits (R699, R700). -/
def feedCached (t : Nat) : Nat → State → State
  | 0, s => s
  | fuel + 1, s =>
    match findReq t s with
    | none => s
    | some q =>
      match q.todo with
      | [] => s
      | (k, p) :: rest =>
        let n : Trn := Fin.ofNat 8 k
        match s.rst.trn[n].cache.find? (fun c => !q.broken && q.code.isNone && c.dsi.streamSeq == p.streamSeq &&
            !rebuilding n s && pieceIn q.mid c.dsi p) with
        | none => s
        | some c =>
          let u := feedReq n c p rest q s
          if (findReq t u).map (·.got) = some q.got then u else feedCached t fuel u

/-- Every request of TRN_n takes what it can. -/
def feedAll (n : Trn) (s : State) : State :=
  ((s.rst.reqs.filter (reads n)).map (·.ticket)).foldl (fun s t => feedCached t 17 s) s

end Sys2Proof.Machine
end

