-- ==== Sys2Proof/Machine/FamCip.lean ====
section
/-!
DEFINITION. The cipher: key binding, dispatch, encryption in place, re-encryption, decryption's dispatch, the mask
generators, the entropy source; and the KEY family (ch11).
-/
namespace Sys2Proof.Machine
open Sys2Proof

/-! ### Binding a key (R488, R489) -/

/-- CIP runs; KEY runs. -/
def cipOn (s : State) : Bool := s.cip.enabled && domOn 6 s && !haltedSrc 8 s
def keyOn (s : State) : Bool := domOn 6 s && !haltedSrc 9 s

/-- VALID slots that carry a key ID. -/
def slotsOf (id : Nat) (s : State) : List Nat :=
  (List.range 16).filter (fun k => let x := getN s.cip.slot k {}
    x.state == .valid && x.keyId.toNat == id)

/-- The slot a key ID resolves to, or the code of the failure (R489). -/
def resolveKey (id : Nat) (s : State) : Except Nat Nat :=
  match slotsOf id s with
  | [k] => .ok k
  | [] => .error rKeyAbsent
  | _ => .error rKeyAmbig

/-- The record fails in CIP, with its leaf (R510). -/
def failInCip (r leaf code : Nat) (s : State) : State := raise1 8 (leafCode 0 leaf) 0 [r] (failRecs [r] code false s)

/-- The leaf of a binding failure. -/
def bindLeaf (code : Nat) : Nat := if code = rKeyAmbig then 1 else 2

/-- The slot still holds the key that it was bound with. -/
def slotLive (k : Nat) (s : State) : Bool :=
  let x := getN s.cip.slot k {}
  x.state == .valid || x.state == .clearing

/-! ### Dispatch (R482, R489, R499) -/

/-- The unit is in service and free. -/
def unitFree (u : Fin 8) (s : State) : Bool := s.cip.unit[u].job.isNone && !s.cip.unit[u].off && !katOn (16 + u.val) s

def giveUnit (u : Fin 8) (j : CipJob) (s : State) : State :=
  { s with cip.unit := upd s.cip.unit u (fun x => { x with job := some j }) }

def freeUnit (u : Fin 8) (s : State) : State := { s with cip.unit := upd s.cip.unit u (fun x => { x with job := none }) }

/-- Units that decrypt the blocks of a request. -/
def decrypting (t : Nat) (s : State) : Nat := (s.cip.unit.toList.filter (fun u => u.job == some (.decrypt t))).length

/-- A request whose next block CIP can look at: unbound with its first header read, or bound with a whole block that no
unit holds. -/
def wantsUnit (q : Request) (s : State) : Bool :=
  match q.env with
  | none => false
  | some e =>
    q.code.isNone && !q.rawItem && (match q.slot with
      | none => decide (q.pos + 32 ≤ q.got) && keyOn s
      | some _ => decide (decrypting q.ticket s < wholeBlocks q e (reqKey q s) s 3 q.pos))

/-- The request binds its slot; a failure delivers no byte (R489). -/
def bindReq (q : Request) (s : State) : State :=
  match resolveKey ((q.env.map (·.keyId)).getD 0) s with
  | .ok k => modReq q.ticket (fun q => { q with slot := some k }) s
  | .error c => settleReq q.ticket (endReq q.ticket c s)

/-- A block of the request goes to the unit, the slot bound first; with at most 2 units decrypting (R499). -/
def dispatchRestore (u : Fin 8) (q : Request) (s : State) : State :=
  let s := if q.slot.isNone then bindReq q s else s
  match findReq q.ticket s with
  | none => s
  | some q => if q.slot.isSome && wantsUnit q s then giveUnit u (.decrypt q.ticket) s else settleReq q.ticket s

/-- The request whose block goes next. -/
def nextRestore (s : State) : Option Request :=
  let busy := (s.cip.unit.toList.filter (fun x => match x.job with
    | some (.decrypt _) => true
    | _ => false)).length
  if busy ≥ 2 then none else s.rst.reqs.find? (fun q => wantsUnit q s)

/-- The stream's context gives the block its IV, and COUNT goes on (R477, R482). -/
def assignIv (u : Fin 8) (i : Strm) (r k : Nat) (c : CipherCtx) (s : State) : State :=
  let iv := ivBytes u.val c.session.toNat c.count.toNat
  modBlk r k (fun b => { b with iv := iv })
    { s with cip.ctx := upd s.cip.ctx i (fun _ => some { c with count := c.count + 1, blocks := c.blocks + 1 }) }

/-- The record's slot: the one it is bound to, or, at its first block, the one its key ID resolves to (R489). A slot that
no longer holds the key is none. -/
def recSlot (v : Rec) (c : CipherCtx) (s : State) : Except Nat Nat :=
  match v.slot with
  | some k => if slotLive k s then .ok k else .error rKeyAbsent
  | none => resolveKey c.keyId.toNat s

/-- Block `k` of record `r` goes to unit `u` as `job`, unless its key or its COUNT fails the record (R482, R489, R510). -/
def dispatchBlock (u : Fin 8) (r k : Nat) (v : Rec) (job : CipJob) (st : BlkState) (s : State) : State :=
  match s.cip.ctx[v.stream] with
  | none => s
  | some c =>
    match recSlot v c s with
    | .error code => failInCip r (bindLeaf code) code s
    | .ok slot =>
      if c.count = BitVec.allOnes 64 then failInCip r 3 rNonce s
      else
        let s := modRec r (fun v => { v with slot := some slot }) s
        giveUnit u job (modBlk r k (fun b => { b with st := st }) (assignIv u v.stream r k c s))

/-- Blocks that wait to be encrypted again and are in no unit (R485). -/
def againWaiting (s : State) : Option (Nat × Nat × Rec) :=
  s.cip.again.findSome? (fun a =>
    if s.cip.unit.any (fun u => u.job == some (.again a.1 a.2)) then none
    else (getRec a.1 s).map (fun v => (a.1, a.2, v)))

/-- The stream's next block for CIP: records and blocks in order, once CIP holds the record (R22, R45, R499). -/
def nextToEncrypt (i : Strm) (s : State) : Option (Nat × Nat × Rec) :=
  match s.ing.stream[i].order.findSome? (fun r => match getRec r s with
    | some v =>
      if v.verdict.isNone then
        (v.blocks.zipIdx.find? (fun b => uncoded b.1 || b.1.st == .coded || b.1.st == .packed)).map (fun b => (r, b, v))
      else none
    | none => none) with
  | some (r, b, v) => if b.1.st = .packed ∧ v.holder = .cip ∧ (v.slot.isSome ∨ keyOn s = true) then some (r, b.2, v) else none
  | none => none

/-- CIP_DISPATCH (R482, R485, R489, R499). -/
def execCipDispatch (s : State) : Host.Outcome State Fault Refusal :=
  done (fun s =>
    if !cipOn s then s
    else
      match (List.finRange 8).find? (fun u => unitFree u s) with
      | none => s
      | some u =>
        match nextRestore s with
        | some q => dispatchRestore u q s
        | none =>
          match againWaiting s with
          | some (r, k, v) => dispatchBlock u r k v (.again r k) .encrypted s
          | none =>
            match (roundFrom s.cip.turn).findSome? (fun i => (nextToEncrypt i s).map (fun x => (i, x))) with
            | none => s
            | some (i, r, k, v) =>
              dispatchBlock u r k v (.encrypt r k) .inUnit { s with cip.turn := i.val }) s

/-! ### Encryption (R474, R476 to R479, R485, R511) -/

/-- AES blocks that a unit spends on `len` bytes: the hash key, the tag's mask and one for each 16 bytes (R478). -/
def aesBlocks (len : Nat) : Nat := 2 + (len + 15) / 16

/-- The unit's mask generator lets `n` more AES blocks pass before its next seed: 65,536 blocks and 1 ms at most from the
last one (R474). -/
def masksLast (u : Fin 8) (n : Nat) (s : State) : Bool :=
  decide (s.cip.unit[u].aes + n ≤ 65536 ∧ stampAge s.cip.unit[u].seedAt s ≤ 1000000)

def spendMasks (u : Fin 8) (n : Nat) (s : State) : State :=
  { s with cip.unit := upd s.cip.unit u (fun x => { x with aes := x.aes + n }) }

/-- The record, while it is not failed. -/
def liveRec (r : Nat) (s : State) : Option Rec := (getRec r s).filter (fun v => v.verdict.isNone)

/-- A block of the record is encrypted, and FMT holds the record once all are (Table 01-2). -/
def blockEncrypted (r k : Nat) (s : State) : State :=
  let s := modBlk r k (fun b => { b with st := .encrypted }) s
  modRec r (fun v => if v.blocks.all (fun b => b.st == .encrypted) then { v with holder := .fmt } else v) s

/-- BLOCK_ENCRYPTED (R478, R479). -/
def execBlockEncrypted (u : Fin 8) (s : State) : Host.Outcome State Fault Refusal :=
  done (fun s =>
    if !cipOn s then s
    else
      match s.cip.unit[u].job with
      | some (.encrypt r k) =>
        match liveRec r s with
        | none => freeUnit u s
        | some v =>
          let b := v.blocks.getD k {}
          if !masksLast u (aesBlocks b.len) s then s
          else
            let s := freeUnit u (spendMasks u (aesBlocks b.len) s)
            let slot := v.slot.getD 16
            if !slotLive slot s then failInCip r 2 rKeyAbsent s
            else
              match readHeld r (subRanges b.segs 16 b.len) s with
              | (none, s) => s
              | (some p, s) =>
                blockEncrypted r k (count 0x8600 1
                  (writeRanges b.segs (encryptedBlock (slotKey slot s) (envelopeOf v s) k b.iv p) s))
      | _ => s) s

/-- A block is opened and encrypted again under its new IV; a tag that fails fails the record (R485, R511). -/
def encryptAgain (r k : Nat) (v : Rec) (s : State) : State :=
  let b := v.blocks.getD k {}
  let s := { s with cip.again := s.cip.again.filter (fun a => decide (a ≠ (r, k))) }
  let slot := v.slot.getD 16
  if !slotLive slot s then failInCip r 2 rKeyAbsent s
  else
    match readHeld r b.segs s with
    | (none, s) => s
    | (some old, s) =>
      let e := envelopeOf v s
      let p := openBlock (slotKey slot s) e old
      let s := count 0x8608 1 s
      if !p.2 then failRecs [r] rFault false (count 0x8610 1 s)
      else count 0x8600 1 (count 0x8618 1 (writeRanges b.segs (encryptedBlock (slotKey slot s) e k b.iv p.1) s))

/-- REENCRYPT_BLOCK: the lowest unit that encrypts a block again finishes it (R485). -/
def execReencryptBlock (s : State) : Host.Outcome State Fault Refusal :=
  done (fun s =>
    if !cipOn s then s
    else
      match (List.finRange 8).findSome? (fun u => match s.cip.unit[u].job with
        | some (.again r k) => some (u, r, k)
        | _ => none) with
      | none => s
      | some (u, r, k) =>
        match liveRec r s with
        | none => freeUnit u s
        | some v =>
          let n := 2 * aesBlocks (v.blocks.getD k {}).len
          if masksLast u n s then encryptAgain r k v (freeUnit u (spendMasks u n s)) else s) s

/-- MASK_RESEED (R474). -/
def execMaskReseed (u : Fin 8) (s : State) : Host.Outcome State Fault Refusal :=
  done (fun s =>
    if domOn 6 s && s.cip.entropyOk && !haltedSrc 8 s then
      { s with cip.unit := upd s.cip.unit u (fun x => { x with aes := 0, seedAt := now s }) }
    else s) s

/-- ENTROPY_FAIL: level 2, and the source delivers nothing any more (R498); an armed injector has fired (Table 19-6). -/
def execEntropyFail (s : State) : Host.Outcome State Fault Refusal :=
  done (fun s =>
    if keyOn s && s.cip.entropyOk then
      let s := (takeInjector 9 (fun _ => true) s).2
      raise2 9 (leafCode 0 5) 9 0 (count 0x8628 1 { s with cip.entropyOk := false })
    else s) s

/-- CORE_FAULT (R509). -/
def execCoreFault (u : Fin 8) (s : State) : Host.Outcome State Fault Refusal :=
  done (fun s => if cipOn s && !s.cip.unit[u].off then raise2 8 (leafCode 0 4) 8 0 s else s) s

/-! ### The KEY family (R501 to R504, R515 to R520) -/

/-- PD_CIP is off, or the part is RETIRED (R515). -/
def keyState (_ : Msg) (s : State) : Bool := !domOn 6 s || decide (lifeCode s = 4)

/-- KEY or CIP is halted (R515). -/
def keyHalted (s : State) : Bool := haltedSrc 8 s || haltedSrc 9 s

/-- Bytes of the parameters from P_i on, byte 0 in the low bits of P_i. -/
def paramBytes (m : Msg) (i n : Nat) : List Byte := ((List.range ((n + 3) / 4)).flatMap (fun j => leBytes 4 (m.p (i + j)).toNat)).take n

/-- The slot that results from a load: VALID when the blob unwraps and its fields are right, else INVALID (R487). -/
def loadedSlot (kek : BitVec 256) (k : Nat) (blob : List Byte) : KeySlot :=
  match kwUnwrap kek blob with
  | none => { state := .invalid }
  | some p =>
    let id := leAt p 0 4
    if leAt p 4 4 ≠ 0 ∨ id = 0 ∨ id = 0xFFFFFFFF then { state := .invalid }
    else { state := .valid, keyId := BitVec.ofNat 32 id, key := BitVec.ofNat 256 (beNat (slice p 8 32)), kek := k }

def keyLoad : Cmd := {
  opcode := 0x0501, lens := fun _ => [13], bits := fun _ => [0x70F]
  state := fun m s => keyState m s || (getN s.cip.slot (m.f 1 0 4) {}).state != .empty || (kekOf (m.f 1 8 3) s).isNone
  own := fun _ s => if keyHalted s then rFault else 0
  act := fun m s =>
    let i := m.f 1 0 4
    let x := loadedSlot ((kekOf (m.f 1 8 3) s).getD 0) (m.f 1 8 3) (paramBytes m 2 48)
    let clash := !(slotsOf x.keyId.toNat s).isEmpty
    let s := ring 15 { s with cip.slot := updN s.cip.slot i (fun _ => x) }
    if x.state = .valid then
      let c := keyCheck x.key
      (rOk, [x.keyId, pack [(0, b2n clash)], wordAt c 0, wordAt c 4], s)
    else (rAuth, [], setLeaf 9 0 (count 0x8620 1 s)) }

/-- KEY.LOAD (R487, R501, R516). -/
def execKeyLoad (ch : Chan) (s : State) : Host.Outcome State Fault Refusal := done (runCommand keyLoad ch) s

/-- Every slot of the bitmap is EMPTY. -/
def allEmpty (w : BitVec 16) (s : State) : Bool :=
  (List.range 16).all (fun k => !w.getLsbD k || (getN s.cip.slot k {}).state == .empty)

/-- KEY.CLEAR commands whose slots are all EMPTY complete (R502, R517). -/
def finishClears (s : State) : State :=
  (List.range 64).foldl (fun s t => match s.mbx.ticket[t]? with
    | some k => match k.work with
      | some (.keyClear w n) => if allEmpty w s then ring 15 (completeTicket t rOk [BitVec.ofNat 32 n] s) else s
      | _ => s
    | none => s) s

/-- The slots named go to CLEARING (R502). -/
def clearSlots (m : Msg) (t : Nat) (s : State) : State :=
  let w : BitVec 16 := BitVec.ofNat 16 (m.f 1 0 16)
  let n := ((List.range 16).map (fun k => if w.getLsbD k then recsBound k s else 0)).sum
  let s := modTicket t (fun x => { x with work := some (.keyClear w n) }) s
  finishClears { s with cip.slot := Vector.ofFn (fun k =>
    if w.getLsbD k.val && s.cip.slot[k].state != .empty then { s.cip.slot[k] with state := .clearing } else s.cip.slot[k]) }

def keyClear : Cmd := {
  opcode := 0x0502, safe := true, lens := fun _ => [1], bits := fun _ => [0xFFFF]
  param := fun m _ => m.p 1 == 0
  state := keyState
  own := fun _ s => if keyHalted s then rFault else 0
  long := fun m => some (.keyClear (BitVec.ofNat 16 (m.f 1 0 16)) 0)
  start := clearSlots }

/-- KEY.CLEAR (R502, R517). -/
def execKeyClear (ch : Chan) (s : State) : Host.Outcome State Fault Refusal := done (runCommand keyClear ch) s

/-- KEY_SLOT_EMPTIED: the records bound to a CLEARING slot are through; its key is overwritten (R502). A record that FMT
has not taken in full and that must be encrypted again resolves its key anew. -/
def execKeySlotEmptied (slot : Fin 16) (s : State) : Host.Outcome State Fault Refusal :=
  done (fun s =>
    if s.cip.slot[slot].state ≠ .clearing ∨ 0 < recsBound slot.val s ∨ domOn 6 s = false then s
    else
      let s := (recsWhere (fun v => v.slot == some slot.val) s).foldl (fun s r => modRec r (fun v => { v with slot := none }) s) s
      finishClears { s with cip.slot := upd s.cip.slot slot (fun _ => {}) }) s

/-- A bitmap over the 16 slots. -/
def slotMap (p : Nat → KeySlot → Bool) (s : State) : Word := pack [(0, (ofBits 16 (fun k => p k (getN s.cip.slot k {}))).toNat)]

def keyInfo : Cmd := {
  opcode := 0x0503, safe := true, lens := fun _ => [0]
  act := fun _ s => (rOk,
    [slotMap (fun _ x => x.state == .valid) s, slotMap (fun _ x => x.state == .invalid) s,
     slotMap (fun _ x => x.state == .clearing) s,
     slotMap (fun _ x => x.state == .valid && decide ((slotsOf x.keyId.toNat s).length ≥ 2)) s], s) }

/-- KEY.INFO (R518). -/
def execKeyInfo (ch : Chan) (s : State) : Host.Outcome State Fault Refusal := done (runCommand keyInfo ch) s

def keyContext : Cmd := {
  opcode := 0x0505, safe := true, lens := fun _ => [1], bits := fun _ => [0x3F]
  state := keyState
  own := fun _ s => if keyHalted s then rFault else 0
  act := fun m s =>
    match getN s.cip.ctx (m.f 1 0 6) none with
    | none => (rOk, List.replicate 7 0, s)
    | some c => (rOk, [1, c.keyId, BitVec.ofNat 32 c.session.toNat, BitVec.ofNat 32 c.count.toNat,
        BitVec.ofNat 32 (c.count.toNat / 2 ^ 32), c.blocks, c.reseeds], s) }

/-- KEY.CONTEXT (R520). -/
def execKeyContext (ch : Chan) (s : State) : Host.Outcome State Fault Refusal := done (runCommand keyContext ch) s

end Sys2Proof.Machine
end

