-- ==== Sys2Proof/Machine/FamNv.lean ====
section
/-!
DEFINITION. Fuse changes: the unlock, the row, its commit, its refusals; KEY.KEK_SET and the LIFE family (ch11).
-/
namespace Sys2Proof.Machine
open Sys2Proof

/-! ### The NV controller (R492 to R494, R505 to R508) -/

/-- The command of a fuse change completes, while its ticket still stands for it. -/
def endNv (op : NvOp) (code : Nat) (ws : List Word) (s : State) : State :=
  match op.ticket with
  | none => s
  | some t => if (ticketsOf (fun w => w == .nvRow) s).contains t then completeTicket t code ws s else s

/-- Fjarma makes the unlock writes for the change at the head of the queue (R494, R505). -/
def nvKick (s : State) : State :=
  match s.nv.phase, s.nv.queue with
  | .idle, op :: rest => if supRuns s then { s with nv.phase := .unlocked op, nv.queue := rest } else s
  | _, _ => s

/-- One row of a fuse item changed. -/
def modRow (item row : Nat) (f : FuseRow → FuseRow) (s : State) : State :=
  { s with nv.rows := updN s.nv.rows item (fun rs => rs.zipIdx.map (fun r => if r.2 = row then f r.1 else r.1)) }

/-- The start write: a spent item, an inhibited supply, or the row's STARTED bit (R492, R494, R507, R508). -/
def nvStart (s : State) : State :=
  match s.nv.phase with
  | .unlocked op =>
    if !supRuns s then s
    else
      let idle : State := { s with nv.phase := .idle }
      match (((s.nv.rows[op.item]?).getD []).zipIdx.find? (fun r => !r.1.started)).map (·.2) with
      | none => nvKick (endNv op rNvSpent [] (setLeaf 9 3 idle))
      | some row =>
        if s.aon.nvInhibit then nvKick (endNv op rNvBlocked [] (setLeaf 9 1 idle))
        else modRow op.item row (fun r => { r with started := true }) { s with nv.phase := .row op row }
  | _ => s

/-- A row that a sag abandons: uncommitted, and its command ends (R507). -/
def nvAbandon (s : State) : State :=
  match s.nv.phase with
  | .row op _ => nvKick (endNv op rNvBlocked [] (setLeaf 9 2 { s with nv.phase := .idle }))
  | _ => s

/-- UNLOCK_WINDOW_EXPIRY: nothing is programmed; the sequence runs again, up to 2 more times (R494, R506). -/
def execUnlockWindowExpiry (s : State) : Host.Outcome State Fault Refusal :=
  done (fun s =>
    match s.nv.phase with
    | .unlocked op =>
      let s := setLeaf 9 4 { s with nv.phase := .idle }
      if op.tries ≥ 2 then nvKick (endNv op rBusy [] s)
      else nvKick { s with nv.queue := { op with tries := op.tries + 1 } :: s.nv.queue }
    | _ => s) s

/-- The words of the completion: for a KEK the row used and the new check value (R519). -/
def rowWords (op : NvOp) (row : Nat) : List Word :=
  if op.item < 4 then []
  else
    let c := keyCheck (BitVec.ofNat 256 op.value.toNat)
    [BitVec.ofNat 32 row, wordAt c 0, wordAt c 4]

/-- Entry to RETIRED clears every data-key slot (R497). -/
def retireKeys (s : State) : State := if lifeCode s = 4 then { s with cip.slot := Vector.replicate 16 {} } else s

/-- Nothing else holds the formatter in reset once the row is through: boot goes on (R122, R129). -/
def bootOn (s : State) : State :=
  if s.boot.phase = .held ∧ resetHeld s = false then { s with boot.phase := .pll } else s

/-- NV_ROW_DONE: the row is committed and its command completes; an unlocked controller takes its start first (R492, R497,
R122). -/
def execNvRowDone (s : State) : Host.Outcome State Fault Refusal :=
  done (fun s =>
    let s := nvStart s
    match s.nv.phase with
    | .row op row =>
      let s := modRow op.item row (fun r => { r with value := op.value, crc := rowCrc op.item op.value, commit := true }) s
      let s := endNv op rOk (rowWords op row) { s with nv.phase := .idle }
      nvKick (bootOn (if op.item = 0 then finishClears (retireKeys s) else s))
    | _ => s) s

/-- A fuse change joins the queue (R505). -/
def queueNv (item value : Nat) (t : Nat) (s : State) : State :=
  nvKick { s with nv.queue := s.nv.queue ++ [{ item := item, value := BitVec.ofNat 384 value, ticket := some t, tries := 0 }] }

/-! ### KEY.KEK_SET (R519) -/

/-- The form is wrapped. -/
def kekWrapped (m : Msg) : Bool := (m.p 1).getLsbD 8

/-- The new KEK: given plain, or unwrapped. -/
def newKek (m : Msg) (s : State) : Option (List Byte) :=
  if kekWrapped m then (kekOf (m.f 1 12 3) s).bind (fun k => kwUnwrap k (paramBytes m 2 40))
  else some (paramBytes m 2 32)

def keyKekSet : Cmd := {
  opcode := 0x0504, lens := fun m => if kekWrapped m then [11] else [9], bits := fun _ => [0x7107]
  state := fun m s => keyState m s || s.dbg.taint || (kekWrapped m && (kekOf (m.f 1 12 3) s).isNone)
  own := fun m s =>
    if keyHalted s then rFault
    else if (!kekWrapped m && decide (lifeCode s = 3)) || (newKek m s).isNone then rAuth
    else 0
  long := fun _ => some .nvRow
  start := fun m t s => queueNv (4 + m.f 1 0 3) (beNat ((newKek m s).getD [])) t s }

/-- KEY.KEK_SET (R519). -/
def execKeyKekSet (ch : Chan) (s : State) : Host.Outcome State Fault Refusal := done (runCommand keyKekSet ch) s

/-! ### The LIFE family (R495, R496, R521 to R523) -/

/-- MIN_SECVER in force. -/
def minSecver (s : State) : Nat := field ((fuseValue 2 s).getD 0) 0 32

def lifeInfo : Cmd := {
  opcode := 0x0C01, safe := true, lens := fun _ => [0]
  act := fun _ s => (rOk,
    [pack [(0, lifeCode s), (8, (ofBits 4 (fun k => fuseFaulty k s)).toNat)],
     pack ((List.range 4).map (fun k => (8 * k, rowsSpent k s))), BitVec.ofNat 32 (minSecver s),
     BitVec.ofNat 32 (macBase s), BitVec.ofNat 32 (macBase s / 2 ^ 32)], s) }

/-- LIFE.INFO (R521). -/
def execLifeInfo (ch : Chan) (s : State) : Host.Outcome State Fault Refusal := done (runCommand lifeInfo ch) s

/-- The setting may be changed in the lifecycle state (Table 11-6). -/
def settable (k life : Nat) : Bool :=
  match k with
  | 1 => decide (life = 1 ∨ life = 2)
  | 2 => decide (life = 2 ∨ life = 3)
  | 3 => decide (life = 1 ∨ life = 2)
  | _ => false

/-- The value that LIFE.SET gives a setting (R522). -/
def lifeValue (m : Msg) : Nat :=
  match (m.p 1).toNat with
  | 1 => beNat (paramBytes m 2 48)
  | 2 => (m.p 2).toNat
  | _ => m.pair 2

def lifeSet : Cmd := {
  opcode := 0x0C02
  lens := fun m => match (m.p 1).toNat with
    | 1 => [13]
    | 2 => [2]
    | 3 => [3]
    | _ => [2, 3, 13]
  bits := fun m => if (m.p 1).toNat = 3 then [0xFFFFFFFF, 0xFFFFFFFF, 0xFFFF] else []
  param := fun m s =>
    decide ((m.p 1).toNat = 0 ∨ (m.p 1).toNat > 3) ||
    (m.p 1 == 2 && decide ((m.p 2).toNat ≤ minSecver s ∨ (m.p 2).toNat > s.boot.secver.toNat))
  state := fun m s => s.dbg.taint || !settable (m.p 1).toNat (lifeCode s)
  long := fun _ => some .nvRow
  start := fun m t s => queueNv (m.p 1).toNat (lifeValue m) t s }

/-- LIFE.SET (R496, R522). -/
def execLifeSet (ch : Chan) (s : State) : Host.Outcome State Fault Refusal := done (runCommand lifeSet ch) s

/-- The transitions of R495. -/
def transition (a b : Nat) : Bool := (a == 1 && b == 2) || (a == 2 && b == 3) || (decide (a = 2 ∨ a = 3) && b == 4)

def lifeAdvance : Cmd := {
  opcode := 0x0C03, lens := fun _ => [2]
  param := fun m _ => m.p 2 != 0x4C494645
  state := fun m s => s.dbg.taint || !transition (lifeCode s) (m.p 1).toNat ||
    (decide ((m.p 1).toNat ≠ 4) && (fuseValue 1 s).isNone)
  long := fun _ => some .nvRow
  start := fun m t s => queueNv 0 (m.p 1).toNat t s }

/-- LIFE.ADVANCE (R495, R496, R523). -/
def execLifeAdvance (ch : Chan) (s : State) : Host.Outcome State Fault Refusal := done (runCommand lifeAdvance ch) s

end Sys2Proof.Machine
end

