-- ==== Sys2Proof/Machine/FamRst.lean ====
section
/-!
DEFINITION. Restore: the RESTORE family, and what data sets read, blocks decrypted and blocks decoded bring to requests,
indexing and rebuilding (ch16).
-/
namespace Sys2Proof.Machine
open Sys2Proof

/-! ### RESTORE.RECORD and RESTORE.FIND (R684, R697, R700, R712, R713) -/

def recMask (m : Msg) : List Nat := maskTrn (m.f 1 0 8)
def recStream (m : Msg) : Nat := m.f 1 8 6
def recNumber (m : Msg) : Nat := (m.p 2).toNat + 2 ^ 32 * m.f 3 0 16
def recSession (m : Msg) : Nat := (m.p 4).toNat
def recOutput (m : Msg) : Nat := m.f 1 16 2

/-- The first transport that the mask names. -/
def recTrn (m : Msg) : Trn := Fin.ofNat 8 ((recMask m).headD 0)

/-- Words that the form does not use are zero (Table 16-8a). -/
def recUnused (m : Msg) : Bool :=
  (recOutput m == 2 && (m.p 5 != 0 || m.p 6 != 0 || m.p 7 != 0)) ||
  (recOutput m != 1 && (m.p 8 != 0 || m.p 9 != 0)) ||
  (decide (m.f 1 23 1 = 0) && (m.p 10 != 0 || m.p 11 != 0))

/-- The QP does not exist or is not in RTS. -/
def recQpBad (m : Msg) (s : State) : Bool :=
  recOutput m == 1 && (match getQp (Fin.ofNat 2 (m.f 8 8 1)) (Fin.ofNat 64 (m.f 8 0 6)) s with
    | some q => q.state != .rts
    | none => true)

/-- The record is in the pipeline of an open stream (R49). -/
def inPipeline (stream number : Nat) (s : State) : Bool :=
  let x := s.ing.stream[(Fin.ofNat 64 stream : Strm)]
  x.state != .closed && x.order.any (fun r => (getRec r s).any (fun v => v.number == number))

/-- The transport cannot serve a restore (R700). -/
def noReading (n : Trn) (s : State) : Bool :=
  s.trn[n].loaded != .reading || (!domOn (halfOf n) s && !s.power.autoVrf)

/-- The entries that a request reads from the indexes of its transports; the worst outcome of their lines (R708). -/
def readIndexes (ns : List Nat) (stream number : Nat) (s : State) : LineOutcome × State :=
  ns.foldl (fun acc n =>
    let x := readEntries (Fin.ofNat 8 n) stream number acc.2
    (worse acc.1 x.1, x.2)) (.ok, s)

/-- W2 to W5 of a request that ends before any piece is read. -/
def emptyWords (id : Nat) : List Word := [8, 0, BitVec.ofNat 32 id, BitVec.ofNat 32 (id / 2 ^ 32)]

/-- The request as its parameters give it, with its pieces. -/
def newRequest (m : Msg) (t : Nat) (ps : List (Nat × Piece)) : Request :=
  { ticket := t, trn := recTrn m, stream := recStream m, number := recNumber m, output := recOutput m
    rawItem := m.f 1 18 1 == 1, swap := m.f 1 20 3, notify := m.f 1 23 1 == 1, dest := m.pair 5, bufLen := m.f 7 0 26
    port := Fin.ofNat 2 (m.f 8 8 1), qp := Fin.ofNat 64 (m.f 8 0 6), rkey := m.p 9, resAddr := m.pair 10
    todo := ps, mid := false, cut := !reachesEnd ps, hostTag := (ps.head?.map (fun p => p.2.hostTag)).getD 0
    got := 0, exts := [], broken := ps.isEmpty, env := none, slot := none, pos := 0, index := 0, plain := [], decoded := 0
    delivered := 0, good := 0, carry := [], verdict := 0, ladder := 0, sets := 0, lent := none, code := none, told := false
    msg := [], sent := 0, unacked := 0, acked := 0 }

/-- A request is resolved, and its transports go toward its pieces (R679, R684). -/
def startRecord (m : Msg) (t : Nat) (s : State) : State :=
  let ns := recMask m
  match readIndexes ns (recStream m) (recNumber m) s with
  | (.control, s) => s
  | (.bad, s) => completeTicket t rFault (emptyWords 0) s
  | (.ok, s) =>
    let all := piecesFor ns (recStream m) (recNumber m) (recSession m) s
    let ps := gather all (all.length + 1) 0
    match if reachesEnd ps then none else missingCart ns (recStream m) (recNumber m) (recSession m) s with
    | some id => completeTicket t rNotfound (emptyWords id) s
    | none =>
      let s := settleReq t { s with rst.reqs := s.rst.reqs ++ [newRequest m t ps] }
      let s := feedCached t 17 s
      ns.foldl (fun s n => serve (Fin.ofNat 8 n) false s) s

def restoreRecord : Cmd := {
  opcode := 0x0403, lens := fun _ => [11]
  bits := fun _ => [0x00F73FFF, 0xFFFFFFFF, 0xFFFF, 0xFFFFFFFF, 0xFFFFFFFF, 0xFFFFFFFF, 0x03FFFFFF, 0x13F]
  param := fun m s => (recMask m).isEmpty || recOutput m == 3 || decide (m.f 1 20 3 ≥ 5 ∨ m.f 7 0 26 > 33563712) ||
    recUnused m || recQpBad m s
  state := fun m s => inPipeline (recStream m) (recNumber m) s || (recMask m).any (fun n =>
    noReading (Fin.ofNat 8 n) s || (sessionsOf n s).isEmpty)
  limit := fun m s => decide ((s.rst.reqs.filter (fun q => q.trn == recTrn m)).length ≥ 32)
  own := fun m s => if (piecesFor (recMask m) (recStream m) (recNumber m) (recSession m) s).isEmpty then rNotfound else 0
  long := fun m => some (.record (recTrn m))
  start := startRecord }

/-- RESTORE.RECORD (R684, R697, R700, R712). -/
def execRestoreRecord (ch : Chan) (s : State) : Host.Outcome State Fault Refusal := done (runCommand restoreRecord ch) s

/-- The first piece of a record's entries, with its transport. -/
def firstPiece (ps : List (Nat × Piece)) : Option (Nat × Piece) :=
  ps.foldl (fun (b : Option (Nat × Piece)) p =>
    match b with
    | none => some p
    | some x => if p.2.bytesBefore < x.2.bytesBefore then some p else b) none

/-- The answer of RESTORE.FIND. -/
def findWords (m : Msg) (ps : List (Nat × Piece)) (s : State) : List Word :=
  let lo := fun (v : Nat) => BitVec.ofNat 32 v
  match firstPiece ps with
  | none => []
  | some (n, p) =>
    [lo ps.length, lo n, lo ((ps.map (fun p => p.2.length)).sum), lo p.hostTag, lo (p.hostTag / 2 ^ 32), lo p.dsn, lo p.wrap,
     lo (((sessionFor n (recStream m) (recNumber m) (recSession m) s).map (·.no)).getD 0)]

def restoreFind : Cmd := {
  opcode := 0x0404, safe := true, lens := fun _ => [4], bits := fun _ => [0x3FFF, 0xFFFFFFFF, 0xFFFF]
  state := fun m s => inPipeline (recStream m) (recNumber m) s
  own := fun m s => if (piecesFor (recMask m) (recStream m) (recNumber m) (recSession m) s).isEmpty then rNotfound else 0
  act := fun m s =>
    match readIndexes (recMask m) (recStream m) (recNumber m) s with
    | (.ok, t) => (rOk, findWords m (piecesFor (recMask m) (recStream m) (recNumber m) (recSession m) t) t, t)
    | (_, t) => (rFault, [], t) }

/-- RESTORE.FIND (R684, R713). -/
def execRestoreFind (ch : Chan) (s : State) : Host.Outcome State Fault Refusal := done (runCommand restoreFind ch) s

/-! ### RESTORE.INFO, PARAM, RELEASE (R705, R714 to R716) -/

def restoreWords (n : Trn) (s : State) : List Word :=
  let r := s.rst.trn[n]
  let un := match r.index with
    | some i => i.noEnd || i.manifestCrc || i.overflow
    | none => false
  [pack [(0, b2n r.index.isSome), (1, b2n un), (2, b2n r.reading), (3, b2n (rebuilding n s))],
   BitVec.ofNat 32 (s.rst.reqs.filter (fun q => q.trn == n)).length,
   BitVec.ofNat 32 (((sessionsOf n s).map (fun x => x.pieces.length)).sum),
   BitVec.ofNat 32 (r.extents.length + workingExts n s), BitVec.ofNat 32 r.dsn]

def restoreInfo : Cmd := {
  opcode := 0x0405, safe := true, lens := fun _ => [1], bits := fun _ => [7]
  act := fun m s => (rOk, restoreWords (Fin.ofNat 8 (m.f 1 0 3)) s, s) }

/-- RESTORE.INFO (R714). -/
def execRestoreInfo (ch : Chan) (s : State) : Host.Outcome State Fault Refusal := done (runCommand restoreInfo ch) s

/-- Default, minimum and maximum of Table 16-8. -/
def restoreRange (k : Nat) : Option (Nat × Nat × Nat) :=
  match k with
  | 1 => some (128, 0, 128)
  | 2 => some (0, 0, 128)
  | 3 => some (5, 1, 5)
  | 4 => some (8, 2, 8)
  | 5 => some (1, 0, 1)
  | _ => none

def restoreParamGet : Cmd := {
  opcode := 0x0406, mine := fun m => decide (m.f 1 0 1 = 0), lens := fun _ => [1], bits := fun _ => [0xFF01]
  param := fun m _ => (restoreRange (m.f 1 8 8)).isNone
  act := fun m s => match restoreRange (m.f 1 8 8) with
    | some (d, lo, hi) => (rOk, getAnswer (getN s.rst.param (m.f 1 8 8 - 1) 0) d lo hi, s)
    | none => (rParam, [], s) }

/-- RESTORE.PARAM, GET (R671, R715). -/
def execRestoreParamGet (ch : Chan) (s : State) : Host.Outcome State Fault Refusal := done (runCommand restoreParamGet ch) s

def restoreParamSet : Cmd := {
  opcode := 0x0406, mine := fun m => decide (m.f 1 0 1 = 1), lens := fun _ => [2], bits := fun _ => [0xFF01]
  param := fun m _ => match restoreRange (m.f 1 8 8) with
    | some (_, lo, hi) => decide ((m.p 2).toNat < lo ∨ hi < (m.p 2).toNat)
    | none => true
  state := fun _ s => !s.rst.reqs.isEmpty
  act := fun m s => (rOk, [m.p 2], { s with rst.param := updN s.rst.param (m.f 1 8 8 - 1) (fun _ => (m.p 2).toNat) }) }

/-- RESTORE.PARAM, SET (R671, R715). -/
def execRestoreParamSet (ch : Chan) (s : State) : Host.Outcome State Fault Refusal := done (runCommand restoreParamSet ch) s

/-- The lent run that begins at an extent. -/
def lentAt (e : Nat) (s : State) : Option (Nat × Nat × Option Nat) := s.rst.lent.find? (fun l => decide (l.1 = e))

def restoreRelease : Cmd := {
  opcode := 0x0407, safe := true, lens := fun _ => [1], bits := fun _ => [0x1FFFF]
  param := fun m s => (lentAt (m.f 1 0 17) s).isNone
  state := fun m s => ((lentAt (m.f 1 0 17) s).bind (·.2.2)).isSome
  act := fun m s => match lentAt (m.f 1 0 17) s with
    | some (e, k, _) => (rOk, [BitVec.ofNat 32 k], freeExtents ((List.range k).map (fun i => e + i))
        { s with rst.lent := s.rst.lent.filter (fun l => decide (l.1 ≠ e)) })
    | none => (rParam, [], s) }

/-- RESTORE.RELEASE (R705, R716). -/
def execRestoreRelease (ch : Chan) (s : State) : Host.Outcome State Fault Refusal := done (runCommand restoreRelease ch) s

/-! ### RESTORE.INDEX and RESTORE.REBUILD (R682, R695, R700, R710, R711) -/

/-- Indexing begins with no entry; a rebuild adds to the index that stands (R682, R695). -/
def startScan (n : Trn) (t : Nat) (p : ScanFor) (s : State) : State :=
  let s := modRst n (fun r => { r with scan := some (beginScan t p) }) s
  let s := match p with
    | .index => freeExtents s.rst.trn[n].extents (modRst n (fun r => { r with index := some {}, extents := [] }) s)
    | _ => s
  serve n true s

/-- The command waits behind the one that runs on its transport. -/
def queueScan (p : ScanFor) (m : Msg) (t : Nat) (s : State) : State :=
  let n : Trn := Fin.ofNat 8 (m.f 1 0 3)
  match s.rst.trn[n].scan with
  | some _ => modRst n (fun r => { r with scans := r.scans ++ [(t, p)] }) s
  | none => startScan n t p s

def restoreIndex : Cmd := {
  opcode := 0x0401, lens := fun _ => [1], bits := fun _ => [7]
  state := fun m s => noReading (Fin.ofNat 8 (m.f 1 0 3)) s
  long := fun m => some (.index (Fin.ofNat 8 (m.f 1 0 3)))
  start := queueScan .index }

/-- RESTORE.INDEX (R682, R700, R710). -/
def execRestoreIndex (ch : Chan) (s : State) : Host.Outcome State Fault Refusal := done (runCommand restoreIndex ch) s

def restoreRebuild : Cmd := {
  opcode := 0x0402, lens := fun _ => [1], bits := fun _ => [0x107]
  state := fun m s =>
    let n : Trn := Fin.ofNat 8 (m.f 1 0 3)
    noReading n s || (decide (m.f 1 8 1 = 1) && s.trn[n].wp)
  long := fun m => some (.rebuild (Fin.ofNat 8 (m.f 1 0 3)) (m.f 1 8 1 == 1))
  start := fun m t s => queueScan (.rebuild (m.f 1 8 1 == 1)) m t s }

/-- RESTORE.REBUILD (R695, R700, R711). -/
def execRestoreRebuild (ch : Chan) (s : State) : Host.Outcome State Fault Refusal := done (runCommand restoreRebuild ch) s

/-! ### Walking the items of a data set (R543 to R545, R559, R561, R695) -/

/-- A run's piece ends here: an entry where the envelope and the first block's prefix were sound. -/
def closePiece (r : ScanRun) (last : Bool) (x : Scan) : Scan :=
  if r.head.length < 80 ∨ r.piece.length = 0 then x
  else { x with pieces := x.pieces ++ [{ r.piece with record := r.record, hostTag := r.hostTag, last := last }] }

/-- A run whose first `n` more bytes stand at `off`. -/
def growRun (r : ScanRun) (area : List Byte) (off n : Nat) : ScanRun :=
  { r with
    head := if r.head.length < 80 then r.head ++ slice area off n else r.head
    pos := r.pos + n, piece := { r.piece with length := r.piece.length + n } }

/-- Bytes until the next point at which a run must be looked at: its envelope, its first block's prefix, its end. -/
def untilLook (r : ScanRun) : Nat :=
  if r.head.length < 64 then 64 - r.head.length
  else if r.head.length < 80 then 80 - r.head.length
  else r.len - r.pos

/-- What the envelope and the first block's prefix say; none where they break the run (R561). -/
def lookRun (r : ScanRun) (x : Scan) : Option (ScanRun × Scan) :=
  if r.head.length = 64 then
    match readEnvelope r.head with
    | none => none
    | some e =>
      if e.stream ≠ r.stream then none
      else some ({ r with record := e.record, hostTag := e.hostTag, len := 64 + e.storedLen }, x)
  else if r.head.length = 80 ∧ r.pos = 80 then
    let iv := slice r.head 68 12
    if leAt r.head 64 1 ≠ 1 then none
    else some (r, { x with
      inv := max x.inv (ivInv iv + 1), values := if x.values.contains (ivSession iv) then x.values else x.values ++ [ivSession iv] })
  else some (r, x)

/-- A run that begins at an offset of a data set. -/
def newRun (d : Dsi) (off : Nat) : ScanRun :=
  { stream := d.stream, record := 0, hostTag := 0, len := 0, head := [], seq := d.streamSeq, pos := 0
    piece := { record := 0, stream := d.stream, first := true, last := false, dsn := d.dsn, wrap := d.wrap, lpos := d.lpos,
               offset := off, length := 0, bytesBefore := 0, streamSeq := d.streamSeq, hostTag := 0 } }

/-- The items of a data area from `off` on, up to the first unknown byte at `lim`. Answers the run that is open at the
end. -/
def walkItems (d : Dsi) (area : List Byte) (lim : Nat) : Nat → Nat → Option ScanRun → Scan → Option ScanRun × Scan
  | 0, _, _, x => (none, x)
  | fuel + 1, off, none, x =>
    if off ≥ lim then (none, x)
    else if leAt area off 1 = 0 then walkItems d area lim fuel ((off / rowBytes + 1) * rowBytes) none x
    else walkItems d area lim fuel off (some (newRun d off)) x
  | fuel + 1, off, some r, x =>
    let want := untilLook r
    let n := min want (lim - off)
    let r := growRun r area off n
    if n < want then
      if lim < dataAreaBytes then (none, closePiece r false x) else (some { r with seq := d.streamSeq + 1 }, x)
    else
      match lookRun r x with
      | none => (none, x)
      | some (r, x) =>
        if r.head.length = 80 ∧ r.pos = r.len then walkItems d area lim fuel (off + n) none (closePiece r true x)
        else walkItems d area lim fuel (off + n) (some r) x

/-- Items in a data area are at least 8 bytes long or fill a row. -/
def walkFuel : Nat := 1376256

/-- The run of the data set's stream that goes on in it: in the same piece, or, where data sets of other transports lie
between, in a new one; with the offset at which the walk begins. -/
def resumeRun (d : Dsi) (x : Scan) : (Option ScanRun × Nat) × Scan :=
  match x.runs.find? (fun r => r.stream == d.stream) with
  | none => ((none, d.firstItem), x)
  | some r =>
    let x := { x with runs := x.runs.filter (fun r => r.stream != d.stream) }
    if r.seq = d.streamSeq then ((some r, 0), x)
    else
      let x := closePiece r false x
      if r.head.length = 80 ∧ d.recordAtStart = r.record ∧ r.pos < d.bytesBefore ∧ d.bytesBefore < r.len then
        ((some { r with pos := d.bytesBefore, piece := { r.piece with
            first := false, dsn := d.dsn, wrap := d.wrap, lpos := d.lpos, offset := 0, length := 0
            bytesBefore := d.bytesBefore, streamSeq := d.streamSeq } }, 0), x)
      else ((none, d.firstItem), x)

/-- A DATA data set of a rebuild (R695). -/
def walkDs (d : Dsi) (area : List Byte) (lim : Nat) (x : Scan) : Scan :=
  let r := resumeRun d x
  let w := walkItems d area lim walkFuel r.1.2 r.1.1 r.2
  match w.1 with
  | some run => { w.2 with runs := w.2.runs ++ [run] }
  | none => w.2

/-! ### A rebuild's reading forward (R695) -/

/-- The pieces found so far form a session of their own. -/
def foundSession (cart : Nat) (x : Scan) : IdxSession :=
  let x := x.runs.foldl (fun x r => closePiece r false x) x
  { no := (x.last.map (·.sessionNo)).getD 0, floor := 0, list := x.values
    sets := ((x.pieces.map (·.stream)).eraseDups).map (fun i => (i, [cart])), pieces := x.pieces
    dsn := x.firstDsn, wrap := (x.last.map (·.wrap)).getD 0, lpos := (x.last.map (·.lpos)).getD 0 }

/-- Nothing of a session has been found. -/
def freshFind (x : Scan) : Scan := { x with runs := [], pieces := [], inv := 0, values := [] }

/-- A data set of another session begins: what was found before stands by itself. -/
def nextSession (cart : Nat) (d : Dsi) (x : Scan) : Scan :=
  if (x.last.map (·.sessionNo)) = some d.sessionNo then x
  else
    let x := if x.pieces = [] then x else { x with older := foundSession cart x :: x.older }
    { freshFind x with firstDsn := d.dsn }

/-- A MANIFEST data set met by a rebuild: a sound manifest lists its session. -/
def forwardManifest (d : Dsi) (area : List Byte) (k : Nat) (x : Scan) : Scan :=
  let old := if hasMagic area then [] else x.manifest
  let place := if hasMagic area then (d.wrap, d.dsn, d.lpos) else x.place
  let bs := growManifest old area k
  let x := { x with manifest := bs, place := place }
  if !manifestDone bs k then x
  else match readManifest bs with
    | some m => { freshFind x with newest := some (sessionAt place m), manifest := [] }
    | none => { x with manifest := [] }

/-- A data set that a rebuild reads forward; `k` is how many of its bytes are known up to the first unknown one. -/
def forwardStep (cart : Nat) (empty : Bool) (d : Option Dsi) (area : List Byte) (k : Nat) (x : Scan) : Scan × Bool :=
  match d with
  | none =>
    if !empty then ({ x with lost := x.lost + 1 }, false)
    else if x.goal.1 + 1 < x.wraps then ({ x with goal := wrapGoal (x.goal.1 + 1) }, true)
    else scanOver x
  | some d =>
    if d.kind = 4 then scanOver { x with endDsi := some d }
    else if (x.lastDsn.any (fun l => decide (d.dsn ≤ l))) then goOn d x
    else
      let x := nextSession cart d x
      let x := { x with
        lastDsn := some d.dsn, last := some d, group := max x.group (d.group + 1)
        lost := x.lost + b2n (decide (k < dataAreaBytes)) }
      goOn d (if d.kind = 1 then walkDs d area k x else if d.kind = 3 then forwardManifest d area k x else x)

/-! ### What a data set is needed for (R691, R700) -/

/-- Every codeword of a data set. -/
def allCodewords : List (Nat × Nat) := (List.range 96).flatMap (fun r => (List.range 64).map (fun c => (r, c)))

/-- The GROUP of a data set that no reader has identified. -/
def noGroup : Nat := 2 ^ 48 - 1

/-- The data set's information; where it is not identified, what a request expects at this place (R560). -/
def identify (n : Trn) (d : DataSetRead) (s : State) : Option Dsi :=
  match seenDsi d.ids with
  | some x => some x
  | none =>
    if d.ids = [] then none
    else
      (s.rst.reqs.findSome? (fun q => if reads n q then
          (q.todo.head?.filter (fun p => p.2.dsn == s.rst.trn[n].dsn)).map (·.2) else none)).map (fun p =>
        { kind := 1, pos := 0, k := 0, wrap := p.wrap, rewrite := 0, stream := p.stream, dsn := p.dsn, fill := 0,
          group := noGroup, lpos := p.lpos, sessionNo := 0, cartridge := 0, streamSeq := p.streamSeq, firstItem := 0,
          bytesBefore := 0, recordAtStart := 0, linkDsn := 0, linkWrap := 0, linkLpos := 0 })

/-- Bytes of the data area that a search needs of a data set, from its start. -/
def scanBytes (x : Scan) (d : Dsi) (area : List Byte) : Nat :=
  match x.phase with
  | .chain =>
    if d.kind ≠ 3 then 0
    else match totalOf (if x.manifest = [] then slice area 0 0x48 else x.manifest) with
      | some t => min dataAreaBytes (max 1 (t - x.manifest.length))
      | none => dataAreaBytes
  | .forward => if d.kind = 1 ∨ d.kind = 3 then dataAreaBytes else 0
  | _ => 0

/-- A request that no rebuild holds back wants bytes of the data set. -/
def wanted (n : Trn) (d : Dsi) (s : State) : Bool :=
  !rebuilding n s && s.rst.reqs.any (fun q => (wantedBytes n d q).isSome)

/-- A byte that a request, an indexing, a rebuild or a load needs of the data set is unknown (R691). -/
def needIn (n : Trn) (d : Dsi) (area : List Byte) (g : Gaps) (s : State) : Bool :=
  (!rebuilding n s && s.rst.reqs.any (fun q => match wantedBytes n d q with
    | some w => gapIn g w.1 w.2
    | none => false)) ||
  (s.rst.trn[n].scan.toList ++ (s.trn[n].loading.map (·.scan)).toList).any (fun x => gapIn g 0 (scanBytes x d area))

/-- A manifest that a RESTORE.INDEX read: its session joins the index, or is left unindexed (R682, R683). None where an
extent is waited for (R399). -/
def indexManifest (n : Trn) (place : Nat × Nat × Nat) (bs : List Byte) (s : State) : Option State :=
  let modIdx (f : RestIndex → RestIndex) (s : State) : State := modRst n (fun r => { r with index := r.index.map f }) s
  match readManifest bs with
  | none => some (modIdx (fun i => { i with manifestCrc := true }) s)
  | some m =>
    let has := ((sessionsOf n.val s).map (fun x => x.pieces.length)).sum
    if has + m.pieces.length > 16777216 then some (modIdx (fun i => { i with overflow := true }) s)
    else fitIndex n (modIdx (fun i => { i with sessions := i.sessions ++ [sessionAt place m] }) s)

/-- One step of the search on TRN_n, and whether the tape must be located anew. -/
def scanStep (n : Trn) (x : Scan) (empty : Bool) (d : Option Dsi) (area : List Byte) (k : Nat) (s : State) :
    (Scan × Bool) × Option (List Byte) :=
  match x.phase with
  | .search lo hi => (searchStep (!empty) lo hi x, none)
  | .wrap => (wrapStep empty d area x, none)
  | .chain => chainStep empty d area k x
  | .forward => (forwardStep s.trn[n].cartId.toNat empty d area k x, none)
  | .ended => ((x, false), none)

/-- The place at which the manifest that a step ended began. -/
def manifestPlace (x : Scan) (d : Option Dsi) : Nat × Nat × Nat :=
  match x.lastDsn, d with
  | none, some d => (d.wrap, d.dsn, d.lpos)
  | _, _ => x.place

/-- A data set feeds the search on TRN_n (R552, R682, R695). -/
def feedScan (n : Trn) (empty : Bool) (d : Option Dsi) (area : List Byte) (k : Nat) (s : State) : State × Bool :=
  match s.rst.trn[n].scan with
  | none => (s, false)
  | some x =>
    let r := scanStep n x empty d area k s
    let keep (s : State) : State × Bool := (modRst n (fun q => { q with scan := some r.1.1 }) s, r.1.2)
    match x.purpose, r.2 with
    | .index, some bs => match indexManifest n (manifestPlace x d) bs s with
      | some s => keep s
      | none => (s, true)
    | _, _ => keep s

/-! ### The retry ladder (R691 to R694, Table 16-5) -/

/-- The data set in its place: what is read next in its wrap (R714). -/
def passedDs (n : Trn) (d : Dsi) (s : State) : State :=
  modRst n (fun r => { r with dsn := d.dsn + 1 }) (modTrn n (fun t => { t with wrap := d.wrap }) s)

def modHeld (n : Trn) (f : List HeldSet → List HeldSet) (s : State) : State := modRst n (fun r => { r with held := f r.held }) s

/-- A ruled data set goes to the load or search that reads, and into the cache for the requests that want it; the Bool says
that the tape must be located anew (R698, R699). -/
def useSet (n : Trn) (d : Dsi) (area : List Byte) (r : Ruling) (s : State) : State × Bool :=
  let k := knownRun r.gaps 0 dataAreaBytes
  match s.trn[n].loading with
  | some l => (loadStep n l (scanStep n l.scan false (some d) area k s).1 s, false)
  | none =>
    let x := feedScan n false (some d) area k s
    if !wanted n d x.1 then x
    else match storeSet n d area r x.1 with
      | none => (x.1, true)
      | some s => (feedAll n s, x.2)

/-- The ladder is done with a data set: its counters, and its use (R694, Table 16-10). -/
def resolve (n : Trn) (h : HeldSet) (r : Ruling) (s : State) : State × Bool :=
  let s := modHeld n (fun hs => hs.filter (fun x => decide (x.dsi.dsn ≠ h.dsi.dsn))) s
  let fixed := if r.step ≥ 2 then c2Fixed h.area h.fails h.wrong else 0
  let s := count 0x8B18 fixed (count 0x8B20 (b2n (r.bits.getLsbD 5)) (count 0x8B30 (b2n (needIn n h.dsi h.area r.gaps s)) s))
  useSet n h.dsi (areaRead h.area h.fails h.wrong (decide (r.step > 1))) r s

/-- The tape is located for a pass of the ladder. -/
def goPass (n : Trn) (g : Nat × Nat × Nat) (s : State) : State :=
  match s.trn[n].loading with
  | some l => locateRead n g (loadPhase n l .seeking s)
  | none => goRead n g s

/-- A place `k` data sets before another in its wrap. -/
def setsBefore (k : Nat) (w dsn : Nat) (lpos : Word) : Nat × Nat × Nat :=
  (w, dsn - k, (Config.lposAt lpos (if wrapRev w then (28710 * k : Nat) else -(28710 * k : Nat))).toNat)

/-- A retry pass over every data set held within 20 m of the first begins, once there is room for its samples (R691,
R698). -/
def startPass (n : Trn) (h : HeldSet) (s : State) : State :=
  match takeWorking n (57 * h.pass - s.rst.trn[n].sampleExts.length) s with
  | none => s
  | some (es, s) =>
    let upto := ((s.rst.trn[n].held.filter (fun x => x.dsi.wrap == h.dsi.wrap && decide (x.dsi.dsn ≤ h.dsi.dsn + 696))).map
      (·.dsi.dsn)).foldl max h.dsi.dsn
    goPass n (h.dsi.wrap, h.dsi.dsn, h.dsi.lpos) (count 0x8B28 1 (modRst n (fun r => { r with
      retrying := true, passNo := h.pass + 1, sweepTo := upto, sampleExts := r.sampleExts ++ es }) s))

/-- The sweep over the data set's group begins 20 data sets before it, at READ_SPEED (R693). -/
def startSweep (n : Trn) (h : HeldSet) (s : State) : State :=
  let g := setsBefore 20 h.dsi.wrap h.dsi.dsn (BitVec.ofNat 32 h.dsi.lpos)
  goPass n g (modRst n (fun r => { r with
    retrying := false, sweep := some { group := h.dsi.group, place := g } }) s)

/-- The ladder is empty: reading goes on at READ_SPEED, without locating where the next data set lies ahead (R679). -/
def ladderOver (n : Trn) (again : Bool) (s : State) : State :=
  let es := s.rst.trn[n].sampleExts
  let s := freeExtents es (modRst n (fun r => { r with retrying := false, sweep := none, sampleExts := [] }) s)
  if s.trn[n].loading.isSome || !s.rst.trn[n].reading then s
  else match goalOf n s with
    | some g => if !again && needsTrn n s && aheadOf n g s then runPass n s else serve n true s
    | none => serve n true s

/-- The next pass for the first data set held: a retry, its group's sweep, or none, and then the next data set held (R691,
R693, R694). -/
def nextPass (n : Trn) : Nat → Bool → State → State
  | 0, _, s => s
  | fuel + 1, again, s =>
    match s.rst.trn[n].held with
    | [] => ladderOver n again s
    | h :: _ =>
      if h.pass < getN s.rst.param 2 5 then startPass n h s
      else if getN s.rst.param 4 1 = 1 ∧ h.dsi.group ≠ noGroup ∧ (h.dsi.kind = 1 ∨ h.dsi.kind = 3) then startSweep n h s
      else
        let x := resolve n h h.ruling s
        nextPass n fuel x.2 x.1

/-- The ladder goes on with the first data set held. -/
def climb (n : Trn) (again : Bool) (s : State) : State := nextPass n (s.rst.trn[n].held.length + 1) again s

/-- What follows a data set of a first pass: an interlock's stop; reading on, for what lies ahead and for copies in the 4
data sets past each one held; then the ladder (R680, R691). -/
def afterSet (n : Trn) (again : Bool) (s : State) : State :=
  let s := holdReading n s
  let r := s.rst.trn[n]
  let late := !r.held.isEmpty && r.held.all (fun h => decide (h.past ≥ 4))
  if s.trn[n].loading.isSome then (if late then climb n again s else s)
  else if !r.reading then s
  else if r.held.isEmpty then serve n again s
  else if !late || (match goalOf n s with
      | some g => aheadOf n g s
      | none => false) then s
  else climb n again s

/-- A data set in a first pass: decoded by C1 alone, with copies and C2, or held (Table 16-5 steps 1 and 2). While a load or
a search has a data set on the ladder, it takes no other. -/
def firstSet (n : Trn) (h : HeldSet) (s : State) : State :=
  let blocked := !s.rst.trn[n].held.isEmpty && (s.rst.trn[n].scan.isSome || s.trn[n].loading.isSome)
  match s.rst.trn[n].held.find? (fun x => x.dsi.dsn == h.dsi.dsn) with
  | some old =>
    let m := { old.meet h.fails h.wrong with dsi := if old.dsi.group = noGroup then h.dsi else old.dsi }
    if needIn n m.dsi m.area m.ruling.gaps s then
      afterSet n false (modHeld n (fun hs => hs.map (fun x => if x.dsi.dsn = h.dsi.dsn then m else x)) s)
    else
      let x := resolve n m m.ruling s
      afterSet n x.2 x.1
  | none =>
    let s := modHeld n (fun hs => hs.map (fun x => { x with past := x.past + 1 })) s
    let raw := rawGaps h.fails
    let c2 := { h with step := 2 }
    if blocked then afterSet n false s
    else if !needIn n h.dsi h.area raw s then
      let x := resolve n h { gaps := raw, step := 1, bits := 0 } s
      afterSet n x.2 x.1
    else if !needIn n h.dsi h.area c2.ruling.gaps s then
      let x := resolve n c2 c2.ruling s
      afterSet n x.2 x.1
    else afterSet n false (modHeld n (fun hs => hs ++ [c2]) s)

/-- The retry pass under way is over: each data set it was to cover has had it. -/
def passOver (n : Trn) (again : Bool) (s : State) : State :=
  let r := s.rst.trn[n]
  climb n again (modHeld n (fun hs => hs.map (fun h =>
    if h.dsi.dsn ≤ r.sweepTo then { h with pass := max h.pass r.passNo } else h)) s)

/-- A data set in a retry pass (Table 16-5 steps 3 and 4). -/
def retrySet (n : Trn) (h : HeldSet) (s : State) : State :=
  let r := s.rst.trn[n]
  let x : State × Bool := match r.held.find? (fun x => x.dsi.dsn == h.dsi.dsn) with
    | none => (s, false)
    | some old =>
      let m := old.meet h.fails h.wrong
      let m := { m with
        dsi := if old.dsi.group = noGroup then h.dsi else old.dsi, pass := r.passNo
        step := max old.step (if r.passNo = 2 then 3 else 4)
        averaged := old.averaged || (decide (r.passNo > 2) && decide (m.fails.length < old.fails.length)) }
      let s := modHeld n (fun hs => hs.map (fun x => if x.dsi.dsn = h.dsi.dsn then m else x)) s
      if needIn n m.dsi m.area m.ruling.gaps s then (s, false) else resolve n m m.ruling s
  let s := holdReading n x.1
  if s.trn[n].loading.isNone ∧ s.rst.trn[n].reading = false then s
  else if h.dsi.dsn ≥ r.sweepTo ∨ s.rst.trn[n].held.isEmpty = true then passOver n x.2 s
  else s

/-- The sweep of the group goes on in the wrap before, where a turnaround cuts the group, or ends: C3 restores what at most
two of the group's data sets hold unknown (R541, R557, R693). -/
def sweepEnd (n : Trn) (s : State) : State :=
  match s.rst.trn[n].sweep, s.rst.trn[n].held with
  | some g, h :: _ =>
    let others := ((List.range (g.k.getD 14)).filter (fun p => p != h.dsi.pos)) ++ [14, 15]
    let missing := others.filter (fun p => g.mates.all (fun m => m.1 != p))
    if g.before = false ∧ h.dsi.wrap > 0 ∧ missing.any (fun p => decide (p < h.dsi.pos)) = true then
      let w := h.dsi.wrap - 1
      let p := setsBefore 20 w h.dsi.dsn (Config.wrapStart h.dsi.wrap)
      goPass n p (modRst n (fun r => { r with sweep := some { g with before := true, place := p } }) s)
    else
      let gaps := c3Gaps h.ruling.gaps (g.mates.map (·.2)) missing.length
      let c3 := gaps != h.ruling.gaps
      let x := resolve n h { gaps := gaps, step := 5, bits := h.ruling.bits ||| BitVec.ofNat 8 (32 * b2n c3) } s
      climb n x.2 (modRst n (fun r => { r with sweep := none }) x.1)
  | _, _ => climb n false s

/-- Bytes unknown in both readings of a member. -/
def bothGaps (a b : Gaps) : Gaps :=
  (a.map (fun e => (e.1, e.2.filter (fun m => gapAt b e.1 m)))).filter (fun e => !e.2.isEmpty)

/-- A data set in the sweep of a group: steps 1 and 2 on each member and tail (R693). -/
def sweepSet (n : Trn) (g : GroupSweep) (h : HeldSet) (s : State) : State :=
  let s := holdReading n s
  match s.rst.trn[n].held with
  | [] => climb n false s
  | old :: _ =>
    if s.trn[n].loading.isNone ∧ s.rst.trn[n].reading = false then s
    else if h.dsi.dsn = old.dsi.dsn then
      let m := old.meet h.fails h.wrong
      let s := modHeld n (fun hs => hs.map (fun x => if x.dsi.dsn = h.dsi.dsn then m else x)) s
      if needIn n m.dsi m.area m.ruling.gaps s then s
      else
        let x := resolve n m m.ruling s
        climb n x.2 (modRst n (fun r => { r with sweep := none }) x.1)
    else if h.dsi.group = g.group ∧ h.dsi.kind ≤ 3 then
      let gaps := c2Gaps h.area h.fails h.wrong
      let gaps := match g.mates.find? (fun m => m.1 == h.dsi.pos) with
        | some m => bothGaps m.2 gaps
        | none => gaps
      let s := modRst n (fun r => { r with sweep := some { g with
        mates := (h.dsi.pos, gaps) :: g.mates.filter (fun m => m.1 != h.dsi.pos)
        k := if h.dsi.kind = 2 then some h.dsi.k else g.k } }) s
      if h.dsi.kind = 2 ∧ h.dsi.pos = 15 then sweepEnd n s else s
    else if h.dsi.group > g.group ∧ h.dsi.group ≠ noGroup then sweepEnd n s
    else s

/-- No more sync marks: the sweep of a group goes on in the next wrap until its second tail is read (R693). -/
def sweepOut (n : Trn) (g : GroupSweep) (s : State) : State :=
  match s.rst.trn[n].held with
  | [] => climb n false s
  | h :: _ =>
    if g.before = false ∧ g.after = false ∧ g.mates.all (fun m => m.1 != 15) = true ∧ h.dsi.wrap < 191 then
      let p := wrapGoal (h.dsi.wrap + 1)
      goPass n p (modRst n (fun r => { r with sweep := some { g with after := true, place := p } }) s)
    else sweepEnd n s

/-- Data sets held for what no one needs any more leave the ladder. -/
def purge (n : Trn) (s : State) : State :=
  let r := s.rst.trn[n]
  let hs := r.held.filter (fun h => needIn n h.dsi h.area h.ruling.gaps s)
  modRst n (fun r => { r with
    held := hs, retrying := r.retrying && !hs.isEmpty
    sweep := if hs.head? = r.held.head? then r.sweep else none }) s

/-- A place from which no data set is identified. -/
def noSet (n : Trn) (empty : Bool) (s : State) : State :=
  let r := s.rst.trn[n]
  match r.sweep with
  | some g => if empty then sweepOut n g s else s
  | none =>
    if r.retrying then (if empty then passOver n false s else s)
    else if !r.held.isEmpty then
      if empty then climb n false s else afterSet n false (modHeld n (fun hs => hs.map (fun x => { x with past := x.past + 1 })) s)
    else match s.trn[n].loading with
      | some l => loadStep n l (scanStep n l.scan empty none [] 0 s).1 s
      | none =>
        let x := feedScan n empty none [] 0 s
        afterSet n x.2 x.1

/-- The transport may read a data set. -/
def canRead (n : Trn) (s : State) : Bool :=
  s.trn[n].port == .up && domOn (halfOf n) s && !haltedSrc 19 s && !haltedSrc (11 + n.val) s && !s.faults.safe

/-- A data set passes under the head of a transport that is read: one pass over it, and what the ladder makes of it. -/
def restoreReads (n : Trn) (d : DataSetRead) (s : State) : State :=
  let s := purge n s
  match identify n d s with
  | none => noSet n (d.ids == []) s
  | some i =>
    let x := readPass n d s
    let h : HeldSet := { dsi := i, area := d.area, fails := if i.group = noGroup ∧ i.kind = 1 then allCodewords else x.1.1
                         wrong := x.1.2, pass := 1, past := 0, step := 1, averaged := false }
    let s := passedDs n i x.2
    match s.rst.trn[n].sweep with
    | some g => sweepSet n g h s
    | none => if s.rst.trn[n].retrying then retrySet n h s else firstSet n h s

/-- RESTORE_DATA_SET_READ: VRF and FMT rule on a data set of a transport that is read, for its load or for restore (R552,
R590, R674 to R683, R690 to R695, R699). -/
def execRestoreDataSetRead (n : Trn) (d : DataSetRead) (s : State) : Host.Outcome State Fault Refusal :=
  done (fun s =>
    let on : Bool := match s.trn[n].loading with
      | some l => l.phase == .reading
      | none => s.rst.trn[n].reading
    if canRead n s && on then restoreReads n d s else s) s

/-! ### Blocks (R456, R486, R499, R686, R690) -/

/-- The lowest unit that decrypts a block of the request. -/
def unitFor (t : Nat) (s : State) : Option (Fin 8) :=
  (List.finRange 8).find? (fun u => s.cip.unit[u].job == some (.decrypt t))

/-- The block's plaintext goes to CMP before its tag is compared (R486); injector 6 inverts the result (Table 19-6). -/
def decrypted (q : Request) (e : Envelope) (bs : List Byte) (s : State) : State :=
  let p := openBlock (reqKey q s) e bs
  let x := takeInjector 6 (fun a => decide (a.p2.toNat = q.trn.val)) s
  let ok := p.2 != x.1.isSome
  let s := count 0x8608 1 x.2
  let s := if ok then s else raise1 8 (leafCode 0 0) 0 [] (count 0x8610 1 s)
  settleReq q.ticket (modReq q.ticket (fun q => { q with
    plain := q.plain ++ [(p.1, ok)], pos := q.pos + bs.length, index := q.index + 1
    verdict := if ok then q.verdict else q.verdict ||| 3 }) s)

/-- RESTORE_BLOCK_DECRYPTED (R486, R499, R511). -/
def execRestoreBlockDecrypted (t : Nat) (s : State) : Host.Outcome State Fault Refusal :=
  done (fun s =>
    if !cipOn s then s
    else
      match unitFor t s, findReq t s with
      | some u, some q =>
        match q.env with
        | none => s
        | some e =>
          let n := blockLen q e (reqKey q s) q.pos s
          if !masksLast u (aesBlocks (n - 32)) s then s
          else
            let s := freeUnit u (spendMasks u (aesBlocks (n - 32)) s)
            match readRun q q.pos n s with
            | (none, s) => s
            | (some bs, s) =>
              if leAt bs 0 1 ≠ 1 ∨ leAt bs 1 1 ≠ q.index then
                settleReq t (modReq t (fun q => { q with broken := true, todo := [], got := q.pos }) s)
              else decrypted q e bs s
      | _, _ => s) s

/-- The lowest engine that decodes a block of the request. -/
def engineFor (t : Nat) (s : State) : Option (Fin 16) :=
  (List.finRange 16).find? (fun e => s.cmp.engine[e].job == some (.decode t))

/-- Original bytes of a block that failed its tests: as many as its header says, or what is left of the record; none of
their values is stated (R456, R690). -/
def corruptBytes (q : Request) (e : Envelope) (head : List Byte) (s : State) : List Byte × State :=
  let left := e.origLen - (q.delivered + q.carry.length)
  let say := leAt head 4 4
  let len := if q.decoded + 1 = e.blocks then left
    else if 0 < say ∧ say ≤ min 262144 left then say else min 262144 left
  ((List.range len).map (fun i => BitVec.ofNat 8 (Config.freeValue (s.free + i)).toNat), { s with free := s.free + len })

/-- A decoded block is delivered, with its verdict (R456, R690, R694). -/
def decoded (q : Request) (e : Envelope) (p : List Byte) (tag : Bool) (s : State) : State :=
  let s := count 0x8528 1 s
  let r := decodeBlock p
  let x := match r with
    | some bs => (bs, s)
    | none => corruptBytes q e p (count 0x8530 1 s)
  let s := modReq q.ticket (fun q => { q with
    plain := q.plain.drop 1, decoded := q.decoded + 1
    verdict := if r.isSome then q.verdict else q.verdict ||| 5
    good := if tag && r.isSome && q.good == q.delivered + q.carry.length then q.good + x.1.length else q.good }) x.2
  deliver q.ticket x.1 s

/-- RESTORE_BLOCK_DECODED (R456, R458, R686). -/
def execRestoreBlockDecoded (t : Nat) (s : State) : Host.Outcome State Fault Refusal :=
  done (fun s =>
    if !cmpOn s then s
    else
      match engineFor t s, findReq t s with
      | some g, some q =>
        match q.env, q.plain with
        | some e, (p, tag) :: _ =>
          if !outReady q s then s
          else settleReq t (decoded q e p tag (freeEngine g s))
        | _, _ => s
      | _, _ => s) s

/-- RESTORE_RECORD_DONE: the request's last writes and its result entry go out, and its completion slot is posted once they
are issued, acknowledged or written (R689, R690, R694, R712). -/
def execRestoreRecordDone (t : Nat) (s : State) : Host.Outcome State Fault Refusal :=
  done (fun s =>
    if supRuns s = false then s
    else
      let s := settleReq t (pumpRaw t s)
      let s := feedCached t 17 s
      match findReq t s with
      | none => s
      | some q => match q.code with
        | some c => if q.told && q.unacked == 0 then completeTicket t c (reqWords q) (removeReq t s) else s
        | none => s) s

/-! ### Indexing and rebuilding end (R682, R683, R695, R696, R710, R711) -/

/-- The next indexing or rebuild on TRN_n begins, or its requests go on. -/
def nextScan (n : Trn) (s : State) : State :=
  let s := modRst n (fun r => { r with scan := none }) s
  match s.rst.trn[n].scans with
  | (t, p) :: rest => startScan n t p (modRst n (fun r => { r with scans := rest }) s)
  | [] => serve n true s

/-- RESTORE_INDEX_DONE (R682, R683, R710). -/
def execRestoreIndexDone (n : Trn) (s : State) : Host.Outcome State Fault Refusal :=
  done (fun s =>
    match s.rst.trn[n].scan with
    | none => s
    | some x =>
      if supRuns s = false ∨ x.phase ≠ .ended ∨ x.purpose ≠ .index then s
      else if x.wraps = 0 then
        nextScan n (completeTicket x.ticket rNotfound [] (modRst n (fun r => { r with index := none }) s))
      else
        let s := modRst n (fun r => { r with index := r.index.map (fun i => { i with noEnd := x.endDsi.isNone }) }) s
        let i := s.rst.trn[n].index.getD {}
        let ws := [BitVec.ofNat 32 i.sessions.length, BitVec.ofNat 32 ((i.sessions.map (fun x => x.pieces.length)).sum),
          pack [(0, b2n i.noEnd), (1, b2n i.manifestCrc)]]
        nextScan n (completeTicket x.ticket (if i.overflow then rNores else rOk) ws s)) s

/-- The session list and the nonce floor that a rebuilt manifest carries (R696). -/
def rebuiltSession (cart : Nat) (x : Scan) : IdxSession :=
  let f := foundSession cart x
  let old := (x.newest.map (·.list)).getD []
  { f with floor := max ((x.newest.map (·.floor)).getD 0) (2 ^ 32 + x.inv), list := (old ++ f.list).eraseDups }

/-- The manifest of the interrupted session, END and the lead-out go out after the last data set (R550, R696). -/
def commitRebuild (n : Trn) (d : Dsi) (x : Scan) (f : IdxSession) (s : State) : State :=
  let cart := s.trn[n].cartId.toNat
  let first := (x.lastDsn.getD d.dsn) + 1
  let g := afterDs d
  let bytes := manifestBytes {
    sessionNo := f.no, nonceFloor := f.floor, cartridge := cart, firstDsn := f.dsn,
    prevDsn := (x.newest.map (·.dsn)).getD (2 ^ 48 - 1), prevWrap := (x.newest.map (·.wrap)).getD 0,
    prevLpos := (x.newest.map (·.lpos)).getD 0, sessions := f.list, sets := f.sets, pieces := f.pieces }
  let ms := max 1 ((bytes.length + dataAreaBytes - 1) / dataAreaBytes)
  let endDsn := first + ms + 2 * ((ms + 13) / 14)
  let back := 28710 * (endDsn - first)
  let endAt := Config.lposAt (BitVec.ofNat 32 g.2.2) (if wrapRev g.1 then -(back : Int) else back)
  let endDsi : Dsi :=
    { kind := 4, pos := 0xFF, k := 0, wrap := g.1, rewrite := 0, stream := 0xFF, dsn := endDsn, fill := 0,
      group := 2 ^ 48 - 1, lpos := endAt.toNat, sessionNo := f.no, cartridge := cart, streamSeq := 0,
      firstItem := 0xFFFFFFFF, bytesBefore := 0, recordAtStart := 2 ^ 48 - 1, linkDsn := first, linkWrap := g.1,
      linkLpos := g.2.2 }
  let sets := endDsn + 1 - first
  let s := sendLead .leadIn n (gateOn n (locateRead n (g.1, first, g.2.2) s))
  let s := emit (.session n first bytes (dsiBytes endDsi)) s
  let s := count 0x8900 (96 * sets) (count (0x8700 + 0x40 * n.val) (96 * 2 * rowBlocks * sets) s)
  gateOff n (sendLead .leadOut n
    (modTrn n (fun t => { t with nextSeq := t.nextSeq + BitVec.ofNat 24 (96 * rowBlocks * sets) }) s))

/-- The sessions that a rebuild found, newest first. -/
def foundAll (cart : Nat) (x : Scan) : List IdxSession :=
  (if x.last.isNone then [] else [rebuiltSession cart x]).filter (fun f => !f.pieces.isEmpty) ++ x.older

/-- RESTORE_REBUILD_DONE (R695, R696, R711). It waits while an extent for the index is waited for (R399). -/
def execRestoreRebuildDone (n : Trn) (s : State) : Host.Outcome State Fault Refusal :=
  done (fun s =>
    match s.rst.trn[n].scan with
    | none => s
    | some x =>
      match x.purpose with
      | .rebuild commit =>
        if supRuns s = false ∨ x.phase ≠ .ended then s
        else
          let cart := s.trn[n].cartId.toNat
          let new := foundAll cart x
          let grown := modRst n (fun r => { r with index := some { (r.index.getD {}) with
            sessions := new ++ (r.index.getD {}).sessions } }) s
          match fitIndex n grown with
          | none => s
          | some s =>
            let writes := commit && x.last.isSome && x.endDsi.all (fun d => x.newest.all (fun m => decide (m.no ≠ d.sessionNo)))
            let f := rebuiltSession cart x
            let s := match writes, x.last with
              | true, some d => commitRebuild n d x f s
              | _, _ => s
            let floor := if writes then f.floor else 0
            let ws := [BitVec.ofNat 32 ((new.map (fun f => f.pieces.length)).sum), BitVec.ofNat 32 x.lost,
              BitVec.ofNat 32 floor, BitVec.ofNat 32 (floor / 2 ^ 32)]
            nextScan n (completeTicket x.ticket rOk ws s)
      | _ => s) s

end Sys2Proof.Machine
end

