-- ==== Sys2Proof/Machine/FamStrm.lean ====
section
/-!
DEFINITION. The STREAM family: opening, rings, flushing, closing, the set (ch14, R635 to R640).
-/
namespace Sys2Proof.Machine
open Sys2Proof

/-- The stream that P1 [5:0] names. -/
def strmOf (m : Msg) : Strm := Fin.ofNat 64 (m.f 1 0 6)

/-- A domain that streams need is off (ch14, Commands). -/
def strmOff (s : State) : Bool := !domOn 5 s || !domOn 6 s || !domOn 7 s

/-- A member that is not UP, or is DEGRADED. -/
def badMember (set : Nat) (s : State) : Bool :=
  allTrn.any (fun n => set / 2 ^ n.val % 2 == 1 && (s.trn[n].port != .up || s.trn[n].degraded))

/-- The lowest member of a set. -/
def lowestMember (set : Nat) : Nat := ((List.range 8).find? (fun n => set / 2 ^ n % 2 == 1)).getD 0

/-- The profile may not be bound (R462). -/
def cannotBind (k : Nat) (s : State) : Bool :=
  match getN s.cmp.profile k none with
  | none => true
  | some p => p.mode == 1 && (List.range 16).any (fun j => p.mask.getLsbD (16 + j) && (match getN s.cmp.table j none with
      | none => true
      | some t => ((tableOf t).take (p.width + 1)).all (fun l => l == 0)))

/-- STREAM.OPEN's binding, with the stream's cipher context (R484, R598, R600, R635). -/
def openStream (m : Msg) (s : State) : State :=
  let i := strmOf m
  let set := m.f 2 0 8
  let s := modStream i (fun x => { x with
    state := .isOpen, staged := m.f 1 8 1 == 1, set := BitVec.ofNat 8 set, profile := m.f 2 16 5, keyId := m.p 3
    next := m.pair 4, seq := 0, turn := lowestMember set, last := none, openDs := none, outExt := none
    addedNow := 0, added := [] }) s
  let d := drawSession i 8 s
  { d.2 with cip.ctx := upd d.2.cip.ctx i (fun _ => some {
      keyId := m.p 3, session := BitVec.ofNat 29 d.1, count := BitVec.ofNat 64 (setFloor (BitVec.ofNat 8 set) d.2)
      blocks := 0, reseeds := 0, old := [] }) }

def streamOpen : Cmd := {
  opcode := 0x0301, lens := fun _ => [5], bits := fun _ => [0x13F, 0x1F00FF, 0xFFFFFFFF, 0xFFFFFFFF, 0xFFFF]
  param := fun m _ => decide (m.f 2 0 8 = 0) || m.p 3 == 0 || m.p 3 == 0xFFFFFFFF || decide (m.pair 4 = noRecord)
  state := fun m s => strmOff s || s.ing.stream[strmOf m].state != .closed || badMember (m.f 2 0 8) s ||
    cannotBind (m.f 2 16 5) s
  act := fun m s => (rOk, [], openStream m s) }

/-- STREAM.OPEN (R635). -/
def execStreamOpen (ch : Chan) (s : State) : Host.Outcome State Fault Refusal := doneS (runCommand streamOpen ch) s

/-! ### Rings (R295, R636) -/

/-- Completions that the stream's records and queue pairs may still need (R301). -/
def reservedNow (i : Strm) (s : State) : Nat :=
  let m := s.ing.stream[i]
  let recs := (m.order.map (fun r => match getRec r s with
    | some v => 1 + b2n v.stagedDue
    | none => 0)).sum
  let helds := (m.held.filter (fun h => decide (h.2.kind = 1 ∨ h.2.flags % 2 = 1))).length
  let qps := ((List.finRange 2).map (fun p => ((List.finRange 64).map (fun k => match s.net.port[p].qp[k] with
    | some q => if q.stream = i then q.credits + (match q.msg with
        | some x => b2n x.credited
        | none => 0) else 0
    | none => 0)).sum)).sum
  recs + helds + qps * cplNeed m

/-- The rings that STREAM.ATTACH names. -/
def ringsIn (m : Msg) : Rings :=
  { hasSq := m.f 1 8 1 == 1, cqStg := m.f 1 9 1 == 1, sqBase := m.pair 2, sqLog := m.f 4 0 5, cqBase := m.pair 5
    cqLog := m.f 4 8 5 }

/-- A breach of R295, or a field that is not zero where P1 makes it unused (R636). -/
def badRings (r : Rings) : Bool :=
  decide (r.cqLog < 6 ∨ 16 < r.cqLog) ||
  (if r.hasSq then decide (r.sqLog < 6 ∨ 16 < r.sqLog ∨ r.sqBase % 4096 ≠ 0 ∨ r.sqBase + 64 * 2 ^ r.sqLog > 2 ^ 64)
   else decide (r.sqBase ≠ 0 ∨ r.sqLog ≠ 0)) ||
  (if r.cqStg then decide (r.cqBase ≠ 0) else decide (r.cqBase % 4096 ≠ 0 ∨ r.cqBase + 32 * 2 ^ r.cqLog > 2 ^ 64))

/-- BAR2 offset of a stream's CQ in staging (R636). -/
def cqOffset (i : Strm) : Nat := 0x05000000 + i.val * 0x200000

/-- The rings are attached, and what was held is posted (R636). Answers the number of held completions posted. -/
def attach (i : Strm) (r : Rings) (s : State) : Nat × State :=
  let was := s.ing.stream[i].held.length
  let back := s.ing.stream[i].state == .detached
  let s := if r.cqStg then writeLines (cqOffset i) (List.replicate (32 * 2 ^ r.cqLog) 0) s else s
  let s := modStream i (fun m => { m with
    rings := some r, sqTail := 0, sqHead := 0, cqTail := 0, cqHead := 0, phase := true
    state := if back then (if m.closeTicket.isSome then .closing else .isOpen) else m.state }) s
  let s := modStream i (fun m => { m with reserved := reservedNow i s }) s
  let s := postHeld i was s
  let n := was - s.ing.stream[i].held.length
  (n, postBuffers (resumeStream i s))

def streamAttach : Cmd := {
  opcode := 0x0302, lens := fun _ => [6], bits := fun _ => [0x33F, 0xFFFFFFFF, 0xFFFFFFFF, 0x1F1F]
  param := fun m _ => badRings (ringsIn m)
  state := fun m s =>
    let x := s.ing.stream[strmOf m]
    strmOff s || x.state == .closing || (x.rings.isSome && x.state != .detached)
  act := fun m s =>
    let r := ringsIn m
    let x := attach (strmOf m) r s
    (rOk, [BitVec.ofNat 32 (if r.cqStg then cqOffset (strmOf m) else 0), BitVec.ofNat 32 x.1], x.2) }

/-- STREAM.ATTACH (R636). -/
def execStreamAttach (ch : Chan) (s : State) : Host.Outcome State Fault Refusal := done (runCommand streamAttach ch) s

/-! ### Flush and close (R606, R637, R638) -/

/-- The stream's open data set closes short at the next row boundary (R606). -/
def closeOpenDs (i : Strm) (s : State) : State :=
  match s.ing.stream[i].openDs with
  | some (k, dsn) => if h : k < 8 then
      (if s.fmt.trn[k].cur = some dsn then modFmt ⟨k, h⟩ (fun f => { f with closing := true }) s else s) else s
  | none => s

def streamFlush : Cmd := {
  opcode := 0x0303, lens := fun _ => [1], bits := fun _ => [0x3F]
  state := fun m s => strmOff s || s.ing.stream[strmOf m].state != .isOpen
  long := fun m => some (.flush (strmOf m))
  start := fun m t s => closeOpenDs (strmOf m)
    (modStream (strmOf m) (fun x => { x with flushes := x.flushes ++ [(t, x.last)] }) s) }

/-- STREAM.FLUSH (R637). -/
def execStreamFlush (ch : Chan) (s : State) : Host.Outcome State Fault Refusal := done (runCommand streamFlush ch) s

def streamClose : Cmd := {
  opcode := 0x0304, lens := fun _ => [1], bits := fun _ => [0x3F]
  state := fun m s => strmOff s || s.ing.stream[strmOf m].state != .isOpen
  long := fun m => some (.close (strmOf m))
  start := fun m t s =>
    let i := strmOf m
    resumeStream i (closeOpenDs i (modStream i (fun x => { x with state := .closing, closeTicket := some t }) s)) }

/-- STREAM.CLOSE (R638). -/
def execStreamClose (ch : Chan) (s : State) : Host.Outcome State Fault Refusal := done (runCommand streamClose ch) s

/-- A flush has nothing left to wait for. -/
def flushMet (i : Strm) (last : Option Nat) (s : State) : Bool :=
  match last with
  | none => true
  | some n => s.ing.stream[i].order.all (fun r => match getRec r s with
    | some v => decide (n < v.number)
    | none => true)

/-- The two words of a record number. -/
def numberWords (n : Nat) : List Word := [BitVec.ofNat 32 n, BitVec.ofNat 32 (n / 2 ^ 32)]

/-- STREAM_FLUSH_DONE: every flush of the stream whose records are final completes (R637). -/
def execStreamFlushDone (st : Strm) (s : State) : Host.Outcome State Fault Refusal :=
  done (fun s =>
    if !supRuns s then s
    else
      let met := s.ing.stream[st].flushes.filter (fun f => flushMet st f.2 s)
      let s := modStream st (fun m => { m with flushes := m.flushes.filter (fun f => !met.contains f) }) s
      met.foldl (fun s f => completeTicket f.1 rOk (numberWords (f.2.getD noRecord)) s) s) s

/-- STREAM_CLOSE_DONE: the context and the rings go, and the stream is CLOSED (R638), also where a halt or the safe state ended
its command (log 82). -/
def execStreamCloseDone (st : Strm) (s : State) : Host.Outcome State Fault Refusal :=
  doneS (fun s =>
    let m := s.ing.stream[st]
      if !supRuns s || m.state != .closing || !m.order.isEmpty || !m.pulls.isEmpty || !m.held.isEmpty || !m.flushes.isEmpty then s
      else
        let es := (m.outExt.map (fun x => [x.1])).getD []
        let s := modStream st (fun m => { m with
          state := .closed, closeTicket := none, rings := none, reserved := 0, outExt := none, openDs := none
          noTransport := false }) s
        let s := collect es { s with cip.ctx := upd s.cip.ctx st (fun _ => none) }
        match m.closeTicket with
        | some t => completeTicket t rOk [BitVec.ofNat 32 m.accepted.toNat] s
        | none => s) s

/-! ### STREAM.SET and STREAM.INFO (R627, R639, R640) -/

/-- The stream's open data set lies on a transport that a new set leaves out (R627). -/
def openOutside (i : Strm) (set : Nat) (s : State) : Bool := match s.ing.stream[i].openDs with
  | some (k, _) => decide (set / 2 ^ k % 2 = 0)
  | none => false

def streamSet : Cmd := {
  opcode := 0x0305, lens := fun _ => [2], bits := fun _ => [0x3F, 0xFF]
  param := fun m _ => m.p 2 == 0
  state := fun m s =>
    let x := s.ing.stream[strmOf m]
    strmOff s || x.state == .closed || badMember ((m.p 2).toNat &&& (~~~x.set).toNat) s
  act := fun m s =>
    let i := strmOf m
    let set := m.f 2 0 8
    (rOk, [], modStream i (fun x => { x with set := BitVec.ofNat 8 set, turn := lowestMember set })
      (if openOutside i set s then closeOpenDs i s else s)) }

/-- STREAM.SET (R627, R639). -/
def execStreamSet (ch : Chan) (s : State) : Host.Outcome State Fault Refusal := doneS (runCommand streamSet ch) s

def stateCode : StrmState → Nat
  | .closed => 0
  | .isOpen => 1
  | .detached => 2
  | .closing => 3

/-- DSNs of the stream in windows. -/
def dsnsInWindows (i : Strm) (s : State) : Nat :=
  (allTrn.map (fun n => (s.fmt.trn[n].window.filter (fun d =>
    d.kind == .data && d.stream == i.val && d.copies.any (fun c => decide (0 < c.built)))).length)).sum

def streamWords (i : Strm) (s : State) : List Word :=
  let m := s.ing.stream[i]
  [pack [(0, stateCode m.state), (8, b2n m.staged), (9, b2n m.noTransport), (16, m.profile)],
   pack [(0, m.set.toNat), (8, (m.set &&& ofBits 8 (fun k => (getN s.trn k {}).degraded)).toNat)], m.keyId] ++
  numberWords m.next ++ numberWords m.seq ++
  [BitVec.ofNat 32 ((streamBacklog i s + 1023) / 1024), BitVec.ofNat 32 (dsnsInWindows i s)]

def streamInfo : Cmd := {
  opcode := 0x0306, safe := true, lens := fun _ => [1], bits := fun _ => [0x3F]
  act := fun m s => (rOk, streamWords (strmOf m) s, s) }

/-- STREAM.INFO (R640). -/
def execStreamInfo (ch : Chan) (s : State) : Host.Outcome State Fault Refusal := done (runCommand streamInfo ch) s

end Sys2Proof.Machine
end

