-- ==== Sys2Proof/Machine/FamDomain.lean ====
section
/-!
DEFINITION. Resets of single blocks: domain switches and gating (ch03), parity of configuration registers (ch04), recovery of
halted blocks (ch05), and errors of internal SRAM (ch05 Table 05-2).
-/
namespace Sys2Proof.Machine
open Sys2Proof

/-! ### Injectors by target (R788, Table 19-6) -/

/-- The summary source of the block that an injector targets. -/
def injectorBlock (a : Injector) : Nat :=
  match a.code with
  | 3 => 2
  | 4 => 7
  | 5 => 19
  | 6 => 8
  | 7 => 11 + a.p2.toNat % 8
  | 8 => 22
  | 9 => 9
  | _ => 26

/-- The block's injectors are disarmed. -/
def disarmBlock (src : Nat) (s : State) : State := disarm (fun a => decide (injectorBlock a = src)) s

/-! ### Blocks at their reset values (R98, R222, R384, R444, R464, R498, R668) -/

/-- The summary source of the block that owns a configuration register; 26 for SUP's (R165, R216). -/
def configOwner (off : Nat) : Nat :=
  if off < 0x2F00 then 26
  else if off < 0x3000 then 1
  else if off < 0x5000 then 2
  else
    let src := (off - 0x5000) / 0x80
    if src = 0 ∨ 21 ≤ src then 26 else src

/-- The registers of a source in a switched domain: cause 0, every mask bit set, matching parity (R98, R156, R165). -/
def resetSource (src : Nat) (s : State) : State :=
  dropParity (fun k => decide (configOwner k = src)) { s with
    irq.cause := updN s.irq.cause src (fun _ => 0)
    irq.mask := updN s.irq.mask src (fun _ => getN leafBits src 0)
    irq.trn := if 11 ≤ src then updN s.irq.trn (src - 11) (fun _ => {}) else s.irq.trn
    faults.parityMasks := s.faults.parityMasks.filter (fun m => decide (m.1 ≠ src)) }

/-- An Ethernet port's link, lanes, counters, traffic and tables are gone; its settings stay as `keep` says. RDMA's counters
stay (R156, R183). -/
def resetPort (keep : Bool) (p : Port) (s : State) : State :=
  let s := resetLanes (fun i => decide (i / 8 = 16 + p.val))
    (dropCounters (0x9400 + 0x40 * p.val) (0x9440 + 0x40 * p.val)
      (dropCounters (0x8300 + 0x80 * p.val) (0x8348 + 0x80 * p.val) s))
  let s : State := { s with dbg.locked := s.dbg.locked.filter (fun l => decide (l / 8 ≠ 16 + p.val)) }
  modPort p (fun e => if keep then { e with
      link := false, aligned := false, dad := 0, pausedTx := 0, pausedRx := 0, longTx := false, longRx := false
      holdRuns := false, qp := Vector.replicate 64 none, neigh := [], txq := [], rx := [], echoes := [] }
    else {}) { s with dbg.loopEth := s.dbg.loopEth.set p.val 0 p.isLt }

/-- Every queue pair of the port ceases to exist: credits and outbound messages end, and its partition returns to free but
for the extents that records still to be coded stand in (R384). -/
def dropQps (p : Port) (s : State) : State :=
  (List.finRange 64).foldl (fun s i => match getQp p i s with
    | none => s
    | some q =>
      let s := dropOutbound p i (dropCredits p i s)
      let held := s.ing.recs.flatMap (fun x => match x.2 with
        | some v => extentsOf (landingRanges v)
        | none => [])
      let es := ((List.range q.mib).map (fun k => q.base + k)).filter (fun e => !held.contains e)
      freeExtents es (modPort p (fun e => { e with qp := upd e.qp i (fun _ => none) }) (dropFrames true p i s))) s

/-- CMP: engines and counters; the tables of which SUP keeps copies are loaded again as `loaded` says (R444). -/
def resetCmp (reload : Bool) (s : State) : State :=
  let s := dropCounters 0x8500 0x8540 (disarmBlock 7 s)
  { s with
    cmp.engine := Vector.replicate 16 {}
    cmp.turn := 63
    cmp.loaded := if reload then ofBits 16 (fun k => (getN s.cmp.table k none).isSome) else 0 }

/-- RDMA: queue pairs, RDMA_ERR_INFO and its counters (R384). -/
def resetRdma (s : State) : State :=
  let s := dropQps 1 (dropQps 0 s)
  dropCounters 0x8348 0x8358 (dropCounters 0x83C8 0x83D8 { s with net.errInfo := 0 })

/-- CIP, and KEY as `key` says: units, data-key slots and counters. Requests that were bound bind anew. -/
def resetCip (key : Bool) (s : State) : State :=
  let s := dropCounters 0x8600 (if key then 0x8630 else 0x8620) (disarmBlock 8 (if key then disarmBlock 9 s else s))
  finishClears { s with
    cip.unit := Vector.replicate 8 {}
    cip.slot := Vector.replicate 16 {}
    cip.turn := 63
    rst.reqs := s.rst.reqs.map (fun q => { q with slot := none }) }

/-- FMT: its state for every transport; data sets whose rows VRF still rules on stay with VRF. -/
def resetFmt (s : State) : State :=
  let s := dropCounters 0x8900 0x8930 s
  { s with fmt.trn := s.fmt.trn.map (fun f => { window := f.window, unruled := f.unruled, deep := f.deep }) }

/-- A VRF half's own state: nothing is read and the deep decoders hold nothing. -/
def resetHalf (h : Nat) (s : State) : State :=
  (halfOfDomain h).foldl (fun s n => modFmt n (fun f => { f with deep := 0 })
    (modRst n (fun r => { r with reading := false, retrying := false }) s)) (disarm (fun a => decide (a.code = 5) &&
      (halfOfDomain h).any (fun n => decide (n.val = a.p2.toNat))) s)

/-- The counters of TRN_n and of its lanes. -/
def dropTrnCounters (n : Trn) (s : State) : State :=
  dropCounters (0x9000 + 112 * n.val) (0x9070 + 112 * n.val)
    (dropCounters (0x8700 + 0x40 * n.val) (0x8728 + 0x40 * n.val) s)

/-- A transport port: the link is down, nothing is known of the far side, and the commands that drove it end; XPORT
parameters stay as `keep` says. -/
def resetTrn (keep : Bool) (st : PortState) (n : Trn) (s : State) : State :=
  let s := completeWhere (fun w => trnWork n w || w == .linkStart n) rMedia [] s
  let s := dropTrnCounters n (disarmBlock (11 + n.val) (dropReading n (dropSession n hasUnruled s)))
  let s := resetLanes (fun i => decide (i / 14 = n.val)) s
  let s := { s with
    dbg.loopTrn := clrBit s.dbg.loopTrn n.val
    dbg.locked := s.dbg.locked.filter (fun l => decide (l / 14 ≠ n.val ∨ 112 ≤ l)) }
  let s := modTrn n (fun t =>
    let new : TrnPort := { port := st }
    if keep then { new with accel := t.accel, loadTimeout := t.loadTimeout, offtrack := t.offtrack } else new) s
  modGov n (fun g => { g with code := 255, state := .parked, parked := false, locating := false, stopDue := false, restartDue := false }) s

/-- A stopped member with a session that stands off its park point is located to it, once its half is on (R101, R668). -/
def relocate (n : Trn) (s : State) : State :=
  let g := s.gov.mem[n]
  if s.fmt.trn[n].session.isSome && s.trn[n].motion == 0 && g.state == .held && !g.parked && !g.locating then
    if domOn (halfOf n) s then locatePark n s.trn[n].wrap g.stopLpos s else wakeHalf n s
  else s

/-- GOV: its registers and its reckoning start anew; each stopped member is located to its park point before it can restart
(R668). -/
def resetGov (s : State) : State :=
  let s := dropCounters 0x8A00 0x8A20 s
  let s := allTrn.foldl (fun s n => modGov n (fun g => { g with
    code := 255, fill := 0, group := 0, setPoint := 0, kReq := 0, below := 0, stopDue := false, restartDue := false }) s) s
  allTrn.foldl (fun s n => relocate n s) { s with gov.extHold := false, gov.extEvent := false }

/-! ### Domain switches (R98 to R103, R116 to R120, R135, R281) -/

/-- The known-answer tests of a block that loses its domain end with E_FAULT. -/
def endKats (p : Nat → Bool) (s : State) : State :=
  completeWhere (fun w => match w with
    | .kat u => p u
    | _ => false) rFault [] s

/-- What a domain holds takes its reset values (R98). -/
def clearDomain (d : Nat) (s : State) : State :=
  match d with
  | 2 => completeWhere (fun w => w = .portEnable 0) rMedia [] (resetPort false 0 { s with power.pll := clrBit s.power.pll 2 })
  | 3 => completeWhere (fun w => w = .portEnable 1) rMedia [] (resetPort false 1 { s with power.pll := clrBit s.power.pll 3 })
  | 5 => endKats (fun u => decide (u < 16)) (resetCmp false { s with cmp.enabled := false })
  | 6 => endKats (fun u => decide (16 ≤ u)) (resetCip true { s with cip.enabled := false, cip.entropyOk := false })
  | 7 =>
    let s := allTrn.foldl (fun s n => if s.trn[n].loaded = .writing then
      modTrn n (fun t => { t with loaded := .nothing }) (dropSession n hasUnruled (gateOff n s)) else s) s
    resetFmt { s with fmt.enabled := false }
  | 8 => resetHalf 8 s
  | 9 => resetHalf 9 s
  | _ => (halfOfDomain d).foldl (fun s n =>
      resetTrn false .off n { s with power.pll := clrBit s.power.pll (4 + n.val) }) s

/-- A domain is off: its contents and the registers of its blocks have their reset values (R98, R156, R165). -/
def domainOff (d : Nat) (s : State) : State := (domainSources d).foldl (fun s k => resetSource k s) (clearDomain d s)

/-- Transports of a half that waited for it go on: loads, requests, the way to a park point; a member waits for its restart
at the next evaluation (R101, R656). -/
def serveHalf (d : Nat) (s : State) : State :=
  (halfOfDomain d).foldl (fun s n => relocate n (serve n true (loadLocate n s))) s

/-- A domain is ready: its blocks start from their reset values, and Fjarma enables them and brings back what it keeps copies
of (R98, Table 03-4). -/
def domainOn (d : Nat) (s : State) : State :=
  let s := (domainSources d).foldl (fun s k => resetSource k s) s
  match d with
  | 2 => { s with power.pll := setBit s.power.pll 2 }
  | 3 => { s with power.pll := setBit s.power.pll 3 }
  | 5 => resetCmp true { s with cmp.enabled := true }
  | 6 => { s with cip.enabled := true, cip.entropyOk := true }
  | 7 => { s with fmt.enabled := true }
  | 8 => serveHalf 8 s
  | 9 => serveHalf 9 s
  | _ => (halfOfDomain d).foldl (fun s n =>
      modTrn n (fun t => { t with port := .idle }) { s with power.pll := setBit s.power.pll (4 + n.val) }) s

/-- Every transport of the half stands still and has not been told to move, so that nothing there needs the half (R101). -/
def halfStill (d : Nat) (s : State) : Bool :=
  (halfOfDomain d).all (fun n =>
    let g := s.gov.mem[n]
    s.trn[n].motion == 0 && (g.state == .parked || g.state == .held) && !g.locating && !s.rst.trn[n].reading &&
      s.trn[n].loading.isNone && s.trn[n].unloading.isNone)

/-- The switch's command completes with PD_STAT.ON in W2, unless the safe state ended it (R274, R281). -/
def endSwitch (w : DomSwitch) (code : Nat) (s : State) : State :=
  match w.ticket with
  | none => s
  | some t =>
    if (ticketsOf (fun l => l == .domain w.dom w.on) s).contains t then completeTicket t code [w32 s.power.on.toNat] s else s

/-- DOMAIN_SWITCH_START: the first switch of the queue, its precondition looked at again (R116, R118, R119, R281). -/
def execDomainSwitchStart (s : State) : Host.Outcome State Fault Refusal :=
  done (fun s =>
    match s.power.queue, s.power.switching with
    | w :: rest, none =>
      if !supRuns s then s
      else
        let s := { s with power.queue := rest }
        if domOn w.dom s = w.on then endSwitch w rOk s
        else if w.on = false ∧ (offAllowed w.dom s = false ∨ (w.ticket.isNone = true ∧ halfStill w.dom s = false)) then
          endSwitch w rState s
        else if w.on then { s with power.switching := some w }
        else { s with power.switching := some w, power.on := clrBit s.power.on w.dom }
    | _, _ => s) s

/-- DOMAIN_SWITCH_DONE (R98, R100, R103). -/
def execDomainSwitchDone (s : State) : Host.Outcome State Fault Refusal :=
  doneS (fun s =>
    match s.power.switching with
    | none => s
    | some w =>
      let s : State := { s with power.switching := none }
      let s := if w.on then domainOn w.dom { s with power.on := setBit s.power.on w.dom } else domainOff w.dom s
      let s := if w.ticket.isNone then setLeaf 19 0 s else s
      endSwitch w rOk s) s

/-- The blocks whose domain did not reach ready, as summary sources: a VRF half is VRF's (R135; log 172). -/
def failedBlocks (d : Nat) : List Nat := if d = 8 ∨ d = 9 then [19] else domainSources d

/-- The blocks of the domain halt at level 2; answers the records failed (R220). -/
def haltBlocks (bs : List Nat) (s : State) : List Nat × State :=
  bs.foldl (fun r b => let h := haltBlock b r.2; (r.1 ++ h.1, h.2)) ([], s)

/-- PD_FAIL (R135): the domain stays off and clamped, and the event is a level-2 fault of CLK that halts the domain's blocks
(log 172). -/
def execPdFail (s : State) : Host.Outcome State Fault Refusal :=
  done (fun s =>
    match s.power.switching with
    | none => s
    | some w =>
      if !w.on then s
      else
        let s : State := { s with power.switching := none }
        let h := haltBlocks (failedBlocks w.dom) (setLeaf 23 1 s)
        endSwitch w rFault (queueFault (faultNow 2 23 (leafCode 0 1) 0 h.1 s) h.2)) s

/-- AUTO_GATE_OFF: GOV asks for the half's switch-off once its transports have stood still for 10 s (R101). -/
def execAutoGateOff (half : Fin 2) (s : State) : Host.Outcome State Fault Refusal :=
  done (fun s =>
    let d := 8 + half.val
    if s.power.autoVrf && govOn s && domOn d s && offAllowed d s && halfStill d s &&
        !(s.power.queue ++ s.power.switching.toList).any (fun w => decide (w.dom = d)) then queueSwitch d false none s
    else s) s

/-! ### Parity of configuration registers (R163 to R165, R216) -/

/-- The RW bits of a configuration register that the checker visits; none where the offset is no such register (R164). -/
def configBits (off : Nat) : Option Word :=
  let src := (off - 0x5000) / 0x80
  let r := off % 0x80
  if !implemented off then none
  else if off = 0x14 then some 0x007FFFFF
  else if off = 0x24 then some 0x0FFFFFFF
  else if off = 0x28 then some 0x0002FFFF
  else if off = 0x2004 then some 0xFFFFFFFF
  else if off = 0x2F00 then some 0xFFFFFFFC
  else if off = 0x2F04 ∨ off = 0x2F08 then some 0xFFFFFFFF
  else if off = 0x2F0C then some 1
  else if 0x4000 ≤ off ∧ off < 0x5000 then
    match off % 0x200 with
    | 0x00 => some 0xFFFFF000
    | 0x04 => some 0xFFFFFFFF
    | 0x08 => some 0xF
    | 0x0C => some 0xFFF
    | 0x14 => some 1
    | _ => none
  else if 0x5000 ≤ off ∧ off < 0x5E00 then
    if r = 0x04 then some (getN leafBits src 0)
    else match src, r with
      | 6, 0x40 => some 1
      | 6, 0x4C => some 0xFFFCFFFF
      | 6, 0x50 => some 0xFFFFFFC0
      | 6, 0x54 => some 0x1F
      | 27, 0x0C => some 0xFFFFFF
      | 27, 0x10 => some 0xFFFFFF
      | 27, 0x18 => some 0xFFFFFFFF
      | 27, 0x1C => some 0xFFFFFFFF
      | 27, 0x20 => some 0xFFFFFFFF
      | k, r => if 11 ≤ k ∧ k < 19 then
          (match r with
            | 0x14 => some 0x7F
            | 0x24 => some 0x7
            | 0x34 => some 0xF
            | _ => none)
        else none
  else none

/-- The register is a cause mask. -/
def isMask (off : Nat) : Bool :=
  let src := (off - 0x5000) / 0x80
  decide (0x5000 ≤ off) && (decide (off % 0x80 = 4) ||
    (decide (11 ≤ src ∧ src < 19) && [0x14, 0x24, 0x34].contains (off % 0x80)))

/-- The register's domain is on, so that the checker visits it. -/
def configOn (off : Nat) (s : State) : Bool := match regDomain off with
  | some d => domOn d s
  | none => true

/-- Bits of a configuration register flip where they are stored: the register holds them, and its parity no longer matches
when their number is odd (R163, R164). -/
def upsetReg (off : Nat) (flips rw : Word) (s : State) : State :=
  let f := flips &&& rw
  if f = 0 then s
  else
    let s := storeReg .sup off (bar0View .sup off s ^^^ f) s
    if popcount f % 2 = 0 then s
    else { s with regs.badParity :=
      if s.regs.badParity.contains off then s.regs.badParity.filter (fun k => decide (k ≠ off)) else s.regs.badParity ++ [off] }

/-- A mismatch is reported once: SUP's at level 3, another block's at level 2, with the offset (R165, R216). -/
def reportParity (off : Nat) (s : State) : State :=
  let s : State := { s with regs.parityReported := s.regs.parityReported ++ [off] }
  let own := configOwner off
  if own = 26 then raise3 26 (leafCode 0 3) (w32 off) s
  else
    let s : State := if isMask off then { s with faults.parityMasks := s.faults.parityMasks ++ [(own, off)] } else s
    raise2 own (leafCode 0 31) own (w32 off) s

/-- PARITY_CHECKER_VISIT: `flips` are the upsets since the last visit. -/
def execParityCheckerVisit (off : Nat) (flips : Word) (s : State) : Host.Outcome State Fault Refusal :=
  done (fun s =>
    match configBits off with
    | none => s
    | some rw =>
      if resetHeld s || !s.power.cclk || !configOn off s then s
      else
        let s := upsetReg off flips rw s
        if s.regs.badParity.contains off && !s.regs.parityReported.contains off then reportParity off s else s) s

/-! ### Recovery (R222 to R224, R287, R498) -/

/-- A struck mask returns to its reset value, every bit set (R222). -/
def resetMask (off : Nat) (s : State) : State :=
  match configBits off with
  | some w => dropParity (fun k => decide (k = off)) (storeReg .sup off w s)
  | none => s

/-- The halt of `src` ends: a mask whose own mismatch struck it returns to its reset value, and mismatches may be reported
anew (R165, R222). -/
def endHalt (src : Nat) (s : State) : State :=
  let s := (s.faults.parityMasks.filter (fun m => decide (m.1 = src))).foldl (fun s m => resetMask m.2 s) s
  { s with
    faults.halted := clrBit s.faults.halted src
    faults.parityMasks := s.faults.parityMasks.filter (fun m => decide (m.1 ≠ src))
    regs.parityReported := s.regs.parityReported.filter (fun k => decide (configOwner k ≠ src)) }

/-- The block of `src` takes its reset values, is programmed again by Fjarma, and works; KEY's recovery is CIP's too
(R222, R287). -/
def recoverBlock (src : Nat) (s : State) : State :=
  let s := endHalt src s
  match src with
  | 3 => resetPort true 0 (dropQps 0 s)
  | 4 => resetPort true 1 (dropQps 1 s)
  | 5 => resetRdma s
  | 7 => resetCmp (domOn 5 s) s
  | 8 => resetCip false s
  | 9 => resetCip true (endHalt 8 s)
  | 10 => resetFmt s
  | 19 => dropCounters 0x8B00 0x8B40 (serveHalf 9 (serveHalf 8 (disarmBlock 19 (resetHalf 9 (resetHalf 8 s)))))
  | 20 => resetGov s
  | k => if h : 11 ≤ k ∧ k < 19 then
      resetTrn true (if domOn (tlDomain (k - 11)) s then .idle else .off) ⟨k - 11, by omega⟩ s else s

/-- Open streams' contexts are drawn anew after CIP lost them (R481, R484). -/
def reseedAll (s : State) : State :=
  allStrm.foldl (fun s i => if s.cip.ctx[i].isSome then reseed i s else s) s

/-- RECOVER_DONE: `ok` is false where KEY's start-up tests fail again (R498). -/
def recovered (src : Nat) (ok : Bool) (t : Nat) (s : State) : State :=
  let s := recoverBlock src s
  let finish (s : State) : State := completeTicket t rOk [w32 s.faults.halted.toNat] s
  if src = 8 then finish (if s.cip.entropyOk && !haltedSrc 9 s then reseedAll s else s)
  else if src ≠ 9 then finish s
  else if ok then finish (reseedAll { s with cip.entropyOk := true })
  else finish (raise2 9 (leafCode 0 5) 9 0 (count 0x8628 1 { s with cip.entropyOk := false }))

/-- The recovery in flight of the lowest ticket. -/
def recovering (s : State) : Option (Nat × Nat) :=
  (List.range 64).findSome? (fun t => match (getN s.mbx.ticket t {}).work with
    | some (.recover src) => some (t, src)
    | _ => none)

/-- RECOVER_DONE (R222 to R224, R287). -/
def execRecoverDone (ok : Bool) (s : State) : Host.Outcome State Fault Refusal :=
  doneS (fun s =>
    match recovering s with
    | some (t, src) => if supRuns s then recovered src ok t s else s
    | none => s) s

/-! ### Internal SRAM (Table 05-2) -/

/-- The SRAM is powered and clocked. -/
def sramOn (d : Option Nat) (s : State) : Bool := s.power.cclk && !resetHeld s && (match d with
  | some d => domOn d s
  | none => true)

/-- SRAM_UE: a level-4 fault (R217, R229). -/
def execSramUe (u : SramUnit) (s : State) : Host.Outcome State Fault Refusal :=
  done (fun s =>
    match u with
    | .dma => if sramOn none s then raise4 2 (leafCode 0 4) s else s
    | .cmp => if sramOn (some 5) s then raise4 7 (leafCode 0 2) s else s
    | .cip => if sramOn (some 6) s then raise4 8 (leafCode 0 5) s else s
    | .fmt => if sramOn (some 7) s then raise4 10 (leafCode 0 5) s else s
    | .vrf => if sramOn (some 8) s || sramOn (some 9) s then raise4 19 (leafCode 0 2) s else s
    | .sup => if sramOn none s then raise4 26 (leafCode 0 5) s else s) s

/-- SRAM_CORR: a notice. -/
def execSramCorr (u : CorrUnit) (s : State) : Host.Outcome State Fault Refusal :=
  done (fun s =>
    match u with
    | .sup => if sramOn none s then setLeaf 26 4 s else s
    | .cmp => if sramOn (some 5) s then setLeaf 7 1 s else s
    | .dma => if sramOn none s then setLeaf 2 3 s else s) s

end Sys2Proof.Machine
end

