-- ==== Sys2Proof/Machine/FamNet.lean ====
section
/-!
DEFINITION. The NET commands and the events of the Ethernet ports: frames, neighbours, pause, link, RoCE packets (ch08).
-/
namespace Sys2Proof.Machine
open Sys2Proof

/-! ### The NET commands (R386 to R392) -/

/-- The port and queue pair that P1 names. -/
def portOf (m : Msg) : Port := Fin.ofNat 2 (m.f 1 8 1)
def qpIndex (m : Msg) : Fin 64 := Fin.ofNat 64 (m.f 1 0 6)

/-- The port's domain is off (ch08, The NET family). -/
def ethOff (m : Msg) (s : State) : Bool := !domOn (2 + (portOf m).val) s

/-- A bitmap of the port's queue pairs, in two words. -/
def qpMap (p : Port) (f : Qp → Bool) (s : State) : List Word :=
  [0, 32].map (fun b => ofBits 32 (fun i => match getN s.net.port[p].qp (b + i) none with
    | some q => f q
    | none => false))

def netWords (p : Port) (s : State) : List Word :=
  let e := s.net.port[p]
  let mac := (portMac p s).toNat
  [pack [(0, b2n e.enabled), (1, b2n e.link), (2, b2n e.aligned)], w32 mac, w32 (mac / 2 ^ 32),
   ((e.ip4.map (·.1)).getD 0)] ++ qpMap p (fun _ => true) s ++ [qpErr p 0 s, qpErr p 32 s, w32 (rxLevel p s),
   pack [(0, e.pausedTx.toNat), (8, e.pausedRx.toNat)]]

def netInfo : Cmd := {
  opcode := 0x0801, safe := true, lens := fun _ => [1], bits := fun _ => [0x100], state := ethOff
  act := fun m s => (rOk, netWords (portOf m) s, s) }

/-- NET.INFO (R386). -/
def execNetInfo (ch : Chan) (s : State) : Host.Outcome State Fault Refusal := done (runCommand netInfo ch) s

/-- A message whose action is neither ENABLE nor DISABLE belongs to both rows. -/
def portForm (k : Nat) (m : Msg) : Bool := decide ((m.p 2).toNat = k) || decide ((m.p 2).toNat ≠ 1 ∧ (m.p 2).toNat ≠ 2)

/-- A setting outside Table 08-8. VID matters on a tagged port only: its range is checked where the tagged bit is set
(log 185, DEDUCED). -/
def badSettings (m : Msg) : Bool :=
  let xoff := m.f 4 0 12
  let xon := m.f 5 0 12
  let hold := m.f 6 0 10
  let vid := m.f 7 0 12
  decide (xoff < 512 ∨ 3584 < xoff ∨ xon < 256 ∨ xoff < xon + 256 ∨ hold < 1 ∨ 600 < hold) ||
    ((m.p 7).getLsbD 12 && decide (vid < 1 ∨ 4094 < vid))

/-- ENABLE takes the settings; the command completes when the PCS aligns. -/
def enablePort (m : Msg) (s : State) : State :=
  modPort (portOf m) (fun e => { e with
    enabled := true, pfcEn := (m.p 3).truncate 8, xoff := m.f 4 0 12, xon := m.f 5 0 12, linkHold := m.f 6 0 10
    vlan := m.p 7 }) s

def netPortEnable : Cmd := {
  opcode := 0x0802, mine := portForm 1, lens := fun _ => [7]
  bits := fun _ => [0x100, 0xFFFFFFFF, 0xFF, 0xFFF, 0xFFF, 0x3FF, 0x3FFFFF]
  param := fun m _ => m.p 2 != 1 || badSettings m
  state := fun m s => ethOff m s || s.net.port[portOf m].enabled
  long := fun m => some (.portEnable (portOf m))
  start := fun m _ s => enablePort m s }

/-- NET.PORT, ENABLE (R387). -/
def execNetPortEnable (ch : Chan) (s : State) : Host.Outcome State Fault Refusal := done (runCommand netPortEnable ch) s

/-- DISABLE: the transmitter goes idle, and an enabling still in flight ends with E_MEDIA. -/
def disablePort (p : Port) (t : Nat) (s : State) : State :=
  let s := completeWhere (fun w => w = .portEnable p) rMedia [] s
  completeTicket t rOk [] (modPort p (fun e => { e with
    enabled := false, link := false, aligned := false, dad := 0, pausedTx := 0, pausedRx := 0, longTx := false
    longRx := false, holdRuns := false, txq := [], rx := [] }) s)

def netPortDisable : Cmd := {
  opcode := 0x0802, mine := portForm 2, lens := fun _ => [7], bits := fun _ => [0x100, 0xFFFFFFFF, 0, 0, 0, 0, 0]
  param := fun m _ => m.p 2 != 2
  state := fun m s => ethOff m s || s.net.port[portOf m].qp.toList.any (fun q => q.isSome)
  long := fun m => some (.portDisable (portOf m))
  start := fun m t s => disablePort (portOf m) t s }

/-- NET.PORT, DISABLE (R387). -/
def execNetPortDisable (ch : Chan) (s : State) : Host.Outcome State Fault Refusal := done (runCommand netPortDisable ch) s

/-- The 128-bit address of four words, byte 0 first. -/
def addr128 (m : Msg) (i : Nat) : BitVec 128 :=
  BitVec.ofNat 128 ((m.p i).toNat * 2 ^ 96 + (m.p (i + 1)).toNat * 2 ^ 64 + (m.p (i + 2)).toNat * 2 ^ 32 + (m.p (i + 3)).toNat)

/-- The address or gateway takes its value; a new IPv6 address awaits its detection of duplicates. -/
def setAddress (m : Msg) (s : State) : State :=
  modPort (portOf m) (fun e => match (m.p 2).toNat with
    | 1 => { e with ip4 := some (m.p 3, m.f 4 0 6) }
    | 2 => { e with ip6 := some (addr128 m 3, m.f 7 0 8), dad := clrBit e.dad 1 }
    | 3 => { e with gw4 := some (m.p 3) }
    | _ => { e with gw6 := some (addr128 m 3) }) s

def netAddr : Cmd := {
  opcode := 0x0803
  lens := fun m => match (m.p 2).toNat with
    | 1 => [4]
    | 2 => [10]
    | 3 => [4]
    | 4 => [10]
    | _ => [4, 10]
  bits := fun m => match (m.p 2).toNat with
    | 1 => [0x100, 0xFFFFFFFF, 0xFFFFFFFF, 0x3F]
    | 2 => [0x100, 0xFFFFFFFF, 0xFFFFFFFF, 0xFFFFFFFF, 0xFFFFFFFF, 0xFFFFFFFF, 0xFF, 0, 0, 0]
    | 3 => [0x100, 0xFFFFFFFF, 0xFFFFFFFF, 0]
    | _ => [0x100, 0xFFFFFFFF, 0xFFFFFFFF, 0xFFFFFFFF, 0xFFFFFFFF, 0xFFFFFFFF, 0, 0, 0, 0]
  param := fun m _ => match (m.p 2).toNat with
    | 1 => decide (m.f 4 0 6 > 32)
    | 2 => decide (m.f 7 0 8 > 128)
    | 3 => false
    | 4 => false
    | _ => true
  state := fun m s => ethOff m s || s.net.port[portOf m].qp.toList.any (fun q => q.isSome)
  act := fun m s => (rOk, [], setAddress m s) }

/-- NET.ADDR (R388). -/
def execNetAddr (ch : Chan) (s : State) : Host.Outcome State Fault Refusal := done (runCommand netAddr ch) s

/-- The form that P2 names. -/
def formOf (m : Msg) : QpForm :=
  match m.f 2 8 2 with
  | 0 => .w
  | 1 => .s
  | _ => .r

def formCode : QpForm → Nat
  | .w => 0
  | .s => 1
  | .r => 2

def remoteOf (m : Msg) : Ip := if m.p 6 = 0 then .v4 (m.p 7) else .v6 (addr128 m 7)

/-- A value outside Table 08-9. -/
def badQp (m : Msg) : Bool :=
  let form := m.f 2 8 2
  let mib := m.f 11 0 13
  let slot := m.f 12 0 25
  let depth := m.f 13 0 11
  let ack := m.f 13 16 5
  decide (form = 3) || (m.p 6 == 0 && (m.p 8 != 0 || m.p 9 != 0 || m.p 10 != 0)) ||
  (if form = 2 then decide (mib ≠ 0) else decide (mib < 2 ∨ 4096 < mib)) ||
  (if form = 1 then decide (slot < 128 ∨ 16777280 < slot ∨ slot % 64 ≠ 0) else decide (slot ≠ 0)) ||
  (form == 0 && decide (depth < 1 ∨ 1024 < depth)) || decide (ack < 10 ∨ 20 < ack)

/-- Queue pairs of a stream, over both ports (R349). -/
def streamQps (i : Strm) (s : State) : Nat :=
  ((List.finRange 2).map (fun p => (s.net.port[p].qp.toList.filter (fun q => match q with
    | some q => decide (q.stream = i)
    | none => false)).length)).sum

/-- The stream that P2 names. -/
def qpStream (m : Msg) : Strm := Fin.ofNat 64 (m.f 2 0 6)

/-- The queue pair exists, or the port cannot serve one: off, halted (log 183), not enabled, without an address of the kind,
or the stream has 8 (R384, R389). -/
def createState (m : Msg) (s : State) : Bool :=
  let p := portOf m
  ethOff m s || haltedSrc (3 + p.val) s || haltedSrc 5 s || (getQp p (qpIndex m) s).isSome || !s.net.port[p].enabled ||
    (if m.p 6 = 0 then s.net.port[p].ip4.isNone else s.net.port[p].ip6.isNone) || decide (streamQps (qpStream m) s ≥ 8)

/-- The partition does not fit (R372, R399, R404). -/
def noPartition (m : Msg) (s : State) : Bool :=
  let k := m.f 11 0 13
  let c := s.mbx.config
  decide (0 < k) && (decide (partitions s + k > (c.highWaterMib - 256 - c.tetherRingMib) / 2) ||
    decide (occupied s + k ≥ c.highWaterMib) || (takeRun .ingest k s).isNone)

/-- The queue pair exists, its partition reserved and its first buffers posted; an rkey is drawn and a UDP source port taken,
both free values (R351, R364, R389, R498). -/
def createQp (m : Msg) (s : State) : List Word × State :=
  let p := portOf m
  let i := qpIndex m
  let k := m.f 11 0 13
  let part := if k = 0 then (0, s) else (takeRun .ingest k s).getD (0, s)
  let f := if formOf m = .w then entropyWord part.2 else (0, part.2)
  let g := freeValue f.2
  let rkey : Word := f.1.truncate 32
  let q : Qp := {
    state := .rts, resolved := hopKnown p (nextHop p (remoteOf m) s) s, stream := qpStream m, form := formOf m
    prio := m.f 2 12 3, remoteQpn := (m.p 3).truncate 24, expPsn := (m.p 4).truncate 24, outPsn := (m.p 5).truncate 24
    remote := remoteOf m, rkey := rkey, udpPort := g.1.truncate 16, base := part.1, mib := k, slot := m.f 12 0 25
    depth := m.f 13 0 11, ackExp := m.f 13 16 5, retry := m.f 13 21 3, rnr := m.f 13 24 5, lastErr := 0, seq := 0, fill := 0
    credits := 0, footprints := [], msg := none, partialRec := false, cnpAt := none, nakSent := false, outstanding := []
    discarded := 0, ticket := none }
  let s := modPort p (fun e => { e with qp := upd e.qp i (fun _ => some q) }) g.2
  let s := postBuffersQp p i (qpBuffers q) (wantHop p (nextHop p q.remote s) s)
  ([w32 (0x400 + 64 * p.val + i.val), rkey, w32 k, w32 (((getQp p i s).map (·.credits)).getD 0), w32 q.udpPort.toNat], s)

def netQpCreate : Cmd := {
  opcode := 0x0804, lens := fun _ => [13]
  bits := fun _ => [0x13F, 0x733F, 0xFFFFFF, 0xFFFFFF, 0xFFFFFF, 1, 0xFFFFFFFF, 0xFFFFFFFF, 0xFFFFFFFF, 0xFFFFFFFF, 0x1FFF,
    0x1FFFFFF, 0x1FFF07FF]
  param := fun m _ => badQp m
  state := createState
  nores := noPartition
  act := fun m s => let r := createQp m s; (rOk, r.1, r.2) }

/-- NET.QP_CREATE (R389). -/
def execNetQpCreate (ch : Chan) (s : State) : Host.Outcome State Fault Refusal := done (runCommand netQpCreate ch) s

/-- A packet of the queue pair. -/
def ofQp (p : Port) (i : Fin 64) (k : RocePkt) : Bool := qpOf p k == some i

/-- The records of the queue pair that the packets standing in the receive buffer leave undone: each closing packet once,
however often it was sent, and what follows the last one (R376, R390). `part` says that bytes of a record have landed. -/
def undone (part : Bool) : Nat → List RocePkt → Nat
  | 0, _ => b2n part
  | _ + 1, [] => b2n part
  | fuel + 1, k :: rest =>
    if opCloses k.op then 1 + undone false fuel (rest.filter (fun j => psnBehind k.psn j.psn))
    else undone true fuel rest

/-- The QP drains: its posted buffers are withdrawn, and records whose closing messages are not taken are discarded and
counted; its packets in the receive buffer meet the draining QP in their turn (R376, R390). -/
def startDestroy (p : Port) (i : Fin 64) (t : Nat) (s : State) : State :=
  match getQp p i s with
  | none => s
  | some q =>
    let mine := s.net.port[p].rx.filter (fun k => ofQp p i k && !psnBehind k.psn q.expPsn)
    let s := dropCredits p i s
    let s := modQp p i (fun q => { q with
      state := .draining, ticket := some t, partialRec := false
      discarded := undone (q.partialRec || q.msg.isSome) mine.length mine }) s
    servePipe (if q.state = .error then dropOutbound p i s else s)

def netQpDestroy : Cmd := {
  opcode := 0x0805, safe := true, lens := fun _ => [1], bits := fun _ => [0x13F]
  state := fun m s => ethOff m s || (match getQp (portOf m) (qpIndex m) s with
    | some q => q.state == .draining
    | none => true)
  long := fun m => some (.qpDestroy (portOf m) (qpIndex m))
  start := fun m t s => startDestroy (portOf m) (qpIndex m) t s }

/-- NET.QP_DESTROY (R376, R390). -/
def execNetQpDestroy (ch : Chan) (s : State) : Host.Outcome State Fault Refusal := done (runCommand netQpDestroy ch) s

def qpStateCode : QpState → Nat
  | .rts => 0
  | .error => 1
  | .draining => 2

def queryWords (q : Qp) : List Word :=
  [w32 (qpStateCode q.state), w32 q.lastErr, w32 q.expPsn.toNat, w32 q.outPsn.toNat, q.seq, w32 (q.fill / 64), w32 q.credits,
   w32 q.footprints.length, w32 q.outstanding.length]

def netQpQuery : Cmd := {
  opcode := 0x0806, safe := true, lens := fun _ => [1], bits := fun _ => [0x13F]
  state := fun m s => ethOff m s || (getQp (portOf m) (qpIndex m) s).isNone
  act := fun m s => match getQp (portOf m) (qpIndex m) s with
    | some q => (rOk, queryWords q, s)
    | none => (rState, [], s) }

/-- NET.QP_QUERY (R391). -/
def execNetQpQuery (ch : Chan) (s : State) : Host.Outcome State Fault Refusal := done (runCommand netQpQuery ch) s

/-- A message whose action is neither READ nor FLUSH belongs to both rows. -/
def neighForm (k : Nat) (m : Msg) : Bool := decide (m.f 1 9 3 = k) || decide (m.f 1 9 3 > 1)

def neighWords (x : Option Neigh) : List Word :=
  match x with
  | none => [0, 0, 0, 0, 0, 0, 0]
  | some x =>
    let code := match x.state with
      | .resolving => 1
      | .resolved => 2
      | .failed => 3
    let a := match x.ip with
      | .v4 a => [a, 0, 0, 0]
      | .v6 a => [w32 (a.toNat / 2 ^ 96), w32 (a.toNat / 2 ^ 64), w32 (a.toNat / 2 ^ 32), w32 a.toNat]
    pack [(0, code), (2, b2n (isV6 x.ip))] :: a ++ [w32 x.mac.toNat, w32 (x.mac.toNat / 2 ^ 32)]

def netNeighRead : Cmd := {
  opcode := 0x0807, safe := true, mine := neighForm 0, lens := fun _ => [2], bits := fun _ => [0xF00]
  param := fun m _ => decide (m.f 1 9 3 ≠ 0 ∨ (m.p 2).toNat > 255)
  state := ethOff
  act := fun m s => (rOk, neighWords (s.net.port[portOf m].neigh[(m.p 2).toNat]?), s) }

/-- NET.NEIGH, READ (R392). -/
def execNetNeighRead (ch : Chan) (s : State) : Host.Outcome State Fault Refusal := done (runCommand netNeighRead ch) s

def netNeighFlush : Cmd := {
  opcode := 0x0807, safe := true, mine := neighForm 1, lens := fun _ => [2], bits := fun _ => [0xF00, 0]
  param := fun m _ => decide (m.f 1 9 3 ≠ 1)
  state := ethOff
  act := fun m s =>
    let p := portOf m
    (rOk, [], modPort p (fun e => { e with neigh := e.neigh.filter (fun x => !(qpsVia p x.ip s).isEmpty) }) s) }

/-- NET.NEIGH, FLUSH (R392). -/
def execNetNeighFlush (ch : Chan) (s : State) : Host.Outcome State Fault Refusal := done (runCommand netNeighFlush ch) s

/-! ### Frames that firmware answers or that are discarded (R20, R343, R345, R346, R385) -/

/-- A frame of `bytes` arrives: it counts, and is acted on unless the receive buffer is full (R367, Table 08-12). -/
def arrive (p : Port) (bytes : Nat) (act : State → State) (s : State) : State :=
  let s := ethCount p 0x00 bytes s
  if rxLevel p s + bytes > 4194304 then ethCount p 0x10 1 s else act s

/-- RX_FRAME_DROP (R343). -/
def execRxFrameDrop (p : Port) (bytes : Nat) (s : State) : Host.Outcome State Fault Refusal :=
  done (fun s => if portUp p s then ethCount p 0x10 1 (ethCount p 0x00 bytes s) else s) s

/-- Firmware can answer on the port. -/
def answers (p : Port) (s : State) : Bool := portUp p s && supRuns s

/-- ARP_REQUEST: an ARP request or a neighbour solicitation (R20, R385). -/
def execArpRequest (p : Port) (q : ArpReq) (s : State) : Host.Outcome State Fault Refusal :=
  done (fun s =>
    let bytes := neighBytes (isV6 q.target) (tagged s.net.port[p])
    if !portUp p s then s
    else arrive p bytes (fun s =>
      if supRuns s && ownAddress p q.target s then sendFirmware p bytes (.neighbourReply p q.sender (portMac p s)) s else s) s) s

/-- Fewer than 1,000 requests were answered in the last second (R346). -/
def echoRoom (p : Port) (s : State) : Bool :=
  decide ((s.net.port[p].echoes.filter (fun t => decide (stampAge t s < 1000000000))).length < 1000)

/-- The request is answered, and its time noted (R346). -/
def sendEcho (p : Port) (q : EchoReq) (s : State) : State :=
  sendFirmware p (echoBytes (isV6 q.dst) (tagged s.net.port[p]) q.dataLen) (.echo p q.src q.dataLen)
    (modPort p (fun e => { e with
      echoes := now s :: e.echoes.filter (fun t => decide (stampAge t s < 1000000000)) }) s)

/-- ECHO_REQUEST (R346). -/
def execEchoRequest (p : Port) (q : EchoReq) (s : State) : Host.Outcome State Fault Refusal :=
  done (fun s =>
    if !portUp p s then s
    else arrive p (echoBytes (isV6 q.dst) (tagged s.net.port[p]) q.dataLen) (fun s =>
      if supRuns s && ownAddress p q.dst s && decide (q.dataLen ≤ 1472) && echoRoom p s then sendEcho p q s else s) s) s

/-- The QPs through a resolved hop carry traffic. -/
def resolveQps (p : Port) (ip : Ip) (s : State) : State :=
  (qpsVia p ip s).foldl (fun s i => modQp p i (fun q => { q with resolved := true }) s) s

/-- NEIGHBOUR_REPLY: an ARP reply or neighbour advertisement for a known address (R345). -/
def execNeighbourReply (p : Port) (ip : Ip) (mac : BitVec 48) (s : State) : Host.Outcome State Fault Refusal :=
  done (fun s =>
    if !portUp p s then s
    else arrive p (neighBytes (isV6 ip) (tagged s.net.port[p])) (fun s =>
      if supRuns s && s.net.port[p].neigh.any (fun x => x.ip == ip) then
        resolveQps p ip (modPort p (fun e => { e with neigh := e.neigh.map (fun x =>
          if x.ip = ip then { x with state := .resolved, mac := mac, tries := 0 } else x) }) s)
      else s) s) s

/-- The `i`th neighbour entry changed. -/
def modNeigh (p : Port) (i : Nat) (f : Neigh → Neigh) (s : State) : State :=
  modPort p (fun e => { e with neigh := e.neigh.zipIdx.map (fun x => if x.2 = i then f x.1 else x.1) }) s

/-- NEIGHBOUR_RETRY: one more request, or after three the hop has failed and its QPs with it (R345, Table 08-6). -/
def execNeighbourRetry (p : Port) (i : Nat) (s : State) : Host.Outcome State Fault Refusal :=
  done (fun s =>
    match s.net.port[p].neigh[i]? with
    | none => s
    | some x =>
      if !answers p s || x.state != .resolving then s
      else if x.tries < 3 then askHop p x.ip (modNeigh p i (fun x => { x with tries := x.tries + 1 }) s)
      else (qpsVia p x.ip s).foldl (fun s j => qpError p j 0xA 0 s) (modNeigh p i (fun x => { x with state := .failed }) s)) s

/-- NEIGHBOUR_CONFIRM (R345). -/
def execNeighbourConfirm (p : Port) (i : Nat) (s : State) : Host.Outcome State Fault Refusal :=
  done (fun s =>
    match s.net.port[p].neigh[i]? with
    | none => s
    | some x =>
      if answers p s && x.state == .resolved then
        askHop p x.ip (modNeigh p i (fun x => { x with state := .resolving, tries := 0 }) s)
      else s) s

/-- DAD_DONE: `k` is 0 for the link-local address, 1 for the global one (R385). -/
def execDadDone (p : Port) (k : Nat) (s : State) : Host.Outcome State Fault Refusal :=
  done (fun s =>
    if portUp p s && (k == 0 || (k == 1 && s.net.port[p].ip6.isSome)) then
      modPort p (fun e => { e with dad := setBit e.dad k }) s
    else s) s

/-! ### RoCE packets (R347 to R365, R373, R374) -/

/-- INBOUND_PACKET: the packet enters the receive buffer, or finds it full (R367), and ING takes the packet that is next
where the pipe is free (R370). A packet marked CE draws a CNP to the QP it reaches, unless that carries no traffic
(Table 08-1, R348). -/
def execInboundPacket (p : Port) (k : RocePkt) (s : State) : Host.Outcome State Fault Refusal :=
  done (fun s =>
    if !portUp p s then s
    else
      let b := rxBytes p k s
      arrive p b.1 (fun s =>
        let s := match (qpOf p k).bind (fun i => (getQp p i s).map (fun q => (i, q))) with
          | some (i, q) => if k.ce && q.resolved && q.state != .error then sendCnp p i q s else s
          | none => s
        servePipe (modPort p (fun e => { e with rx := e.rx ++ [k] }) s)) b.2) s

/-- A closing packet that ING would refuse waits until its completion can go (R301, R327). -/
def refusalWaits (i : Strm) (s : State) : Bool := s.ing.stream[i].state != .detached && !canRefuse i s

/-- The closing packet at the head of the port's buffer, with its QP and message, where ING may take it: no hold stands
(R359, R373). -/
def closingReady (p : Port) (s : State) : Option (Fin 64 × Qp × RocePkt × InMsg) :=
  match s.net.port[p].rx with
  | [] => none
  | k :: _ =>
    match (qpOf p k).bind (fun i => (getQp p i s).map (fun q => (i, q))) with
    | none => none
    | some (i, q) =>
      match checkPkt q k with
      | .good m =>
        if !portRuns p s || !opCloses k.op || q.state != .rts || holdInForce s || !canAccept s || refusalWaits q.stream s then none
        else some (i, q, k, m)
      | _ => none

/-- CLOSING_PACKET_TAKEN: ING takes the closing packet at the head of the port's buffer, once the pipe is free and the other
buffer is not the next to be served (R359, R370, R373). -/
def execClosingPacketTaken (p : Port) (s : State) : Host.Outcome State Fault Refusal :=
  done (fun s =>
    match closingReady p s with
    | none => s
    | some (i, q, k, m) =>
      if s.net.pipe ≠ 0 ∨ (s.net.turn ≠ p ∧ (closingReady (otherPort p) s).isSome = true) then s
      else occupyPipe p k.payload.length (takeClosing p i q k m (modPort p (fun e => { e with rx := e.rx.tail }) s))) s

/-! ### Pause (R366 to R368, R383) -/

/-- A PFC frame goes out for the port's priorities; the pause itself is no reason to hold it back. -/
def sendPfc (p : Port) (quanta : Nat) (s : State) : State :=
  emit (.pfc p s.net.port[p].pfcEn (BitVec.ofNat 16 quanta)) (ethCount p 0x28 1 (ethCount p 0x08 64 s))

/-- XOFF: the receive buffer has reached its level (R366). -/
def execXoff (p : Port) (s : State) : Host.Outcome State Fault Refusal :=
  done (fun s =>
    let e := s.net.port[p]
    if portUp p s && e.pausedTx == 0 && e.pfcEn != 0 && decide (e.xoff * 1024 ≤ rxLevel p s) then
      sendPfc p 65535 (modPort p (fun e => { e with pausedTx := e.pfcEn }) s)
    else s) s

/-- PFC_REPEAT (R366). -/
def execPfcRepeat (p : Port) (s : State) : Host.Outcome State Fault Refusal :=
  done (fun s => if portUp p s && s.net.port[p].pausedTx != 0 then sendPfc p 65535 s else s) s

/-- XON: the receive buffer has fallen to its level (R366). PFC_LONG_TX clears with the pause it speaks of (log 184,
DEDUCED). -/
def execXon (p : Port) (s : State) : Host.Outcome State Fault Refusal :=
  done (fun s =>
    let e := s.net.port[p]
    if portUp p s && e.pausedTx != 0 && decide (rxLevel p s ≤ e.xon * 1024) then
      sendPfc p 0 (modPort p (fun e => { e with pausedTx := 0, longTx := false }) s)
    else s) s

/-- Priorities under received pause become `v`; what waited goes out (R368). PFC_LONG_RX clears when no priority is under
received pause any more (log 184, DEDUCED). -/
def setPausedRx (p : Port) (v : BitVec 8) (s : State) : State :=
  flushTx p (modPort p (fun e => { e with pausedRx := v, longRx := e.longRx && v != 0 }) s)

/-- PFC_RECEIVED: quanta by priority, heeded on the enabled ones (R368). -/
def execPfcReceived (p : Port) (q : List (BitVec 16)) (en : Byte) (s : State) : Host.Outcome State Fault Refusal :=
  done (fun s =>
    if !portUp p s then s
    else
      let e := s.net.port[p]
      let v := ofBits 8 (fun i =>
        if en.getLsbD i && e.pfcEn.getLsbD i then (q.getD i 0) != 0 else e.pausedRx.getLsbD i)
      setPausedRx p v (ethCount p 0x30 1 (ethCount p 0x00 64 s))) s

/-- RECEIVED_PAUSE_EXPIRY (R368). -/
def execReceivedPauseExpiry (p : Port) (prio : Fin 8) (s : State) : Host.Outcome State Fault Refusal :=
  done (fun s =>
    if s.net.port[p].pausedRx.getLsbD prio.val then setPausedRx p (clrBit s.net.port[p].pausedRx prio.val) s else s) s

/-- PFC_LONG: a pause of 100 ms, received or sent (R383). -/
def execPfcLong (p : Port) (rx : Bool) (s : State) : Host.Outcome State Fault Refusal :=
  done (fun s =>
    let e := s.net.port[p]
    if !portUp p s then s
    else if rx && e.pausedRx != 0 then setLeaf (3 + p.val) 4 (modPort p (fun e => { e with longRx := true }) s)
    else if !rx && e.pausedTx != 0 then setLeaf (3 + p.val) 4 (modPort p (fun e => { e with longTx := true }) s)
    else s) s

/-! ### Link (R381, R382, R385, R387) -/

/-- LINK_UP: the PCS has aligned. -/
def execLinkUp (p : Port) (s : State) : Host.Outcome State Fault Refusal :=
  done (fun s =>
    let e := s.net.port[p]
    if !portRuns p s || (e.link && e.aligned) then s
    else
      let s := modPort p (fun e => { e with link := true, aligned := true, holdRuns := false, dad := 0 }) s
      let s := ring 11 (setLeaf (3 + p.val) 0 { s with power.pll := setBit s.power.pll (2 + p.val) })
      completeWhere (fun w => w = .portEnable p) rOk [] s) s

/-- The port loses its link, or the alignment alone (R381). -/
def ethDown (p : Port) (align : Bool) (s : State) : State :=
  let e := s.net.port[p]
  if !portRuns p s || !(if align then e.aligned else e.link) then s
  else
    let s := modPort p (fun e => { e with link := e.link && align, aligned := false, holdRuns := true }) s
    raise1 (3 + p.val) (leafCode 0 (if align then 2 else 1)) 0 [] s

/-- ETH_LINK_DOWN (R381). -/
def execEthLinkDown (p : Port) (align : Bool) (s : State) : Host.Outcome State Fault Refusal := done (ethDown p align) s

/-- LINK_HOLD_EXPIRY (R381). -/
def execLinkHoldExpiry (p : Port) (s : State) : Host.Outcome State Fault Refusal :=
  done (fun s =>
    if !s.net.port[p].holdRuns then s
    else
      (List.finRange 64).foldl (fun s i => match getQp p i s with
        | some q => if q.state = .rts then qpError p i 0xB 0 s else s
        | none => s) (modPort p (fun e => { e with holdRuns := false }) s)) s

/-- PORT_ALIGN_TIMEOUT (R387). -/
def execPortAlignTimeout (p : Port) (s : State) : Host.Outcome State Fault Refusal :=
  done (fun s => if s.net.port[p].aligned then s else completeWhere (fun w => w = .portEnable p) rMedia [] s) s

/-- FEC_UNCORR: a codeword that FEC corrected, or could not (R382). -/
def execFecUncorr (w : FecWord) (s : State) : Host.Outcome State Fault Refusal :=
  done (fun s =>
    if !portUp w.port s then s
    else if w.corrected then ethCount w.port 0x18 1 s
    else setLeaf (3 + w.port.val) 3 (ethCount w.port 0x20 1 s)) s

/-! ### Outbound messages (R369, R376, R379) -/

/-- The last PSN of a message. -/
def lastPsn (o : OutMsg) : BitVec 24 := o.psn + BitVec.ofNat 24 (o.packets - 1)

/-- A message is acknowledged: its request knows. -/
def ackMsg (s : State) (o : OutMsg) : State :=
  modReq o.ticket (fun q => { q with unacked := q.unacked - 1, acked := q.acked + (if o.data then o.bytes.length else 0) }) s

/-- The packet of PSN `a` is acknowledged with all up to `b`. -/
def upTo (a b : BitVec 24) : Bool := a == b || psnBehind a b

/-- The messages that an acknowledgement up to `psn` leaves, the packets of the first that it covers noted. -/
def leftAfter (psn : BitVec 24) (l : List OutMsg) : List OutMsg :=
  match l.dropWhile (fun o => upTo (lastPsn o) psn) with
  | [] => []
  | o :: rest => (if upTo o.psn psn then { o with acked := max o.acked ((psn - o.psn).toNat + 1) } else o) :: rest

/-- Everything up to `psn` is acknowledged (R369). -/
def ackUpTo (p : Port) (i : Fin 64) (psn : BitVec 24) (s : State) : State :=
  match getQp p i s with
  | none => s
  | some q =>
    (q.outstanding.takeWhile (fun o => upTo (lastPsn o) psn)).foldl ackMsg
      (modQp p i (fun q => { q with outstanding := leftAfter psn q.outstanding }) s)

/-- An acknowledgement or NAK arrives for the queue pair; for one that does not exist it is discarded (R347, R367). -/
def arriveFor (p : Port) (i : Fin 64) (act : State → State) (s : State) : State :=
  if !portUp p s then s
  else
    let b := rxFrameBytes p i.val 4 s
    arrive p b.1 (fun s => if (getQp p i s).isSome then act s else ethCount p 0x10 1 s) b.2

/-- OUTBOUND_ACK: an ACK of everything up to the PSN, or a sequence-error NAK at it, upon which the rest is sent again
(R369). -/
def execOutboundAck (p : Port) (i : Fin 64) (ack : RoceAck) (s : State) : Host.Outcome State Fault Refusal :=
  done (arriveFor p i (fun s =>
    if ack.nak then retryAll p i (ackUpTo p i (ack.psn - 1) s) else ackUpTo p i ack.psn s)) s

/-- ACK_TIMEOUT: everything from the oldest packet without an ACK is sent again, or the QP has failed after the last retry
(R369, R379). -/
def execAckTimeout (p : Port) (i : Fin 64) (s : State) : Host.Outcome State Fault Refusal := done (retryAll p i) s

/-- REMOTE_NAK (R379). -/
def execRemoteNak (p : Port) (i : Fin 64) (s : State) : Host.Outcome State Fault Refusal :=
  done (arriveFor p i (fun s => match getQp p i s with
    | none => s
    | some q => if q.outstanding.isEmpty then s else qpError p i 0xC 0 s)) s

/-- QP_DESTROY_DONE (R348, R376, R390). -/
def execQpDestroyDone (p : Port) (i : Fin 64) (s : State) : Host.Outcome State Fault Refusal :=
  done (fun s =>
    match getQp p i s with
    | none => s
    | some q =>
      if q.state != .draining || !q.footprints.isEmpty || !q.outstanding.isEmpty then s
      else
        let s := freeExtents ((List.range q.mib).map (fun k => q.base + k)) s
        let s := modPort p (fun e => { e with qp := upd e.qp i (fun _ => none) }) (dropFrames true p i s)
        match q.ticket with
        | some t => completeTicket t rOk [w32 q.discarded] s
        | none => s) s

end Sys2Proof.Machine
end

