-- ==== Sys2Proof/Machine/FamStg.lean ====
section
/-!
DEFINITION. Staging as its requesters reach it: the BAR2 window, narrow writes and the merge buffer, the scrubber, a failing
stack (ch09).
-/
namespace Sys2Proof.Machine
open Sys2Proof

/-! ### The line code (R406) -/

/-- Symbol `k` of a stored line with its standing errors (R407, R433). -/
def flipSymbol (l k v : Nat) (s : State) : Nat :=
  v ^^^ ((((spGet [] s.stg.errs l).find? (fun e => e.1 = k)).map (fun e => e.2.toNat)).getD 0)

/-- What the stack's metadata bits hold for line `l`: C0, C1 and C2 as written with their standing errors, MARK, and the reserved
byte (R406). -/
def lineMeta (l : Nat) (s : State) : List Byte :=
  let c := lineChecks l (lineBytes l s)
  (List.range 3).flatMap (fun k => leBytes 2 (flipSymbol l (32 + k) (leAt c (2 * k) 2) s)) ++ [spGet 0 s.stg.poison l, 0]

/-! ### What BAR2 and the host channels reach (R316, R418, Table 09-4) -/

/-- The host may read, or write, extent `e`. -/
def extReach (write : Bool) (e : Nat) (s : State) : Bool :=
  if s.stg.bar2Open then
    if 80 ≤ e ∧ e < 208 then !write
    else if e < payloadBase s ∨ allExtents ≤ e then false
    else !write || s.stg.lent.contains e
  else s.boot.fwState == 2 && s.boot.hbmReady && decide (e < 4)

/-- Every byte of the range is reached. -/
def hostReach (write : Bool) (off len : Nat) (s : State) : Bool :=
  (List.range ((off + len - 1) / extBytes - off / extBytes + 1)).all (fun i => extReach write (off / extBytes + i) s)

/-- A BAR2 request is answered with Unsupported Request (R418, R831). -/
def urBar2 (off : Nat) (s : State) : State := emit (.unsupported off) (setLeaf 1 4 (count 0x8420 1 s))

/-- The PCIe controller answers the host. -/
def hostUp (s : State) : Bool := originUp .pcie s

/-! ### Narrow writes (R414 to R416, R420 to R422, R428) -/

/-- How a narrow write ends. -/
inductive NarrowEnd where
  | done
  /-- The merge's read was uncorrectable (R428). -/
  | aborted
  deriving DecidableEq, Repr

/-- Bytes enter the merge buffer's entry of the line, which is read first where it has none; a full buffer writes its
oldest entry back, and a complete line is written back at once (R415, R416, R428). The bytes lie in one line. -/
def mergeWrite (off : Nat) (bs : List Byte) (u : Upset) (s : State) : NarrowEnd × State :=
  let l := off / 64
  let put := fun (m : MergeLine) (s : State) =>
    let m := { m with
      data := patch m.data (off % 64) bs
      mask := m.mask ||| ofBits 64 (fun b => decide (off % 64 ≤ b ∧ b < off % 64 + bs.length)) }
    let s : State := { s with stg.merge := s.stg.merge.filter (fun x => decide (x.line ≠ l)) ++ [m] }
    if m.mask = BitVec.allOnes 64 then writeBack l s else s
  match s.stg.merge.find? (fun m => m.line = l) with
  | some m => (.done, put m s)
  | none =>
    let s := if s.stg.merge.length ≥ 256 then match s.stg.merge with
        | m :: _ => writeBack m.line s
        | [] => s
      else s
    let r := readLine l u s
    match r.2.1 with
    | .ok => (.done, put { line := l, data := r.1, mask := 0 } r.2.2)
    | .control => (.aborted, raise4 6 (leafCode 0 7) r.2.2)
    | .bad => (.aborted, raise1 6 (leafCode 0 2) 0 [] (recordLine l 4 0x3F (afterRead .bad [] r.2.2)))

/-- A narrow write in direct mode: refused and counted (R414). -/
def rejectNarrow (s : State) : State := setLeaf 6 3 (count 0x8418 1 s)

/-- The part of a write that lies in its `i`th line: offset and bytes. -/
def linePart (off : Nat) (bs : List Byte) (i : Nat) : Nat × List Byte :=
  let l := off / 64 + i
  let lo := max off (64 * l)
  (lo, (bs.drop (lo - off)).take (64 * l + 64 - lo))

/-- The number of lines a write touches. -/
def lineCount (off len : Nat) : Nat := (off + len + 63) / 64 - off / 64

/-- A write of any alignment: whole lines are written, partial ones merged, in rising order, up to the first merge that is
abandoned (R309, R415, R422). -/
def writeMerged (off : Nat) (bs : List Byte) (s : State) : NarrowEnd × State :=
  (List.range (lineCount off bs.length)).foldl (fun (acc : NarrowEnd × State) i =>
    if acc.1 = .aborted then acc
    else
      let p := linePart off bs i
      if p.2.length = 64 then (.done, writeLine (p.1 / 64) p.2 acc.2)
      else mergeWrite p.1 p.2 [] acc.2) (.done, s)

/-- Some line of the write is covered in part only. -/
def hasNarrow (off len : Nat) : Bool := decide (off % 64 ≠ 0 ∨ (off + len) % 64 ≠ 0)

/-- Narrow writes of the host are merged: STG_CTRL.MERGE, or a load in WAIT_HOST (Table 09-4). -/
def hostMerges (s : State) : Bool := s.stg.mergeMode || !s.stg.bar2Open

/-- Entries of the merge buffer for the lines of a range are written back: a barrier requires it (R312, R415). -/
def flushRange (off len : Nat) (s : State) : State :=
  (List.range (lineCount off len)).foldl (fun s i => writeBack (off / 64 + i) s) s

/-! ### BAR2 (R149, R418, R419, R831) -/

/-- A BAR2 read: data, or all ones with the poisoned mark for a bad line. -/
def execBar2Read (off len : Nat) (upset : Upset) (s : State) : Host.Outcome State Fault Refusal :=
  done (fun s =>
    if !hostUp s || len == 0 then s
    else if !hostReach false off len s then urBar2 off s
    else
      let r := readRange off len upset s
      match r.2.1 with
      | .ok => emit (.bar2Read off r.1 false) r.2.2
      | .bad => emit (.bar2Read off (List.replicate len 0xFF) true) (afterRead .bad [] r.2.2)
      | .control => afterRead .control [] r.2.2) s

/-- A BAR2 write that reaches staging: refused whole where a part is narrow in direct mode. -/
def bar2Store (off : Nat) (data : List Byte) (s : State) : State :=
  if !hostReach true off data.length s then urBar2 off s
  else if hasNarrow off data.length && !hostMerges s then urBar2 off (rejectNarrow s)
  else (writeMerged off data s).2

/-- A BAR2 write; a poisoned one is discarded whole (R831). -/
def execBar2Write (off : Nat) (data : List Byte) (poisoned : Bool) (s : State) : Host.Outcome State Fault Refusal :=
  done (fun s =>
    if !hostUp s || data.isEmpty then s
    else if poisoned then raise1 1 (leafCode 0 3) 0 [] s
    else bar2Store off data s) s

/-! ### Host channels' descriptors (Table 07-5, R306, R330) -/

/-- The fields of a descriptor. -/
def descHost (d : BitVec 256) : Nat := field d 0 64
def descStg (d : BitVec 256) : Nat := field d 64 37
def descLen (d : BitVec 256) : Nat := field d 128 25
def descDir (d : BitVec 256) : Bool := d.getLsbD 160
def descBarrier (d : BitVec 256) : Bool := d.getLsbD 161
def descIrq (d : BitVec 256) : Bool := d.getLsbD 162
def descSwap (d : BitVec 256) : Nat := field d 165 3

/-- The descriptor's STATUS word is written, where it was fetched: DONE, detail and code (R306, R324). -/
def writeStatus (c : Fin 8) (code detail : Nat) (s : State) : State :=
  count 0x8208 4 (emit (.hostWrite (s.dma.chan[c].place + 0x18)
    (leBytes 4 (pack [(31, 1), (16, detail), (0, code)]).toNat) false false) s)

/-- The descriptor fails: STATUS, and the channel halts (R330). -/
def failDesc (c : Fin 8) (code detail : Nat) (s : State) : State := haltHost c code detail (writeStatus c code detail s)

/-! ### Narrow writes, write-backs and the scrubber -/

/-- The bytes lie in one line and do not cover it. -/
def isNarrow (off len : Nat) : Bool := decide (0 < len ∧ len < 64 ∧ off / 64 = (off + len - 1) / 64)

/-- NARROW_WRITE: a partial line from BAR2, from a host channel's descriptor, or from SUP (R414, R415, R428). -/
def execNarrowWrite (src : NarrowSrc) (addr : Nat) (data : List Byte) (upset : Upset) (s : State) :
    Host.Outcome State Fault Refusal :=
  done (fun s =>
    if !isNarrow addr data.length then s
    else
      match src with
      | .bar2 =>
        if !hostUp s then s
        else if !hostReach true addr data.length s then urBar2 addr s
        else if !hostMerges s then urBar2 addr (rejectNarrow s)
        else (mergeWrite addr data upset s).2
      | .dma c =>
        match s.dma.chan[c].desc with
        | none => s
        | some d =>
          if descDir d || !s.dma.chan[c].asked || !pcieAlive s ||
              decide (addr < descStg d ∨ descStg d + descLen d < addr + data.length) then s
          else if !hostReach true addr data.length s then failDesc c rParam 0x07 s
          else if !hostMerges s then failDesc c rParam 0x06 (rejectNarrow s)
          else
            let r := mergeWrite addr data upset s
            match r.1 with
            | .done => r.2
            | .aborted => if r.2.boot.phase = s.boot.phase then failDesc c rFault 0x05 r.2 else r.2
      | .sup =>
        if supRuns s && s.stg.laidOut && decide (addr < 256 * extBytes) then (mergeWrite addr data upset s).2 else s) s

/-- MERGE_WRITE_BACK (R415, R416). -/
def execMergeWriteBack (line : Nat) (s : State) : Host.Outcome State Fault Refusal := done (writeBack line) s

/-- The line is the last one of the last valid block: the scrubber ends a pass with it (R417). -/
def lastScrubbed (l : Nat) (s : State) : Bool :=
  let top := match s.stg.valid.getLast? with
    | some b => b.1
    | none => 0
  decide (l = 64 * (if s.stg.laidOut then max top 65535 else top) + 63)

/-- SCRUB_LINE: the line is read once an entry of the merge buffer for it is written back (R396, R411, R417, R422). -/
def execScrubLine (line : Nat) (upset : Upset) (s : State) : Host.Outcome State Fault Refusal :=
  done (fun s =>
    if !s.stg.scrubbing || !lineValid line s then s
    else
      let r := readAny line upset (writeBack line s)
      let s := if lastScrubbed line r.2 then count 0x8428 1 r.2 else r.2
      afterRead r.1 [] s) s

/-- STACK_FAIL (R429). -/
def execStackFail (st : Fin 4) (s : State) : Host.Outcome State Fault Refusal :=
  done (fun s => if s.stg.stackOk.getLsbD st.val then
    raise3 6 (leafCode 0 6) 0 { s with stg.stackOk := clrBit s.stg.stackOk st.val } else s) s

end Sys2Proof.Machine
end

