-- ==== Sys2Proof/Machine/FamPcie.lean ====
section
/-!
DEFINITION. The PCIe link and its resets, configuration writes, submission pulls and their payloads, host channels, and the
DMA commands (ch03, ch07).
-/
namespace Sys2Proof.Machine
open Sys2Proof

/-! ### The link (R126, R127, R318, R334 to R337) -/

/-- PCIE_LINK_UP: `speed` is 1 to 5 for 2.5 to 32.0 GT/s (Table 07-11, R318). -/
def execPcieLinkUp (speed : Nat) (lanes : LinkLanes) (s : State) : Host.Outcome State Fault Refusal :=
  done (fun s =>
    if !hostUp s || decide (speed < 1 ∨ 5 < speed) || !([1, 2, 4, 8, 16].contains lanes.width) then s
    else
      let s := (List.range 16).foldl (fun s i => setInverted (112 + i) (lanes.inverted.getLsbD i) s) s
      let s := { s with
        pcie.speed := BitVec.ofNat 4 speed, pcie.width := BitVec.ofNat 5 lanes.width, power.pll := setBit s.power.pll 1 }
      if speed < 5 ∨ lanes.width < 16 then setLeaf 1 1 s else s) s

/-- A reset of the PCIe controller and the DMA engine (R126, R127, R334 to R337, R704): configuration space, host
channels and counters take their reset values, halts of the two blocks end, streams lose their host rings, and restores
and exports to the host end (log 180). DMA_ERR_INFO reads 0 after it (R337, log 14). Cause and mask registers stay. `up`
tells whether the controller still answers. -/
def pcieReset (up : Bool) (s : State) : State :=
  let s := allStrm.foldl (fun s i => detachStream i s) s
  let s := abortReqs (fun q => decide (q.output = 0)) rFault none s
  let s := if s.tether.exporting.any (fun e => !e.toStaging) then failExport 0 s else s
  let s := dropCounters 0x8200 0x8280 (disarm (fun a => decide (a.code = 3))
    (dropParity (fun k => decide (0x2F00 ≤ k ∧ k < 0x2F10 ∨ 0x4000 ≤ k ∧ k < 0x5000)) s))
  { s with
    pcie := { cfgUp := up }
    dma := { enabled := s.dma.enabled, errInfo := 0 }
    irq.msixPending := false
    faults.halted := clrBit (clrBit s.faults.halted 1) 2 }

/-- HOT_RESET, or a link-down on the upstream port (R335). -/
def execHotReset (_linkDown : Bool) (s : State) : Host.Outcome State Fault Refusal :=
  done (fun s => if hostUp s then setLeaf 1 0 (pcieReset true s) else s) s

/-- A write of a BAR: BAR0 spans 64 KiB, BAR2 128 GiB; the others cannot be assigned (R293). -/
def writeBar (r : Nat) (v : Word) (s : State) : State :=
  match r with
  | 0x10 => { s with pcie.bar0 := v &&& 0xFFFF0000 }
  | 0x1C => { s with pcie.bar2 := (v &&& 0xFFFFFFE0).setWidth 64 <<< 32 }
  | _ => s

/-- CONFIG_SPACE_WRITE (R209, R291, R293, R307, R327): what paused goes on when the function may issue requests again. A
size code that Table 07-1 does not support is not taken (log 179). -/
def execConfigSpaceWrite (w : CfgWrite) (s : State) : Host.Outcome State Fault Refusal :=
  done (fun s =>
    if !hostUp s then s
    else
      match w with
      | .bme b => resumeStreams { s with pcie.bme := b }
      | .d3 b => resumeStreams { s with pcie.d3 := b }
      | .devCtl mps mrrs ro ns tag10 => { s with
          pcie.mps := if mps.toNat ≤ 2 then mps else s.pcie.mps, pcie.mrrs := if mrrs.toNat ≤ 5 then mrrs else s.pcie.mrrs
          pcie.roEn := ro, pcie.nsEn := ns, pcie.tag10 := tag10 }
      | .msix en fn => { s with pcie.msixEnable := en, pcie.msixFnMask := fn }
      | .bar r v => writeBar r v s) s

/-! ### What configuration space reads (R291 to R293) -/

/-- The capabilities present (Table 07-1). -/
inductive PcieCap where
  | pciExpress | powerManagement | msiX | aer | deviceSerial | secondary | dataLinkFeature | physical16 | physical32
  | laneMargining
  deriving DecidableEq, Repr

/-- The Device Serial Number: bytes 0 to 7 of the device unique number (Table 07-1). -/
def deviceSerial : BitVec 64 := Config.uniqueNumber.truncate 64

/-- The word at a header offset, where R292, R293 or chapter 05 give it: IDs, class and revision, the BARs, the Interrupt
Pin; BAR1, BAR4 and BAR5 read 0. -/
def configHeader (r : Nat) (s : State) : Option Word :=
  match r with
  | 0x00 => some 0x48124E48
  | 0x08 => some 0x01800020
  | 0x10 => some s.pcie.bar0
  | 0x14 => some 0
  | 0x18 => some ((s.pcie.bar2.truncate 32 &&& 0xFFFFFFF0) ||| 0xC)
  | 0x1C => some ((s.pcie.bar2 >>> 32).truncate 32)
  | 0x20 => some 0
  | 0x24 => some 0
  | 0x2C => some 0x00014E48
  | _ => none

/-- AER_CORR (R334). -/
def execAerCorr (s : State) : Host.Outcome State Fault Refusal :=
  done (fun s => if hostUp s then setLeaf 1 5 (count 0x8210 1 s) else s) s

/-- AER_FATAL (R334): the PCIE block halts. -/
def execAerFatal (_detail : BitVec 16) (s : State) : Host.Outcome State Fault Refusal :=
  done (fun s => if hostUp s then raise2 1 (leafCode 0 6) 1 0 s else s) s

/-! ### Pulling submissions (R300 to R304, R40, R41, R53) -/

/-- The fields of a submission entry (Table 07-2). -/
def sqLen (e : BitVec 512) : Nat := field e 64 25
def sqReserved (e : BitVec 512) : Bool :=
  field e 89 7 != 0 || field e 99 29 != 0 || field e 192 320 != 0 || decide (field e 96 3 > 4)

/-- The refusal of a pulled entry, code and detail; none where it passes (R40, R41, R302, R311). -/
def sqRefused (m : Stream) (e : BitVec 512) : Option (Nat × Nat) :=
  let len := sqLen e
  if m.state ≠ .isOpen then some (rState, 0)
  else if len = 0 ∨ len > 16777216 then some (rLength, 0x0A)
  else if sqReserved e then some (rParam, 0x09)
  else if len % swapUnit (field e 96 3) ≠ 0 then some (rParam, 0x08)
  else none

/-- Extents for a payload of `len` bytes, if they can be had now (R399). -/
def takeFor (len : Nat) (s : State) : List Nat × State :=
  match takeMany .ingest ((len + extBytes - 1) / extBytes) s with
  | some r => r
  | none => ([], s)

/-- One pulled entry joins the stream's pulls: refused, or with its payload's reads under way (R302, R303). -/
def pullEntry (i : Strm) (s : State) (e : BitVec 512) : State :=
  let m := s.ing.stream[i]
  match m.rings with
  | none => s
  | some r =>
    let idx := m.sqHead.toNat
    let refused := sqRefused m e
    let t := if refused.isSome then ([], s) else takeFor (sqLen e) s
    let p : Pull := {
      no := (m.pulls.getLast?.map (·.no + 1)).getD 0, idx := idx, addr := field e 0 64, len := sqLen e, swap := field e 96 3, hostTag := field e 128 64
      exts := t.1, asked := false, data := none, refused := refused }
    modStream i (fun m => { m with
      sqHead := BitVec.ofNat 16 ((idx + 1) % 2 ^ r.sqLog), reserved := m.reserved + cplNeed m, pulls := m.pulls ++ [p] }) t.2

/-- A batch of `k` entries of the stream's outstanding pull can have come. -/
def pullComes (i : Strm) (k : Nat) (s : State) : Bool :=
  s.ing.enabled && pcieAlive s && s.dma.sqOut.any (fun o => decide (o.1 = i ∧ 0 < k ∧ k ≤ o.2))

/-- Host address of the stream's next SQ entry. -/
def sqPlace (m : Stream) : Nat := (m.rings.map (·.sqBase)).getD 0 + 64 * m.sqHead.toNat

/-- SQ_PULL: the entries of the outstanding pull come; its reads carry neither attribute (R300 to R302, R307). -/
def execSqPull (i : Strm) (entries : List (BitVec 512)) (s : State) : Host.Outcome State Fault Refusal :=
  done (fun s =>
    if !pullComes i entries.length s then s
    else
      let k := 64 * entries.length
      let s := count 0x8200 k (emit (.hostRead (sqPlace s.ing.stream[i]) k false false) { s with dma.sqOut := none })
      let s := entries.foldl (pullEntry i) s
      drainPulls i (2 * s.ing.stream[i].pulls.length) s) s

/-- Bytes enter the DMA transfer buffer: an armed injector fires (Table 19-6), as BUF_CORR or, with two bits, BUF_UE, a
level-4 fault; else the transfer goes on. -/
def throughBuffer (go : State → State) (s : State) : State :=
  match takeInjector 3 (fun _ => true) s with
  | (none, s) => go s
  | (some a, s) => if a.p3.getLsbD 0 then raise4 2 (leafCode 0 4) s else go (setLeaf 2 3 s)

/-- The last payload completion of an entry has come: its lines but the last are written, and what the stream's order lets
through is accepted (R303, R304, R310). -/
def payloadIn (i : Strm) (p : Pull) (payload : List Byte) (s : State) : State :=
  let t := if p.exts.isEmpty then takeFor p.len s else (p.exts, s)
  if t.1.isEmpty then s
  else
    let bs := swapBytes p.swap payload
    let s := writePayload t.1 bs (count 0x8200 p.len t.2)
    let s := modPull i p.no (fun p => { p with exts := t.1, data := some bs }) s
    drainPulls i (2 * s.ing.stream[i].pulls.length) s

/-- The stream's oldest pull at index `idx` whose payload is being read. -/
def openPull (i : Strm) (idx : Nat) (s : State) : Option Pull :=
  s.ing.stream[i].pulls.find? (fun p => decide (p.idx = idx) && p.asked && p.data.isNone && p.refused.isNone)

/-- PAYLOAD_PULL_DONE (R303). -/
def execPayloadPullDone (i : Strm) (idx : Nat) (payload : List Byte) (s : State) : Host.Outcome State Fault Refusal :=
  done (fun s =>
    match openPull i idx s with
    | some p => if payload.length = p.len ∧ pcieAlive s = true then throughBuffer (payloadIn i p payload) s else s
    | none => s) s

/-- LANDING: the record's last line is written, and the STAGED completions that may go out do (R25, R31, R32). -/
def execLanding (r : Nat) (s : State) : Host.Outcome State Fault Refusal :=
  done (fun s =>
    match getRec r s with
    | none => s
    | some v =>
      let s := if v.landed then s else landRec r s
      postStaged v.stream s.ing.stream[v.stream].order.length s) s

/-! ### Fjarma's channels (R305, Table 07-4; log 178) -/

/-- The channels that pull stream `i`'s SQ entries and write its completions. -/
def sqChannel (i : Strm) : Nat := i.val % 4
def cplChannel (i : Strm) : Nat := 16 + i.val % 4

/-- The payload channel of a pull: its number, modulo 12, above channel 4 (log 178, DESIGN CHOICE). -/
def payloadChannel (p : Pull) : Nat := 4 + p.no % 12

/-- A descriptor of Table 07-5, STATUS and USER zero. -/
def descWord (host stg len ctrl : Nat) : BitVec 256 :=
  BitVec.ofNat 256 (host + 2 ^ 64 * stg + 2 ^ 128 * len + 2 ^ 160 * ctrl)

/-- The descriptors of a payload pull: one for each extent it lands in, with Relaxed Ordering asked for (R307). -/
def pullDescs (p : Pull) : List (BitVec 256) :=
  p.exts.zipIdx.map (fun e => descWord (p.addr + e.2 * extBytes) (e.1 * extBytes) (min extBytes (p.len - e.2 * extBytes))
    (8 + 32 * p.swap))

/-- The descriptors that stand in payload channel `c`'s ring: those of the pulls whose data has not come. -/
def payloadRing (c : Nat) (s : State) : List (BitVec 256) :=
  allStrm.flatMap (fun i => (s.ing.stream[i].pulls.filter (fun p =>
    p.asked && p.data.isNone && p.refused.isNone && decide (payloadChannel p = c))).flatMap pullDescs)

/-! ### Reads that fail (R328 to R332) -/

/-- The channel's descriptor fetch is outstanding and completes (R315, R327). -/
def fetchComes (c : Fin 8) (s : State) : Bool := s.dma.chan[c].fetching && pcieAlive s

/-- The descriptor's barrier read can be outstanding once its data is written (R312). -/
def barrierDue (d : BitVec 256) (s : State) : Bool :=
  descDir d && descBarrier d && pcieIssues s && s.dma.shareWr != 0 && s.dma.shareRd != 0

/-- A descriptor's data goes to host memory (R307, R311). -/
def writeOut (d : BitVec 256) (bs : List Byte) (s : State) : State :=
  emit (.hostWrite (descHost d) (swapBytes (descSwap d) bs) (descRo d s) (descNs d s)) (count 0x8208 (descLen d) s)

/-- The last DW that a descriptor wrote is read back; the read carries the descriptor's attributes (R312). -/
def barrierRead (d : BitVec 256) (s : State) : State :=
  emit (.hostRead ((descHost d + descLen d - 1) / 4 * 4) 4 (descRo d s) (descNs d s)) s

/-- A descriptor's lines are read for the host; no byte of a bad line goes out (R331). -/
def readOut (c : Fin 8) (d : BitVec 256) (go : List Byte → State → State) (s : State) : State :=
  let r := readRange (descStg d) (descLen d) [] s
  match r.2.1 with
  | .control => afterRead .control [] r.2.2
  | .bad => failDesc c rFault 0x0B (afterRead .bad [] r.2.2)
  | .ok => go r.1 r.2.2

/-- A read fails with a detail of Table 07-8. A barrier read that fails comes after the descriptor's data (R312). -/
def readFailed (t : ReadTarget) (detail : Nat) (s : State) : State :=
  match t with
  | .sq i => detachStream i (descErr 0xFF i.val detail 4 s)
  | .payload i idx =>
    match openPull i idx s with
    | some p =>
      let s := refusePull i p rFault detail s
      drainPulls i (2 * s.ing.stream[i].pulls.length) s
    | none => s
  | .fetch c => modHost c (fun h => { h with halted := true, fetching := false }) (descErr (24 + c.val) 0xFF detail 5 s)
  | .data c =>
    match s.dma.chan[c].desc with
    | none => s
    | some d =>
      if descDir d then readOut c d (fun bs s => failDesc c rFault detail
        (count (0x8240 + 8 * c.val) (descLen d) (barrierRead d (writeOut d bs s)))) s
      else failDesc c rFault detail s

/-- Such a read may be outstanding. -/
def readOpen (t : ReadTarget) (s : State) : Bool :=
  match t with
  | .sq i => pullComes i 1 s
  | .payload i idx => (openPull i idx s).isSome && pcieAlive s
  | .fetch c => fetchComes c s
  | .data c => s.dma.chan[c].desc.any (fun d => (s.dma.chan[c].asked && pcieAlive s) || barrierDue d s)

/-- READ_COMPLETION_ERROR (R328 to R330, R332, R831). -/
def execReadCompletionError (t : ReadTarget) (e : ReadError) (s : State) : Host.Outcome State Fault Refusal :=
  done (fun s =>
    if !readOpen t s then s
    else
      match e with
      | .ur => readFailed t 1 s
      | .ca => readFailed t 2 s
      | .poison => readFailed t 4 (raise1 1 (leafCode 0 3) 0 [] s)) s

/-- CPL_TIMEOUT (R328, Table 07-21). -/
def execCplTimeout (t : ReadTarget) (s : State) : Host.Outcome State Fault Refusal :=
  done (fun s =>
    if !readOpen t s then s else readFailed t 3 (count 0x8218 1 (raise1 1 (leafCode 0 2) 0 [] s))) s

/-! ### Host channels (R306, R311, R312, R315 to R317, R330, R331) -/

/-- What is wrong with a fetched descriptor, checked in the order of R302: code and detail (R311, R316; log 101). -/
def descRefused (d : BitVec 256) (s : State) : Option (Nat × Nat) :=
  let len := descLen d
  if len = 0 ∨ len > 16777216 then some (rLength, 0x0A)
  else if field d 101 27 ≠ 0 ∨ field d 153 7 ≠ 0 ∨ field d 168 24 ≠ 0 ∨ descSwap d > 4 then some (rParam, 0x09)
  else if len % swapUnit (descSwap d) ≠ 0 then some (rParam, 0x08)
  else if !hostReach (!descDir d) (descStg d) len s then some (rParam, 0x07)
  else none

/-- DESCRIPTOR_FETCH (R311, R315, R316). -/
def execDescriptorFetch (c : Fin 8) (d : BitVec 256) (s : State) : Host.Outcome State Fault Refusal :=
  done (fun s =>
    if !fetchComes c s then s
    else
      let s := count 0x8200 32 (modHost c (fun h => { h with fetching := false }) s)
      match descRefused d s with
      | some (code, detail) => failDesc c code detail s
      | none => modHost c (fun h => { h with desc := some d, asked := false }) s) s

/-- The descriptor ends without error: STATUS, HEAD, HDONE; a channel disabled meanwhile stops at index 0 (R306, R317,
R325). -/
def endDesc (c : Fin 8) (d : BitVec 256) (s : State) : State :=
  let s := count (0x8240 + 8 * c.val) (descLen d) (writeStatus c rOk 0 s)
  let s := modHost c (fun h => { h with
    desc := none, asked := false, rewind := false
    head := if h.enable && !h.rewind then BitVec.ofNat 12 ((h.head.toNat + 1) % 2 ^ h.log2.toNat) else 0 }) s
  if descIrq d then setLeaf 2 1 { s with dma.hdone := setBit s.dma.hdone c.val } else s

/-- Bytes of a write of any alignment that reach staging before a merge of it is abandoned (Table 07-21). -/
def mergedBytes (off : Nat) (bs : List Byte) (s : State) : Nat :=
  ((List.range (lineCount off bs.length)).foldl (fun (acc : NarrowEnd × Nat × State) i =>
    if acc.1 = .aborted then acc
    else
      let p := linePart off bs i
      let r := writeMerged p.1 p.2 acc.2.2
      (r.1, if r.1 = .done then acc.2.1 + p.2.length else acc.2.1, r.2)) (.done, 0, s)).2.1

/-- Host to staging: the bytes count toward the acceptance cap and go to staging, narrow ends merged or refused (R309, R312,
R323, R414, R428). -/
def descIn (c : Fin 8) (d : BitVec 256) (bs : List Byte) (s : State) : State :=
  let off := descStg d
  let s := countAccepted bs.length (count 0x8200 bs.length s)
  let bs := swapBytes (descSwap d) bs
  if !hostReach true off bs.length s then failDesc c rParam 0x07 s
  else if hasNarrow off bs.length && !hostMerges s then
    let body := if off % 64 ≠ 0 then [] else bs.take ((off + bs.length) / 64 * 64 - off)
    failDesc c rParam 0x06 (rejectNarrow (count (0x8240 + 8 * c.val) body.length (writeMerged off body s).2))
  else
    let phase := s.boot.phase
    let r := writeMerged off bs s
    if r.1 = .aborted then (if r.2.boot.phase = phase then
        failDesc c rFault 0x05 (count (0x8240 + 8 * c.val) (mergedBytes off bs s) r.2) else r.2)
    else endDesc c d (if descBarrier d then flushRange off bs.length r.2 else r.2)

/-- Staging to host, and the barrier's read of the last DW (R312). -/
def descOut (c : Fin 8) (d : BitVec 256) (s : State) : State :=
  readOut c d (fun bs s =>
    let s := writeOut d bs s
    endDesc c d (if descBarrier d then count 0x8200 4 (barrierRead d s) else s)) s

/-- The descriptor can end: its reads were issued and complete, or its writes, and its barrier's read, may be issued (R312,
R327, R339). -/
def endComes (c : Fin 8) (d : BitVec 256) (s : State) : Bool :=
  if descDir d then pcieIssues s && s.dma.shareWr != 0 && (!descBarrier d || s.dma.shareRd != 0)
  else s.dma.chan[c].asked && pcieAlive s

/-- DESCRIPTOR_END. -/
def execDescriptorEnd (c : Fin 8) (e : DescEnd) (s : State) : Host.Outcome State Fault Refusal :=
  done (fun s =>
    match s.dma.chan[c].desc, e with
    | none, _ => s
    | some d, .data bs =>
      if !endComes c d s then s
      else if descDir d then throughBuffer (descOut c d) s
      else if bs.length = descLen d then throughBuffer (descIn c d bs) s
      else s) s

/-! ### The DMA commands (R338 to R340) -/

/-- Bytes of a buffer in use: none when nothing moves, else a matter of the transfers' progress, a free value. -/
def bufferUse (moving : Bool) (limit : Nat) (s : State) : Nat × State :=
  if moving then
    let f := freeValue s
    (f.1.toNat % (limit + 1), f.2)
  else (0, s)

/-- Something is being written to the host: a descriptor from staging, or a restore's output. -/
def writesUnderWay (s : State) : Bool :=
  s.dma.chan.toList.any (fun h => match h.desc with
    | some d => descDir d
    | none => false) || s.rst.reqs.any (fun q => decide (q.output = 0))

def dmaInfo : Cmd := {
  opcode := 0x0901, safe := true, lens := fun _ => [0]
  act := fun _ s =>
    let r := readsOutstanding s
    let rd := bufferUse (readsUnderWay s) (1536 * 1024) r.2
    let wr := bufferUse (writesUnderWay s) (512 * 1024) rd.2
    (rOk, [pcieLink s, w32 r.1, w32 rd.1, w32 wr.1, pack [(4, s.dma.shareWr.toNat), (0, s.dma.shareRd.toNat)]], wr.2) }

/-- DMA.INFO (R338). -/
def execDmaInfo (ch : Chan) (s : State) : Host.Outcome State Fault Refusal := done (runCommand dmaInfo ch) s

def dmaShare : Cmd := {
  opcode := 0x0902, lens := fun _ => [2], param := fun m _ => decide ((m.p 1).toNat > 8 ∨ (m.p 2).toNat > 8)
  act := fun m s => (rOk, [m.p 1, m.p 2], { s with
    dma.shareRd := (m.p 1).truncate 4, dma.shareWr := (m.p 2).truncate 4 }) }

/-- DMA.SHARE (R339). -/
def execDmaShare (ch : Chan) (s : State) : Host.Outcome State Fault Refusal := done (runCommand dmaShare ch) s

/-- The answer of DMA.RINGS (Table 07-10). -/
def ringsWords (i : Strm) (s : State) : List Word :=
  let m := s.ing.stream[i]
  match m.rings with
  | none => [0, 0, 0, 0, 0, 0, 0, w32 m.held.length]
  | some r =>
    [if m.state = .detached then 2 else 1, if r.hasSq then w32 (2 ^ r.sqLog) else 0, w32 m.sqHead.toNat, w32 (2 ^ r.cqLog),
     w32 m.cqTail.toNat, w32 m.cqHead.toNat, w32 m.reserved, w32 m.held.length]

def dmaRings : Cmd := {
  opcode := 0x0903, safe := true, lens := fun _ => [1], param := fun m _ => decide ((m.p 1).toNat > 63)
  act := fun m s => (rOk, ringsWords (Fin.ofNat 64 (m.p 1).toNat) s, s) }

/-- DMA.RINGS (R340). -/
def execDmaRings (ch : Chan) (s : State) : Host.Outcome State Fault Refusal := done (runCommand dmaRings ch) s

end Sys2Proof.Machine
end

