-- ==== Sys2Proof/Machine/FamBoot.lean ====
section
/-!
DEFINITION. Resets from outside, supplies, clocks, standby, boot, the watchdog and the junction sensors (ch03, ch17, ch19).
-/
namespace Sys2Proof.Machine
open Sys2Proof

/-! ### Power-on, RESET_N and the supplies (R115, R121, R122, R133, R718, R719, R834) -/

/-- PD_SUP is out of reset and clocked, so that its leaves and counters can change (R834). -/
def supUp (s : State) : Bool := 
  s.power.cclk && s.boot.phase != .held && s.boot.phase != .standby && s.boot.phase != .copying

/-- Everything is lost but the fuses, and the formatter waits in reset (R129 code 0x0, R132, R794). The pins PERST_N and
RESET_N are the board's; RESET_N counts as low until its release (R96). -/
def powerLost (down : Bool) (s : State) : State :=
  { pending := s.pending, out := s.out, free := s.free, rateRoom := s.rateRoom
    nv := { rows := s.nv.rows }
    aon := { perstLow := s.aon.perstLow, vaonDown := down } }

/-- POWER_ON_RESET: VAON rises through 1.20 V. -/
def execPowerOnReset (s : State) : Host.Outcome State Fault Refusal := done (powerLost false) s

/-- VAON_POWER_ON_CROSSING: VAON falls below 1.20 V (R132, R718). -/
def execVaonPowerOnCrossing (s : State) : Host.Outcome State Fault Refusal := done (powerLost true) s

/-- RESET_N_ASSERT: low for the filter time (R115, R123). Boundary scan freezes the input (R772). -/
def execResetNAssert (s : State) : Host.Outcome State Fault Refusal :=
  done (fun s =>
    if s.aon.resetLow || padctl s then s
    else
      let t : State := { s with aon.resetLow := true }
      if s.boot.phase = .standby ∨ s.aon.vaonDown = true then t else enterReset 1 0 t) s

/-- An edge that may end standby is heeded (R108). -/
def edgeHeeded (s : State) : Bool := !s.aon.vcoreLow && !s.aon.refclkLost

/-- RESET_N_RELEASE: the straps are sampled, and boot starts when nothing else holds the reset; in standby the edge ends
standby (R69, R96, R108, R129, R133). The rails have been good for a millisecond, so both monitors are armed (R834). -/
def execResetNRelease (straps : BitVec 8) (s : State) : Host.Outcome State Fault Refusal :=
  done (fun s =>
    if s.aon.vaonDown || padctl s then s
    else
      let t : State := { s with aon.resetLow := false, aon.straps := straps.truncate 4, aon.vaonArmed := true, aon.vcoreArmed := true }
      if s.boot.phase = .standby then
        if edgeHeeded s then enterReset 10 0 t else { s with aon.resetLow := false }
      else if s.aon.resetLow then bootOn t
      else s) s

/-- VAON_BROWNOUT (R718, R731). -/
def execVaonBrownout (s : State) : Host.Outcome State Fault Refusal :=
  done (fun s =>
    if !s.aon.vaonArmed || s.aon.vaonLow || s.aon.vaonDown then s
    else enterReset 2 0 { s with aon.vaonLow := true }) s

/-- VCORE_BROWNOUT; in standby it is no reset, and the monitor arms again when the rail is back (R718, R734, R834). -/
def execVcoreBrownout (s : State) : Host.Outcome State Fault Refusal :=
  done (fun s =>
    if !s.aon.vcoreArmed || s.aon.vcoreLow || s.aon.vaonDown then s
    else if s.boot.phase = .standby then { s with aon.vcoreLow := true, aon.vcoreArmed := false }
    else enterReset 3 0 { s with aon.vcoreLow := true }) s

/-- BROWNOUT_RELEASE: the rail has stayed at its release level (R718, R834). -/
def execBrownoutRelease (rail : Rail) (s : State) : Host.Outcome State Fault Refusal :=
  done (fun s =>
    if s.aon.vaonDown then s
    else match rail with
      | .vaon => bootOn { s with aon.vaonLow := false, aon.vaonArmed := true }
      | .vcore => bootOn { s with aon.vcoreLow := false, aon.vcoreArmed := true }) s

/-- NV_INHIBIT: no row starts, and a row in progress is abandoned (R507, R719, R834). -/
def execNvInhibit (s : State) : Host.Outcome State Fault Refusal :=
  done (fun s =>
    if s.aon.nvInhibit || s.aon.vaonDown then s
    else
      let s : State := { s with aon.nvInhibit := true }
      if supUp s then nvAbandon (count 0x8C00 1 (setLeaf 21 0 s))
      else match s.nv.phase with
        | .row _ _ => bootOn { s with nv.phase := .idle }
        | _ => s) s

/-- NV_RESUME (R718, R834). -/
def execNvResume (s : State) : Host.Outcome State Fault Refusal :=
  done (fun s =>
    if !s.aon.nvInhibit || s.aon.vaonDown then s
    else
      let s : State := { s with aon.nvInhibit := false }
      if supUp s then setLeaf 21 1 s else s) s

/-! ### Clocks (R113, R114, R124, R129, R136, R137) -/

/-- REFCLK_LOSS: CCLK stops, and the formatter resets as source 0x4; in standby the loss only keeps edges from being
heeded (R108, R113, R124). -/
def execRefclkLoss (s : State) : Host.Outcome State Fault Refusal :=
  done (fun s =>
    if s.aon.refclkLost || s.aon.vaonDown then s
    else
      let t : State := { s with aon.refclkLost := true }
      if s.boot.phase = .standby then t else enterReset 4 0 { t with power.cclk := false }) s

/-- REFCLK_RETURN (R114, R129). -/
def execRefclkReturn (s : State) : Host.Outcome State Fault Refusal :=
  done (fun s => bootOn { s with aon.refclkLost := false }) s

/-- The fuse load starts once CCLK runs, and after source 0x4 or 0x5 once the HBM3 PLL is locked too (R129, Table 03-9
step 2). -/
def bootClocked (s : State) : State :=
  if s.boot.phase = .pll ∧ s.power.cclk = true ∧
      (s.aon.cause = 4 ∨ s.aon.cause = 5 → s.power.pll.getLsbD 0 = true) then { s with boot.phase := .fuses } else s

/-- PLL_LOCK: CCLK runs, the stamp and its epoch begin, and the fuse load starts; or the HBM3 PLL is locked (R129, R741,
Table 03-9 step 2). -/
def execPllLock (pll : CorePll) (s : State) : Host.Outcome State Fault Refusal :=
  done (fun s =>
    match pll with
    | .core => if s.boot.phase = .pll ∧ s.aon.refclkLost = false ∧ s.power.cclk = false then
        bootClocked { s with power.cclk := true, tether.stamp := 0, tether.epoch := 0 } else s
    | .hbm => if supUp s || (s.boot.phase == .pll && !s.aon.refclkLost) then
        bootClocked { s with power.pll := setBit s.power.pll 0 } else s) s

/-- PLL_LOST_LOCK (R129 code 0x5). -/
def execPllLostLock (pll : CorePll) (s : State) : Host.Outcome State Fault Refusal :=
  done (fun s =>
    match pll with
    | .core => if s.power.cclk then enterReset 5 0 { s with power.cclk := false } else s
    | .hbm => if (supUp s || s.boot.phase == .copying) && s.power.pll.getLsbD 0 then enterReset 5 0 s else s) s

/-- PLL_STAT's bit of a SerDes PLL, counted from HBM (Table 03-21), and the summary source of its link's block. -/
def pllBit : SerdesPll → Nat
  | .pcie => 1
  | .eth p => 2 + p.val
  | .trn n => 4 + n.val

def linkBlock : SerdesPll → Nat
  | .pcie => 1
  | .eth p => 3 + p.val
  | .trn n => 11 + n.val

/-- The link goes down, as its chapter has it: a link-down on the upstream port, the loss of an Ethernet link, or the end of a
link start (R136, R137; R335, R381). -/
def linkGone (l : SerdesPll) (s : State) : State :=
  match l with
  | .pcie => if hostUp s then setLeaf 1 0 (pcieReset true s) else s
  | .eth p => ethDown p false s
  | .trn n => startLost n s

/-- PLL_UNLOCK: level 1 for a transport, which is lost; level 2 for PCIe or Ethernet (R136). -/
def execPllUnlock (pll : SerdesPll) (s : State) : Host.Outcome State Fault Refusal :=
  doneS (fun s =>
    if !supUp s || !s.power.pll.getLsbD (pllBit pll) then s
    else
      let s : State := { s with power.pll := clrBit s.power.pll (pllBit pll) }
      match pll with
      | .trn n =>
        let r := if s.trn[n].port == .up then loseTransport n rMedia s else ([], startLost n s)
        let s := setLeaf 23 0 r.2
        let s := if s.faults.safe then (haltBlock (11 + n.val) s).2 else s
        queueFault { level := 1, source := 23, leaf := leafCode 0 0, stamp := s.tether.stamp, detail := 0
                     preempted := false, owes := r.1 } s
      | l => raise2 23 (leafCode 0 0) (linkBlock l) 0 (linkGone l s)) s

/-- GEARBOX_SLIP: the block of the link or of the HBM3 channel halts, and replay breaks (R137, R760). -/
def execGearboxSlip (box : Gearbox) (s : State) : Host.Outcome State Fault Refusal :=
  doneS (fun s =>
    if !supUp s then s
    else match box with
      | .link l => raise2 23 (leafCode 0 3) (linkBlock l) 0 (linkGone l (replayBreak 2 s))
      | .hbm _ => raise2 23 (leafCode 0 3) 6 0 (replayBreak 2 s)) s

/-! ### PERST_N and standby (R106 to R109, R123, R126 to R128) -/

/-- Standby is entered: the freeze copy with reason STANDBY, and every domain off; the interlock inputs latch for the
wake detector, and a wake request that came early is heeded now (R107, R109, R123). Where the copy meets a failing line the
formatter resets instead (R396). -/
def enterStandby (s : State) : State :=
  let s := freeze 0x10 0xFF s
  if s.boot.phase = .copying then s
  else
  let t := clearDomains s
  let pins : BitVec 24 := ofBits 24 (fun k => match s.aux.pin[k]? with
    | some p => p.active == 4 && !p.parked
    | none => false)
  { t with
    dm := {}, power.on := 0, boot.phase := .standby
    aon := { t.aon with wakeN := s.aon.wakeLate, wakeLate := false, wakePins := pins, wakePol := s.aux.pol } }

/-- PERST_N_ASSERT (R106, R126, R127). -/
def execPerstNAssert (s : State) : Host.Outcome State Fault Refusal :=
  done (fun s =>
    if s.aon.perstLow || s.aon.vaonDown || padctl s then s
    else
      let s : State := { s with aon.perstLow := true, aon.persts := satInc s.aon.persts }
      if s.power.standbyAcked then enterStandby s
      else if supUp s then setLeaf 23 2 (pcieReset false s)
      else s) s

/-- PERST_N_RELEASE: the controller answers again once the boot ROM has enabled it; in standby the edge ends standby, and
the straps keep their samples (R108, R128, R133, R141). -/
def execPerstNRelease (s : State) : Host.Outcome State Fault Refusal :=
  done (fun s =>
    if !s.aon.perstLow || s.aon.vaonDown || padctl s then s
    else
      let s : State := { s with aon.perstLow := false }
      if s.boot.phase = .standby then (if edgeHeeded s then enterReset 10 0 s else s)
      else { s with pcie.cfgUp := s.i2c.enabled }) s

/-- PME_TURN_OFF is answered, and an accepted standby request takes effect (R106). -/
def execPmeTurnOff (s : State) : Host.Outcome State Fault Refusal :=
  done (fun s => if s.power.standbyAcked && hostUp s then enterStandby (emit .pmeToAck s) else s) s

/-- STANDBY_ACK_TIMEOUT: 100 ms after the ACK (R106). -/
def execStandbyAckTimeout (s : State) : Host.Outcome State Fault Refusal :=
  done (fun s => if s.power.standbyAcked then enterStandby s else s) s

/-- The event asks for the end of standby: the strapped address, or the asserted level on a pin that latched as an
interlock input (R109). -/
def asksWake (pins pol : BitVec 24) (w : WakeBy) (s : State) : Bool :=
  match w with
  | .i2c a => a == BitVec.ofNat 7 (0x58 + field s.aon.straps 2 2)
  | .aux k pad => pins.getLsbD k.val && (pad != pol.getLsbD k.val)

/-- WAKE_REQUEST (R109, R123). Before standby entry only an interlock input asks; the I2C target answers itself. -/
def execWakeRequest (w : WakeBy) (s : State) : Host.Outcome State Fault Refusal :=
  done (fun s =>
    if s.boot.phase = .standby then
      if asksWake s.aon.wakePins s.aon.wakePol w s then { s with aon.wakeN := true } else s
    else if s.power.standbyAcked && !padctl s then
      let pins : BitVec 24 := ofBits 24 (fun k => match s.aux.pin[k]? with
        | some p => p.active == 4 && !p.parked
        | none => false)
      if asksWake pins s.aux.pol w s then { s with aon.wakeLate := true } else s
    else s) s

/-! ### Boot (R137 to R150, Table 03-9) -/

/-- BOOTSEL as sampled (Table 03-12). -/
def bootsel (s : State) : Nat := field s.aon.straps 0 2

/-- BOOT_FAIL with a reason of Table 03-8: no firmware runs (R138). -/
def bootFail (reason : Nat) (s : State) : State :=
  { s with
    boot.phase := .failed, boot.fwState := 6, boot.reason := BitVec.ofNat 8 reason
    dbg.wdArmed := false, dbg.wdRemain := 0 }

/-- FUSE_LOAD_DONE: the settings in force are known; a refusal found here still leaves step 4 to come (R138, R493, R497,
R512). -/
def execFuseLoadDone (readable : Bool) (s : State) : Host.Outcome State Fault Refusal :=
  done (fun s =>
    if s.boot.phase ≠ .fuses ∨ s.faults.safe = true then s
    else
      let s : State := { s with boot.fusesLoaded := true, nv.bootLife := BitVec.ofNat 4 (lifeCode s) }
      let s := if !readable || fuseFaulty 0 s || fuseFaulty 1 s then bootFail 2 s
        else if bootsel s = 3 ∧ lifeCode s ≥ 3 then bootFail 9 s
        else s
      { s with boot.phase := .selfTest }) s

/-- The boot ROM starts to look for an image in flash: the QSPI pins are driven, and the SFDP table is read (R147, Table 03-9
step 5). -/
def startFlash (s : State) : State := emit .sfdpRead { s with boot.fwState := 1, boot.qspiOn := true }

/-- Flash address of an image slot (R145). -/
def slotAddr (slot : Bool) : Nat := if slot then 0x00400000 else 0

/-- The fastest quad read mode of an SFDP table; none where it lists neither (R147). -/
def quadMode (t : Sfdp) : Option FlashMode :=
  if t.mode144 then some { quadAddr := true, addr4 := t.addr4 }
  else if t.mode114 then some { quadAddr := false, addr4 := t.addr4 }
  else none

/-- SELF_TEST_DONE: PCIe and the I2C target are enabled in every boot; then the boot ROM goes on or stops (R138, Table 03-9
steps 4 and 5). -/
def execSelfTestDone (r : SelfTest) (s : State) : Host.Outcome State Fault Refusal :=
  done (fun s =>
    if s.boot.phase ≠ .selfTest ∨ s.faults.safe = true then s
    else
      let s : State := { s with i2c.enabled := true, pcie.cfgUp := !s.aon.perstLow }
      if s.boot.fwState = 6 then { s with boot.phase := .failed }
      else match r with
        | .failed => bootFail 1 s
        | .passed =>
          let s : State := { s with boot.phase := .rom, boot.fwState := 0 }
          if bootsel s = 0 ∨ bootsel s = 2 then startFlash s else s) s

/-- Fjarma lays out the control regions and the ring, starts the scrubber and opens BAR2, once HBM3 is trained; the writer's
whole lines go to the ring (R395, R431, R745, Table 03-9 step 9). -/
def layOut (s : State) : State :=
  if s.boot.phase = .init ∧ s.boot.hbmReady = true ∧ s.stg.laidOut = false then
    (List.range (s.tether.ringPos / 4)).foldl storeRing { s with
      stg.laidOut := true, stg.ringExtents := s.mbx.config.tetherRingMib, stg.scrubbing := true, stg.bar2Open := true
      stg.mem := spDrop (fun a => decide (a < 256 * extBytes)) s.stg.mem
      stg.errs := spDrop (fun l => decide (l < 256 * 16384)) s.stg.errs
      stg.poison := spDrop (fun l => decide (l < 256 * 16384)) s.stg.poison }
  else s

/-- A DEBUG entry, always with its one continuation (Table 18-2). -/
def debugEntry (action reg addr value : Nat) (s : State) : State :=
  logEntry 0x40 (action + 256 * reg) [addr + 2 ^ 64 * value] s

/-- The core halts (R756, R779, R780). -/
def haltCore (s : State) : State :=
  debugEntry 0 0 0 0 (count 0x8E08 1 (setLeaf 25 1 { s with dbg.halted := true, dm.haltDue := false }))

/-- The DEPLOYED and RETIRED column of Table 19-2 applies (R497, R773). -/
def limited (s : State) : Bool := decide (s.nv.bootLife.toNat ≥ 3)

/-- A halt request that waited takes effect, where the lifecycle state heeds it (R773, R774). -/
def takeHalt (s : State) : State :=
  if !s.dm.haltDue then s
  else if limited s then { s with dm.haltDue := false }
  else haltCore s

/-- Fjarma's first instruction: FW_INIT, the watchdog armed, START, the layout, and a halt that waited (R748, R774,
R782). -/
def startFirmware (s : State) : State :=
  let s : State := { s with
    boot.phase := .init, boot.fwState := 4, boot.checking := false
    dbg.wdArmed := true, dbg.wdRemain := 2000, dbg.runs := s.dbg.runs + 1 }
  takeHalt (layOut (writeStart s))

/-- WAIT_HOST once HBM3 is trained (R148). -/
def waitHost (s : State) : State := if s.boot.hbmReady then { s with boot.fwState := 2 } else s

/-- HBM_TRAINING_DONE: `ok` has a bit for each stack (R138 reason 0x03, R148, Table 03-12). -/
def execHbmTrainingDone (ok : BitVec 4) (s : State) : Host.Outcome State Fault Refusal :=
  done (fun s =>
    if s.boot.hbmReady || s.faults.safe || !(s.boot.phase == .rom || s.boot.phase == .init) then s
    else if ok ≠ 15 then bootFail 3 { s with stg.stackOk := ok }
    else
      let s : State := { s with boot.hbmReady := true, stg.stackOk := ok, power.pll := setBit s.power.pll 0 }
      if s.boot.phase = .init then layOut s
      else if bootsel s = 1 ∨ s.boot.flashSpent = true then waitHost s
      else if bootsel s = 3 then takeHalt { s with boot.fwState := 3, dbg.runs := s.dbg.runs + 1 }
      else s) s

/-- The code of Table 03-8 that refuses an image; 0 accepts it (R143). -/
def imageRefusal (img : List Byte) (s : State) : Nat :=
  let body := leAt img 8 4
  let ilen := leAt img 12 4
  let dlen := leAt img 16 4
  if img.length < 512 + body ∨ leAt img 0 4 ≠ 0x58465731 ∨ leAt img 4 2 ≠ 1 ∨ ilen + dlen ≠ body ∨ ilen > 2 ^ 20 ∨
      dlen > 2 ^ 21 then 5
  else if some (sha384 (slice img 0x80 96)) ≠ keyHash s then 6
  else if ecdsaVerify (slice img 0x80 96) (slice img 0xE0 96) (slice img 0 0xE0 ++ slice img 0x200 body) = false then 7
  else if leAt img 0x18 4 < minSecver s then 8
  else 0

/-- Words of instruction SRAM as the image loads them (Table 03-11). -/
def imageSram (img : List Byte) : Sparse (Option Word) :=
  (List.range ((leAt img 12 4 + 3) / 4)).map (fun i => (0x80000000 + 4 * i, some (wordAt img (0x200 + 4 * i))))

/-- An image is accepted and runs (R139, R143, R146). -/
def runImage (img : List Byte) (slot : Bool) (s : State) : State :=
  startFirmware { s with
    boot.slot := slot, boot.reason := 0
    boot.version := wordAt img 0x1C, boot.secver := wordAt img 0x18
    boot.digest := some (sha384 (slice img 0 0xE0 ++ slice img 0x200 (leAt img 8 4)))
    dbg.sram := imageSram img }

/-- No flash image is left to try: BOOT_FAIL, or a host load (R139, Table 03-12). -/
def flashOver (code : Nat) (s : State) : State :=
  if bootsel s = 0 then bootFail code s
  else waitHost { s with boot.flashSpent := true, boot.reason := BitVec.ofNat 8 code }

/-- An image slot was read in the mode of the SFDP table and checked: it runs, or the next slot is tried (R139, R145 to R147).
A table without a quad read mode is no valid one (log 169). -/
def flashChecked (t : Sfdp) (img : List Byte) (s : State) : State :=
  match quadMode t with
  | none => flashOver 4 s
  | some mode =>
    let s := emit (.flashRead mode (slotAddr s.boot.trySlot)) { s with boot.flashMode := some mode }
    match imageRefusal img s with
    | 0 => runImage img s.boot.trySlot s
    | c => if s.boot.trySlot then flashOver c s
        else { s with boot.trySlot := true, boot.reason := BitVec.ofNat 8 c }

/-- The host's image is read from staging and checked. A refusal leaves WAIT_HOST and sets REASON, over what the flash left
there (R150; log 170); a fault of the read that enters the safe state keeps the image from running (R134). -/
def hostChecked (s : State) : State :=
  let r := readRange 0 s.boot.loadLength.toNat [] s
  let s := afterRead r.2.1 [] r.2.2
  if s.faults.safe ∨ s.boot.phase ≠ .rom then s
  else match imageRefusal r.1 s with
    | 0 => runImage r.1 false s
    | c => { s with boot.checking := false, boot.reason := BitVec.ofNat 8 c }

/-- IMAGE_CHECK_DONE (R139, R143, R146, R148, R150). -/
def execImageCheckDone (fetched : ImageFetch) (s : State) : Host.Outcome State Fault Refusal :=
  done (fun s =>
    let flash := s.boot.phase == .rom && (bootsel s == 0 || bootsel s == 2) && !s.boot.flashSpent
    if s.boot.phase ≠ .rom ∨ s.faults.safe = true then s
    else match fetched with
      | .noFlash => if flash then flashOver 4 s else s
      | .flash t img => if flash then flashChecked t img s else s
      | .host => if s.boot.fwState ≠ 2 ∨ s.boot.checking = false then s else hostChecked s) s

/-- READY: Fjarma has initialised; its blocks are enabled, and engines and units whose known-answer tests failed stay out of
service (R142, R235, Table 03-9 steps 10 and 11, ch10, ch11). -/
def execReady (r : InitResult) (s : State) : Host.Outcome State Fault Refusal :=
  done (fun s =>
    if s.boot.phase ≠ .init ∨ s.stg.laidOut = false ∨ s.dbg.halted = true ∨ s.faults.safe = true then s
    else if !r.ok then bootFail 10 s
    else
      let s : State := { s with
        boot.phase := .running, boot.fwState := 5, boot.bootTime := r.micros
        power.pll := s.power.pll ||| 0xFFC
        dma.enabled := true, ing.enabled := true, cmp.enabled := true, cip.enabled := true, fmt.enabled := true
        gov.enabled := true, cip.entropyOk := true
        cmp.engine := Vector.ofFn (fun e => { getN s.cmp.engine e.val {} with off := r.cmpFailed.getLsbD e.val })
        cip.unit := Vector.ofFn (fun u => { getN s.cip.unit u.val {} with off := r.cipFailed.getLsbD u.val }) }
      if 6 ≤ s.aon.cause.toNat ∧ s.aon.cause.toNat ≤ 9 then setLeaf 26 6 s else s) s

/-! ### The watchdog (R779, R782, R791) -/

/-- WD_WARN: less than 1,000 ms remain. -/
def execWdWarn (s : State) : Host.Outcome State Fault Refusal :=
  done (fun s => if s.dbg.wdArmed && !s.dbg.halted then setLeaf 25 2 { s with dbg.wdRemain := 999 } else s) s

/-- WATCHDOG_EXPIRY: reset source 0x6 with its freeze copy. -/
def execWatchdogExpiry (s : State) : Host.Outcome State Fault Refusal :=
  done (fun s => if s.dbg.wdArmed && !s.dbg.halted then enterReset 6 0 s else s) s

/-! ### The junction sensors (R721 to R725, R735 to R737) -/

def insertInt (x : Int) : List Int → List Int
  | [] => [x]
  | y :: t => if x ≤ y then x :: y :: t else y :: insertInt x t

/-- Twice the median: the sum of the two middle readings (R735). -/
def median2 (xs : List Int) : Int :=
  let ys := xs.foldl (fun ys x => insertInt x ys) []
  ys.getD ((ys.length - 1) / 2) 0 + ys.getD (ys.length / 2) 0

/-- Readings of the valid sensors but sensor `i`. -/
def otherReadings (valid : BitVec 8) (rs : List Int) (i : Nat) : List Int :=
  (rs.zipIdx.filter (fun x => valid.getLsbD x.2 && decide (x.2 ≠ i))).map (·.1)

/-- The reading stands more than 25.0 °C from the median of the other valid sensors (R735). -/
def standsApart (valid : BitVec 8) (rs : List Int) (i : Nat) : Bool :=
  let os := otherReadings valid rs i
  let d := 2 * rs.getD i 0 - median2 os
  valid.getLsbD i && !os.isEmpty && decide (d.natAbs > 500)

/-- A count of R722 and R723 pair: samples at or beyond the entry level, and at or beyond the leaving level. -/
def countSample (t hi lo : Int) (c : Nat × Nat) : Nat × Nat :=
  if t ≥ hi then (min 16 (c.1 + 1), 0) else if t ≤ lo then (0, min 16 (c.2 + 1)) else (0, 0)

/-- Validity, temperatures and counts after a sample; T_max where a sensor is valid (R721 to R723, R735, R736). -/
def takeSample (rs : List Int) (s : State) : Option Int × State :=
  let inRange : BitVec 8 := s.therm.valid &&& ofBits 8 (fun i => decide (-400 ≤ rs.getD i 0 ∧ rs.getD i 0 ≤ 1500))
  let apart : Vector Nat 8 := Vector.ofFn (fun i =>
    if standsApart inRange rs i.val then min 16 (getN s.therm.apart i.val 0 + 1) else 0)
  let valid : BitVec 8 := inRange &&& ofBits 8 (fun i => decide (getN apart i 0 < 16))
  let s := if valid = s.therm.valid then s else setLeaf 22 3 s
  let s : State := { s with
    therm.valid := valid, therm.apart := apart
    therm.temp := Vector.ofFn (fun i => BitVec.ofInt 16 (rs.getD i.val 0)) }
  match otherReadings valid rs 8 with
  | [] => (none, { s with therm.hot := 0, therm.cool := 0, therm.critHot := 0, therm.critCool := 0 })
  | x :: t =>
    let m := t.foldl max x
    let a := countSample m 1000 960 (s.therm.hot, s.therm.cool)
    let b := countSample m 1100 1060 (s.therm.critHot, s.therm.critCool)
    (some m, { s with
      therm.hot := a.1, therm.cool := a.2, therm.critHot := b.1, therm.critCool := b.2
      therm.now := BitVec.ofInt 16 m
      therm.peak := if s.therm.sampled && decide (m < s.therm.peak.toInt) then s.therm.peak else BitVec.ofInt 16 m
      therm.sampled := true })

/-- Groups above the cap come down to it at once, without the dwell (R649, R724). -/
def capGroups (s : State) : State :=
  if !govOn s then s
  else
    let k := kMax s
    let ms := allTrn.filter (fun n => decide (s.gov.mem[n].setPoint > k))
    let s := ms.foldl (fun s n => modGov n (fun g => { g with setPoint := k, below := 0 }) s) s
    ms.foldl (fun s n => commandMember n s) s

/-- Transports reading on the move take the pass speed now in force (R724, Table 17-3). -/
def capReading (s t : State) : State :=
  allTrn.foldl (fun t n =>
    let on := t.rst.trn[n].reading || t.trn[n].loading.any (fun l => l.phase == .reading)
    if on && (t.trn[n].motion == 1 || t.trn[n].motion == 2) && passCode n s != passCode n t then runPass n t else t) t

/-- The throttle enters or leaves force (R722, R724, R736). -/
def setThrottle (on : Bool) (s : State) : State :=
  if on = s.therm.throttle then s
  else
    let t : State := { s with therm.throttle := on }
    let t := if on then capGroups (count 0x8C08 1 (setLeaf 22 0 t)) else setLeaf 22 1 t
    capReading s t

/-- The critical condition enters or leaves force (R723 to R725, R737). -/
def setCritical (on : Bool) (s : State) : State :=
  if on = s.therm.critical then s
  else if on then raise3 22 (leafCode 0 2) 0 { s with therm.critical := true, therm.thermN := true }
  else { s with therm.critical := false, therm.thermN := false }

/-- The SENSOR entry (Table 18-2). -/
def sensorEntry (s : State) : State :=
  let w (i : Nat) : Nat := (getN s.therm.temp i 0).toNat
  let q (i : Nat) : Nat := w i + 2 ^ 16 * w (i + 1) + 2 ^ 32 * w (i + 2) + 2 ^ 48 * w (i + 3)
  logEntry 0x21 (q 0) [q 4 + 2 ^ 64 * (b2n s.aon.nvInhibit + 2 * b2n s.therm.throttle)] s

/-- An injected offset begins with this sample (R785 code 8). -/
def armOffset (s : State) : State :=
  match takeInjector 8 (fun _ => true) s with
  | (some a, s) => { s with dbg.offsets :=
      (s.dbg.offsets.filter (fun o => decide (o.1 ≠ field a.p2 0 3))) ++ [(field a.p2 0 3, (a.p3.truncate 16 : BitVec 16).toInt)] }
  | (none, s) => s

/-- The readings with the offsets in force. -/
def withOffsets (rs : List Int) (s : State) : List Int :=
  rs.zipIdx.map (fun x => x.1 + ((s.dbg.offsets.filter (fun o => o.1 = x.2)).map (·.2)).sum)

/-- THERMAL_SAMPLE: the 8 readings in 0.1 °C, from step 2 of boot on (R721, R737). -/
def execThermalSample (readings : List Int) (s : State) : Host.Outcome State Fault Refusal :=
  done (fun s =>
    if !supUp s || readings.length != 8 then s
    else
      let s := armOffset s
      let r := takeSample (withOffsets readings s) s
      let s := r.2
      let n := popcount s.therm.valid
      let s := setThrottle (decide (n < 4) || (if s.therm.throttle then decide (s.therm.cool < 16) else decide (s.therm.hot = 16))) s
      let s := if s.therm.throttle then count 0x8C10 1 s else s
      let s := sensorEntry s
      setCritical (decide (n = 0) ||
        (if s.therm.critical then decide (s.therm.critCool < 16) else decide (s.therm.critHot = 16))) s) s

/-- INJECT_OFFSET_END (R785 code 8). -/
def execInjectOffsetEnd (sensor : Fin 8) (s : State) : Host.Outcome State Fault Refusal :=
  done (fun s => { s with dbg.offsets := s.dbg.offsets.filter (fun o => decide (o.1 ≠ sensor.val)) }) s

end Sys2Proof.Machine
end

