-- ==== Sys2Proof/Machine/FamDebug.lean ====
section
/-!
DEFINITION. The DIAG family, the TAP, the debug module, system bus access and taint (ch19).
-/
namespace Sys2Proof.Machine
open Sys2Proof

/-! ### DIAG.INFO and DIAG.LOOP (R783, R784, R789, R793, R795, R796) -/

def diagInfo : Cmd := {
  opcode := 0x0A01, safe := true, lens := fun _ => [0]
  act := fun _ s => (rOk, [dbgStat s, diagArmed s, diagLoop s], s) }

/-- DIAG.INFO (R795). -/
def execDiagInfo (ch : Chan) (s : State) : Host.Outcome State Fault Refusal := done (runCommand diagInfo ch) s

/-- The port named is a transport's. -/
def loopClassTrn (m : Msg) : Bool := (m.p 1).getLsbD 8

/-- A port as LongOp names it: transport 0 to 7, or 8 + p. -/
def loopTarget (m : Msg) : Nat := if loopClassTrn m then m.f 1 0 3 else 8 + m.f 1 0 3

def loopEthPort (m : Msg) : Port := Fin.ofNat 2 (m.f 1 0 3)

/-- A loopback runs on the port. -/
def loopRuns (t : Nat) (s : State) : Bool := if t < 8 then s.dbg.loopTrn.getLsbD t else getN s.dbg.loopEth (t - 8) 0 != 0

/-- SerDes lanes of a port whose checkers DIAG.LOOP reads, in the port's own order (Table 02-3, Table 19-5). -/
def loopLanes (t : Nat) : List Nat :=
  if t < 8 then (List.range 10).map (fun k => 14 * t + k) else (List.range 8).map (fun k => 128 + 8 * (t - 8) + k)

/-- The port's loopback is over: no checker of it stays locked. -/
def unlockLanes (t : Nat) (s : State) : State :=
  { s with dbg.locked := s.dbg.locked.filter (fun l => !(loopLanes t).contains l) }

/-- The loopback starts: an Ethernet port's RoCE engine takes no traffic, a transport port reads IDLE with its SYSREF
running and no markers sent (R784, Table 19-5). -/
def startLoop (m : Msg) (t : Nat) (s : State) : State :=
  let s := unlockLanes (loopTarget m) s
  let s := if loopClassTrn m then
      let n : Trn := Fin.ofNat 8 (m.f 1 0 3)
      let was := s.trn[n].port
      let s : State := { modTrn n (fun p => { p with port := .idle, linkTicket := none, sysref := true })
        (idleDownlinks n s) with dbg.loopTrn := setBit s.dbg.loopTrn n.val }
      let s := modTrn n (fun p => { p with sysref := true }) s
      if was = .idle then s else ring 14 s
    else
      let p := loopEthPort m
      modPort p (fun e => { e with link := false, aligned := false })
        { s with dbg.loopEth := s.dbg.loopEth.set p.val (BitVec.ofNat 2 (m.f 2 0 2)) p.isLt }
  completeTicket t rOk [] s

/-- The loopback ends: the lanes then locked, and what the port goes on with (R784, R796). -/
def endLoop (m : Msg) (t : Nat) (s : State) : State :=
  let k := loopTarget m
  let locked : Word := ofBits 32 (fun i => match (loopLanes k)[i]? with
    | some l => s.dbg.locked.contains l
    | none => false)
  let s := unlockLanes k (if loopClassTrn m then { s with dbg.loopTrn := clrBit s.dbg.loopTrn (m.f 1 0 3) }
    else { s with dbg.loopEth := s.dbg.loopEth.set (loopEthPort m).val 0 (loopEthPort m).isLt })
  completeTicket t rOk [locked] s

/-- DIAG.LOOP, for the form that turns a loopback on or the form that turns it off. -/
def diagLoopCmd (on : Bool) : Cmd := {
  opcode := 0x0A02, mine := fun m => decide (m.len ≠ 2) || (decide (m.f 2 0 2 ≠ 0) == on)
  lens := fun _ => [2], bits := fun _ => [0x107, 0x3]
  param := fun m _ => if loopClassTrn m then decide (m.f 2 0 2 > 1) else decide (m.f 1 0 3 > 1 ∨ m.f 2 0 2 = 3)
  state := fun m s =>
    (if loopClassTrn m then
      let n : Trn := Fin.ofNat 8 (m.f 1 0 3)
      !(s.trn[n].port == .up || s.trn[n].port == .idle) || s.trn[n].cart == 2 || named n s
    else
      let e := s.net.port[loopEthPort m]
      !e.enabled || e.qp.toList.any (fun q => q.isSome)) || (on && loopRuns (loopTarget m) s)
  long := fun m => some (if on then .loopOn (loopTarget m) else .loopOff (loopTarget m))
  start := fun m t s => if on then startLoop m t s else endLoop m t s }

/-- DIAG.LOOP with a mode (R796). -/
def execDiagLoopOn (ch : Chan) (s : State) : Host.Outcome State Fault Refusal := done (runCommand (diagLoopCmd true) ch) s

/-- DIAG.LOOP OFF (R796). -/
def execDiagLoopOff (ch : Chan) (s : State) : Host.Outcome State Fault Refusal := done (runCommand (diagLoopCmd false) ch) s

/-- PRBS_CHECKER_LOCK: a lane of a running loopback has had 64 correct bits; its counter counts the bits in error from then
on, of which `errs` have come (R793, Table 19-13). A lane that is locked already has had `errs` more. -/
def execPrbsCheckerLock (r : PrbsReport) (s : State) : Host.Outcome State Fault Refusal :=
  done (fun s =>
    if (List.range 10).any (fun t => loopRuns t s && (loopLanes t).contains r.lane) then
      count (0x9000 + 8 * r.lane) r.errs
        (if s.dbg.locked.contains r.lane then s else { s with dbg.locked := s.dbg.locked ++ [r.lane] })
    else s) s

/-! ### DIAG.INJECT (R785, R797, Table 19-6) -/

/-- The address lies in supervisor SRAM (Table 19-3). -/
def inSram (a : Nat) : Bool := decide (0x80000000 ≤ a ∧ a < 0x80300000)

/-- The values are those that the code takes. -/
def injectValue (m : Msg) : Bool :=
  let a := (m.p 2).toNat
  let b := (m.p 3).toNat
  match (m.p 1).toNat with
  | 1 => inSram a && decide (a % 8 = 0 ∧ b ≤ 1)
  | 2 => (configBits a).isSome && decide (b = 0)
  | 3 => decide (a = 0 ∧ b ≤ 1)
  | 4 => decide (a < 16 ∧ b = 0)
  | 5 => decide (a < 8 ∧ b = 0)
  | 6 => decide (a < 8 ∧ b = 0)
  | 7 => decide (a < 8 ∧ b = 0)
  | 8 => decide (a < 8 ∧ 1 ≤ m.f 3 16 16 ∧ m.f 3 16 16 ≤ 60000)
  | 9 => decide (a = 0 ∧ b = 0)
  | _ => false

/-- The lifecycle state, as the last boot read it, allows the code (Table 19-6, R497). -/
def injectAllowed (code : Nat) (s : State) : Bool :=
  if code = 6 ∨ code = 7 then s.nv.bootLife != 4 else decide (s.nv.bootLife.toNat < 3 ∨ code < 1 ∨ 9 < code)

/-- The code is armed in place of an earlier arming; code 2 inverts the register's parity at once (R785). -/
def armInjector (m : Msg) (s : State) : State :=
  let a : Injector := { code := m.f 1 0 8, p2 := m.p 2, p3 := m.p 3 }
  let off := (m.p 2).toNat
  if a.code = 2 then { s with regs.badParity :=
    if s.regs.badParity.contains off then s.regs.badParity.filter (fun k => decide (k ≠ off)) else s.regs.badParity ++ [off] }
  else { s with dbg.armed := s.dbg.armed.filter (fun b => decide (b.code ≠ a.code)) ++ [a] }

def diagInjectCmd : Cmd := {
  opcode := 0x0A03, mine := fun m => decide (m.len ≠ 3) || m.p 1 != 0
  lens := fun _ => [3], bits := fun _ => [0xFF]
  param := fun m _ => !injectValue m
  own := fun m s => if injectAllowed (m.f 1 0 8) s then 0 else rAuth
  act := fun m s =>
    let s := armInjector m s
    (rOk, [diagArmed s], s) }

/-- DIAG.INJECT (R797). -/
def execDiagInject (ch : Chan) (s : State) : Host.Outcome State Fault Refusal := done (runCommand diagInjectCmd ch) s

def diagDisarmCmd : Cmd := {
  opcode := 0x0A03, mine := fun m => decide (m.len ≠ 3) || m.p 1 == 0
  lens := fun _ => [3], bits := fun _ => [0xFF, 0, 0]
  act := fun _ s =>
    let s : State := { s with dbg.armed := [] }
    (rOk, [diagArmed s], s) }

/-- DIAG.INJECT, code 0 (R797). -/
def execDiagInjectDisarm (ch : Chan) (s : State) : Host.Outcome State Fault Refusal := done (runCommand diagDisarmCmd ch) s

/-! ### DIAG.KAT (R798) -/

/-- An engine 0 to 15, or 16 + a cipher unit. -/
def katUnit (m : Msg) : Nat := if (m.p 1).getLsbD 8 then 16 + m.f 1 0 4 else m.f 1 0 4

def diagKatCmd : Cmd := {
  opcode := 0x0A04, lens := fun _ => [1], bits := fun _ => [0x10F]
  param := fun m _ => decide (katUnit m > 23)
  state := fun m s => katOn (katUnit m) s || !domOn (if katUnit m < 16 then 5 else 6) s
  long := fun m => some (.kat (katUnit m)) }

/-- DIAG.KAT (R798). -/
def execDiagKat (ch : Chan) (s : State) : Host.Outcome State Fault Refusal := done (runCommand diagKatCmd ch) s

/-- The engine or unit holds no block. -/
def katIdle (u : Nat) (s : State) : Bool :=
  if u < 16 then (getN s.cmp.engine u {}).job.isNone else (getN s.cip.unit (u - 16) {}).job.isNone

/-- The known-answer test in flight of the lowest ticket whose engine or unit holds no block. -/
def katDue (s : State) : Option (Nat × Nat) :=
  (List.range 64).findSome? (fun t => match (getN s.mbx.ticket t {}).work with
    | some (.kat u) => if katIdle u s then some (t, u) else none
    | _ => none)

/-- DIAG_KAT_DONE: back in service when it passed, out of it when it failed (R465, R514, R798). -/
def execDiagKatDone (pass : Bool) (s : State) : Host.Outcome State Fault Refusal :=
  done (fun s =>
    match katDue s with
    | none => s
    | some (t, u) =>
      if !supRuns s then s
      else
        let s : State := if u < 16 then { s with cmp.engine := updN s.cmp.engine u (fun e => { e with off := !pass }) }
          else { s with cip.unit := updN s.cip.unit (u - 16) (fun e => { e with off := !pass }) }
        completeTicket t rOk [w32 (b2n (!pass))] s) s

/-! ### The TAP (R769 to R772) -/

/-- The TAP has its supplies (R771). -/
def tapOn (s : State) : Bool := !s.aon.vaonLow && !s.aon.vcoreLow && !s.aon.vaonDown && s.boot.phase != .standby

/-- Instructions of Table 19-1; any other selects BYPASS (R769). -/
def tapCode (ir : BitVec 5) : BitVec 5 :=
  if ([0x00, 0x01, 0x02, 0x08, 0x09, 0x10, 0x11] : List (BitVec 5)).contains ir then ir else 0x1F

/-- The TAP's instruction changes; AUX inputs start their debounce again when the boundary register lets go of the pads
(R772). -/
def setTap (ir : BitVec 5) (s : State) : State :=
  let t : State := { s with dm.ir := ir }
  if padctl s && !padctl t then { t with aux.pin := t.aux.pin.map (fun p => { p with started := false }) } else t

/-- IDCODE: the silicon major revision, as DEV_REV.MAJOR has it, the part number, the vendor's identity, and 1 (R770). -/
def idcode : Word := pack [(28, field (0x0200 : Word) 8 8), (12, 0x4812), (1, 0x0B3), (0, 1)]

/-- A free value that fills a data register of `n` bits. -/
def freeScan (n : Nat) (s : State) : BitVec 120 × State :=
  let a := freeValue s
  let b := freeValue a.2
  (((a.1 ++ b.1).truncate n).setWidth 120, b.2)

/-- What a DMI scan writes: RISC-V 0.13.2 puts the operation in bits 1 to 0 (2 writes), the data above, and the register in
bits 40 to 34. Words of the program buffer (0x20 to 0x23) and the halt-on-reset request (dmcontrol, 0x10, bits 3 and 2) come
so; the other registers' uses are rows of their own (log 153). DEPLOYED and RETIRED ignore both (R773). -/
def dmiWrite (v : BitVec 120) (s : State) : State :=
  let data : Word := BitVec.ofNat 32 (field v 2 32)
  let a := field v 34 7
  if field v 0 2 ≠ 2 ∨ limited s = true then s
  else if 0x20 ≤ a ∧ a < 0x24 then { s with dm.dmactive := true, dm.progbuf := updN s.dm.progbuf (a - 0x20) (fun _ => data) }
  else if a = 0x10 ∧ data.getLsbD 0 = true then { s with
    dm.dmactive := true
    dm.resetHalt := if data.getLsbD 2 then false else s.dm.resetHalt || data.getLsbD 3 }
  else s

/-- The selected data register is captured and shifted out, and takes what is shifted in: Table 19-1's lengths. What the
boundary register, DTMCS and DMI capture is free: the BSDL file orders the cells, and the spec does not restate what the debug
module's registers read; BYPASS captures 0 as IEEE 1149.1 has it (log 153). -/
def tapScan (v : BitVec 120) (s : State) : State :=
  if s.dm.ir = 0x00 ∨ s.dm.ir = 0x01 then
    let c := freeScan 120 s
    { emit (.tdo 120 c.1) c.2 with dm.boundary := v }
  else if s.dm.ir = 0x02 then emit (.tdo 32 (idcode.setWidth 120)) s
  else if s.dm.ir = 0x10 then
    let c := freeScan 32 s
    emit (.tdo 32 c.1) c.2
  else if s.dm.ir = 0x11 then
    let c := freeScan 41 s
    dmiWrite v (emit (.tdo 41 c.1) c.2)
  else emit (.tdo 1 0) s

/-- TAP_INSTRUCTION, and a scan of the data register it selects where one follows (R769, R770, R772). -/
def execTapInstruction (i : TapInput) (s : State) : Host.Outcome State Fault Refusal :=
  done (fun s =>
    if tapOn s then
      let s := setTap (tapCode i.ir) s
      match i.scan with
      | some v => tapScan v s
      | none => s
    else s) s

/-- TAP_RESET (R769, R771). -/
def execTapReset (s : State) : Host.Outcome State Fault Refusal :=
  done (fun s => if tapOn s then setTap 0x02 { s with dm.boundary := 0 } else s) s

/-! ### The debug module (R773, R774, R778 to R781, R792, R794) -/

/-- The debug agent uses its module, which is active from then on (log 27). -/
def debugDo (f : State → State) (s : State) : State := if tapOn s then f { s with dm.dmactive := true } else s

/-- TAINT is set, and every data-key slot is EMPTY (R778). -/
def taint (s : State) : State :=
  let empty : Vector KeySlot 16 := Vector.replicate 16 {}
  let s' : State := { s with dbg.taint := true, cip.slot := empty }
  if s.cip.slot = empty then s' else finishClears (ring 15 s')

/-- Code runs on the core that the model does not follow: hart registers and data SRAM are open from now on (log 20). -/
def openCore (s : State) : State :=
  { s with
    dbg.runs := s.dbg.runs + 1, dbg.reg := []
    dbg.sram := spDrop (fun a => decide (0x80100000 ≤ a)) s.dbg.sram }

/-- Fjarma, or the code that DEBUG_HOLD waits for, is there to be halted (R774). -/
def haltable (s : State) : Bool := s.boot.phase == .init || s.boot.phase == .running || s.boot.fwState == 3

/-- A halt request: heeded at once, or once the boot ROM hands control over (R774). -/
def requestHalt (s : State) : State :=
  if limited s || s.dbg.halted then s
  else if haltable s then haltCore s
  else { s with dm.haltDue := true }

/-- DEBUG_HALT: haltreq, which the limited states ignore (R773, R774, R779). -/
def execDebugHalt (s : State) : Host.Outcome State Fault Refusal := done (debugDo requestHalt) s

/-- TRIGGER_HIT: a trigger halts the core that runs (R780). -/
def execTriggerHit (s : State) : Host.Outcome State Fault Refusal :=
  done (debugDo (fun s => if !limited s && !s.dbg.halted && haltable s then haltCore s else s)) s

/-- The debug agent has set the program counter: dpc, CSR 0x7B1 (Debug hold, ch19). -/
def dpcSet (s : State) : Bool := (spGet none s.dbg.reg 0x7B1).isSome

/-- The core runs again. From DEBUG_HOLD it starts the code that the agent stored, which taints (R778); else SUP posts what
waited, and its queues go on (R781). -/
def resumeCore (s : State) : State :=
  let s : State := debugEntry 1 0 0 0 { s with dbg.halted := false }
  if s.boot.fwState = 3 then
    if dpcSet s then startFirmware (taint (openCore s)) else s
  else nvKick (resumeStreams (openCore s))

/-- DEBUG_RESUME (R756, R779, R781). -/
def execDebugResume (s : State) : Host.Outcome State Fault Refusal :=
  done (debugDo (fun s => if !limited s && s.dbg.halted then resumeCore s else s)) s

/-- One instruction runs, and the core halts again. The boot ROM's wait in DEBUG_HOLD cannot be stepped; code that the agent
stored can, and that taints (R774, R778, R780). -/
def stepCore (s : State) : State :=
  let again (s : State) : State := count 0x8E08 1 (setLeaf 25 1 (debugEntry 2 0 0 0 s))
  if s.boot.fwState = 3 then
    if dpcSet s then
      let s := openCore s
      again (taint { s with dbg.reg := [(0x7B1, some (Config.hartValue s.dbg.runs 0x7B1))] })
    else s
  else again (openCore s)

/-- DEBUG_STEP (R773). -/
def execDebugStep (s : State) : Host.Outcome State Fault Refusal :=
  done (debugDo (fun s => if !limited s && s.dbg.halted then stepCore s else s)) s

/-- A general register x0 to x31 or a CSR, by abstract register number. -/
def isReg (r : Nat) : Bool := decide (r < 0x1000 ∨ (0x1000 ≤ r ∧ r < 0x1020))

/-- The value of a hart register (R773). -/
def readReg (r : Nat) (s : State) : BitVec 64 :=
  if r = 0x1000 then 0
  else if r = 0x7A0 then s.dbg.tselect.setWidth 64
  else if r = 0x7A1 then (getN s.dbg.trigger s.dbg.tselect.toNat (0, 0)).1
  else if r = 0x7A2 then (getN s.dbg.trigger s.dbg.tselect.toNat (0, 0)).2
  else match spGet none s.dbg.reg r with
    | some v => v
    | none => if s.dbg.runs = 0 then 0 else Config.hartValue s.dbg.runs r

/-- dcsr.stoptime, bit 9 of CSR 0x7B0, is fixed at 1 (ch19, The debug module; the place is RISC-V's, log 20). -/
def stopTime (r : Nat) (v : BitVec 64) : BitVec 64 := if r = 0x7B0 then v ||| 0x200 else v

/-- A hart register takes a value; x0 discards it. -/
def writeHart (r : Nat) (v : BitVec 64) (s : State) : State :=
  if r = 0x1000 then s
  else if r = 0x7A0 then { s with dbg.tselect := v.truncate 2 }
  else if r = 0x7A1 then { s with dbg.trigger := updN s.dbg.trigger s.dbg.tselect.toNat (fun t => (v, t.2)) }
  else if r = 0x7A2 then { s with dbg.trigger := updN s.dbg.trigger s.dbg.tselect.toNat (fun t => (t.1, v)) }
  else { s with dbg.reg := spSet none s.dbg.reg r (some v) }

/-- An abstract command's error (R773). -/
def abstractError (e : BitVec 3) (s : State) : State := { s with dm.cmderr := e }

/-- Access Register on a halted core. -/
def accessRegister (write : Bool) (r : Nat) (v : BitVec 64) (s : State) : State :=
  let s := abstractError 0 s
  if write then debugEntry 3 (r % 256) 0 v.toNat (taint (writeHart r v s))
  else emit (.debugRead (stopTime r (readReg r s))) { s with dm.data := stopTime r (readReg r s) }

/-- ABSTRACT_COMMAND (R773, R778). -/
def execAbstractCommand (write : Bool) (reg : BitVec 16) (val : BitVec 64) (s : State) : Host.Outcome State Fault Refusal :=
  done (debugDo (fun s =>
    if limited s then abstractError 2 s
    else if !s.dbg.halted then abstractError 4 s
    else if !isReg reg.toNat then abstractError 2 s
    else accessRegister write reg.toNat val s)) s

/-- PROGRAM_BUFFER_EXEC: the buffer's 4 words are run; its instructions may change any register and SRAM (R778). -/
def execProgramBufferExec (s : State) : Host.Outcome State Fault Refusal :=
  done (debugDo (fun s =>
    if limited s then abstractError 2 s
    else if !s.dbg.halted then abstractError 4 s
    else
      let pc := dpcSet s
      let s := taint (abstractError 0 (openCore s))
      { s with
        dbg.sram := []
        dbg.reg := if pc then [(0x7B1, some (Config.hartValue s.dbg.runs 0x7B1))] else [] })) s

/-- NDMRESET: reset source 0x9 (R773, R792). -/
def execNdmreset (s : State) : Host.Outcome State Fault Refusal :=
  done (debugDo (fun s => if limited s then s else enterReset 9 0 s)) s

/-- DMACTIVE_CLEAR: the debug module takes its reset values; the TAP does not (R792, R794). -/
def execDmactiveClear (s : State) : Host.Outcome State Fault Refusal :=
  done (fun s => if tapOn s then { s with dm := { ir := s.dm.ir, boundary := s.dm.boundary } } else s) s

/-! ### System bus access (R775 to R778) -/

/-- A failed access: its code, counted (R776). -/
def sbaError (e : BitVec 3) (s : State) : State := count 0x8E00 1 { s with dm.sberror := e }

/-- The error of an access before its target is looked at: size, alignment, an address that maps nowhere (Table 19-4). -/
def sbaBad (a size : Nat) : Option (BitVec 3) :=
  if size ≠ 32 then some 4
  else if a % 4 ≠ 0 then some 3
  else if !inSram a && !(decide (a < 0x10000) && implemented a) then some 2
  else none

/-- Supervisor SRAM is open to the debug agent (Table 19-2). -/
def sramReachable (s : State) : Bool := s.dbg.halted && !limited s

/-- The SRAM word, as stored or as open. -/
def sramWord (a : Nat) (s : State) : Word :=
  match spGet none s.dbg.sram a with
  | some v => v
  | none => if s.dbg.runs = 0 then 0 else Config.sramValue s.dbg.runs a

/-- A word of SRAM is read; flipped bits show (R785 code 1). -/
def readSram (a : Nat) (s : State) : State :=
  let w := a / 8 * 8
  match s.dbg.flipped.find? (fun f => f.1 = w) with
  | some (_, true) => raise4 26 (leafCode 0 5) s
  | x =>
    let s : State := if x.isSome then
      setLeaf 26 4 { s with dbg.flipped := s.dbg.flipped.filter (fun f => decide (f.1 ≠ w)) } else s
    let v := sramWord a s
    emit (.debugRead (v.setWidth 64)) { s with dm.sberror := 0, dm.sbdata := v }

/-- The address of a system bus access. -/
def sbaAt (addr : SbAddress) (s : State) : Nat :=
  match addr with
  | .put a _ => a.toNat
  | .next _ => s.dm.sbaddress.toNat

/-- The access moves sbaddress0 on. -/
def sbaAuto (addr : SbAddress) : Bool :=
  match addr with
  | .put _ auto => auto
  | .next auto => auto

/-- sbaddress0 after an access at `a`: the address, or with auto-increment the next word once the access is done. -/
def sbaAdvance (a : Nat) (auto : Bool) (s : State) : State :=
  { s with dm.sbaddress := BitVec.ofNat 32 (if auto && s.dm.sberror == 0 then a + 4 else a) }

/-- What an SBA read does (R775, R776). -/
def sbaRead (a size : Nat) (s : State) : State :=
  match sbaBad a size with
  | some e => sbaError e s
  | none =>
    if inSram a then (if sramReachable s then readSram a s else sbaError 7 s)
    else bar0Read .debug a { s with dm.sberror := 0, dm.sbdata := bar0View .debug a s }

/-- SBA_READ (R775, R776). -/
def execSbaRead (addr : SbAddress) (size : Nat) (s : State) : Host.Outcome State Fault Refusal :=
  done (debugDo (fun s =>
    if !originUp .debug s then s
    else sbaAdvance (sbaAt addr s) (sbaAuto addr) (sbaRead (sbaAt addr s) size s))) s

/-- BAR0 registers that the debug agent may write in the limited states (Table 19-2). -/
def limitedWritable (a : Nat) : Bool := decide (0x1900 ≤ a ∧ a < 0x1A00) || [0x100, 0x104, 0x10C, 0x120].contains a

/-- A word of SRAM is stored, with the flips of an injector that waits for it (R778, R785 code 1). -/
def writeSram (a : Nat) (v : Word) (s : State) : State :=
  let w := a / 8 * 8
  let x := takeInjector 1 (fun i => decide (i.p2.toNat = w)) s
  let flips := x.2.dbg.flipped.filter (fun f => decide (f.1 ≠ w))
  taint (debugEntry 4 0 a v.toNat { x.2 with
    dm.sberror := 0
    dbg.sram := spSet none x.2.dbg.sram a (some v)
    dbg.flipped := match x.1 with
      | some i => flips ++ [(w, i.p3.getLsbD 0)]
      | none => flips })

/-- What an SBA write does (R775, R776, R778). -/
def sbaWrite (a size : Nat) (v : Word) (s : State) : State :=
  match sbaBad a size with
  | some e => sbaError e s
  | none =>
    if inSram a then (if sramReachable s then writeSram a v s else sbaError 7 s)
    else if limited s && !limitedWritable a then sbaError 7 s
    else bar0Write .debug a v { s with dm.sberror := 0 }

/-- SBA_WRITE (R775, R776, R778). -/
def execSbaWrite (addr : SbAddress) (size : Nat) (v : Word) (s : State) : Host.Outcome State Fault Refusal :=
  done (debugDo (fun s =>
    if !originUp .debug s then s
    else sbaAdvance (sbaAt addr s) (sbaAuto addr) (sbaWrite (sbaAt addr s) size v s))) s

end Sys2Proof.Machine
end

