-- ==== Sys2Proof/Machine/FamFar.lean ====
section
/-!
DEFINITION. The end of a far write, and what a change of a live lane's polarity does to its link (R92, ch02; R170, R202, ch04).
-/
namespace Sys2Proof.Machine
open Sys2Proof

/-- TX_INV and RX_INV_SET of a lane, where they have an effect: TX_INV on outbound transport lanes, both on Ethernet lanes
(Table 02-20). -/
def laneInversion (i : Nat) (p : BitVec 3) : BitVec 3 :=
  if i < 112 then (if 10 ≤ i % 14 then p &&& 0b001 else 0) else if i < 128 then 0 else p &&& 0b011

/-- Loss of signal on a live lane: the role of an outbound transport lane is lost, an Ethernet link goes down (R92). -/
def laneLost (i : Nat) (s : State) : State :=
  if i < 112 then
    let n : Trn := Fin.ofNat 8 (i / 14)
    match laneRole n (i % 14) s with
    | some r => if s.trn[n].port = .up then rolesLost n (setBit s.trn[n].lostRoles r) s else s
    | none => s
  else if i < 128 then s
  else ethDown (Fin.ofNat 2 ((i - 128) / 8)) false s

/-- A far write is acknowledged, and the polarity it changed takes effect on the lane (R92). -/
def writeDone (q : FarReq) (ok : Bool) (s : State) : State :=
  let t := writeAnswered q ok s
  match laneOf q.addr with
  | some i => if laneInversion i.val s.regs.polarity[i] ≠ laneInversion i.val t.regs.polarity[i] then laneLost i.val t else t
  | none => t

/-- The far side acknowledges a posted write, or reports an error (R170, R202). -/
def execFarWriteAck (win : Origin) (ok : Bool) (s : State) : Host.Outcome State Fault Refusal :=
  doneS (fun s => match answeredFar win s with
    | some q => if q.write then writeDone q ok s else s
    | none => s) s

end Sys2Proof.Machine
end

