-- ==== Sys2Proof/Machine/FamTether.lean ====
section
/-!
DEFINITION. The tether log: anchors, CHECK and EPOCH entries, the TETHER commands, exports (ch18).
-/
namespace Sys2Proof.Machine
open Sys2Proof

/-- Fjarma executes: from the hand-over by the boot ROM, unless a debug agent holds the core (R747, R756, R774). -/
def coreRuns (s : State) : Bool := (s.boot.phase == .init || s.boot.phase == .running) && !s.dbg.halted

/-! ### Units read back -/

/-- Stamps of the entries in units that stand oldest first from a line's beginning (R743). -/
def entryStamps : Nat → List (BitVec 128) → List Nat
  | _, [] => []
  | 0, u :: t => if u = 0 then entryStamps 0 t else field u 0 48 :: entryStamps (field u 56 2) t
  | k + 1, _ :: t => entryStamps k t

/-- EPOCH entries among such units. -/
def epochEntries : Nat → List (BitVec 128) → Nat
  | _, [] => 0
  | 0, u :: t => if u = 0 then epochEntries 0 t else b2n (decide (field u 48 8 = 2)) + epochEntries (field u 56 2) t
  | k + 1, _ :: t => epochEntries k t

/-- Epoch count and stamp of the oldest of some units, where `last` is the epoch at the newest (R751, R757). -/
def firstOf (units : List (BitVec 128)) (last : BitVec 16) : Option (Nat × Nat) :=
  match entryStamps 0 units with
  | [] => none
  | t :: _ => some ((last - BitVec.ofNat 16 (epochEntries 0 (units.drop 1))).toNat, t)

def unitBytes (units : List (BitVec 128)) : List Byte := units.flatMap (fun u => leBytes 16 u.toNat)

/-! ### Anchors (R747) -/

/-- Bytes of an anchor image. -/
def imageLength : Nat := 3149824

/-- The anchor image whose free values begin at number `k`: SUP's core, CSRs, timers and SRAM, which the spec leaves to
the firmware (log 25). -/
def imageBytes (k : Nat) : List Byte :=
  (List.range (imageLength / 8)).flatMap (fun i => leBytes 8 (Config.freeValue (k + i)).toNat)

/-- Slots with a complete anchor, bit by bit. -/
def anchorBits (s : State) : Nat := b2n s.tether.anchor[0].isSome + 2 * b2n s.tether.anchor[1].isSome

/-- The export header line (Table 18-5). -/
def exportHeader (source anchors bytes : Nat) (first : Option (Nat × Nat)) (last : Nat) (s : State) : List Byte :=
  let digest := (beBytes 48 (s.boot.digest.getD 0).toNat).take 8
  let h := leBytes 4 0x54455831 ++ leBytes 1 source ++ leBytes 1 anchors ++ leBytes 2 ((first.map (·.1)).getD 0) ++
    leBytes 8 bytes ++ leBytes 6 ((first.map (·.2)).getD 0) ++ leBytes 6 last ++ leBytes 4 0 ++ digest ++ leBytes 16 0
  h ++ leBytes 8 (crc64 h).toNat

/-- The freeze buffer's 64-byte header and its 256 KiB (Table 18-3). -/
def freezeBytes (s : State) : List Byte :=
  let f := s.aon.freeze
  let h := leBytes 4 0x54465A31 ++ [f.reason, f.resetCode, f.boot, 0] ++ leBytes 2 f.epoch.toNat ++
    leBytes 6 f.first.toNat ++ leBytes 6 f.last.toNat ++ leBytes 2 0 ++ leBytes 4 f.units.length ++
    leBytes 4 f.version.toNat ++ leBytes 8 f.digest8.toNat ++ leBytes 16 0
  h ++ leBytes 8 (crc64 h).toNat ++ slice (unitBytes f.units.reverse) 0 262144

/-! ### The TETHER commands (R764 to R767) -/

def followRuns (s : State) : Bool := match s.tether.exporting with
  | some e => e.source == 2
  | none => false

def tetherInfo : Cmd := {
  opcode := 0x0B01, lens := fun _ => [0]
  act := fun _ s =>
    let f := s.aon.freeze
    (rOk, [pack [(0, b2n s.tether.frozen), (1, b2n (followRuns s)), (2, anchorBits s), (4, b2n f.valid)],
      pack [(0, f.reason.toNat), (8, f.resetCode.toNat), (16, f.boot.toNat)], w32 f.units.length,
      w32 (s.mbx.config.tetherRingMib - 8), w32 (counter 0x8D08 s).toNat], s) }

/-- TETHER.INFO (R764). -/
def execTetherInfo (ch : Chan) (s : State) : Host.Outcome State Fault Refusal := done (runCommand tetherInfo ch) s

/-- The ring's export image behind its header: complete anchors, then the ring from its oldest line (R751). -/
def ringImageLength (s : State) : Nat :=
  64 + imageLength * (b2n s.tether.anchor[0].isSome + b2n s.tether.anchor[1].isSome) + 16 * s.tether.ring.length

/-- Bytes that a buffer must have (R765). -/
def exportLength (source : Nat) (s : State) : Nat :=
  match source with
  | 0 => ringImageLength s
  | 1 => 64 + 262208
  | _ => 2 ^ 24

/-- An export begins; one to staging lends extents first, and ends at once where no run is free. -/
def startExport (m : Msg) (t : Nat) (s : State) : State :=
  let source := m.f 1 0 2
  let e : Export :=
    { ticket := t, source := source, toStaging := m.f 1 8 1 == 1, addr := m.pair 2, buf := m.pair 4, done := 0,
      units := s.tether.ringPos, lent := none, first := none, last := 0, anchors := 0 }
  if e.toStaging then
    match lend t (exportLength source s) s with
    | none => setLeaf 24 1 (completeTicket t rNores [] s)
    | some (a, k, s) => { s with tether.exporting := some { e with lent := some (a, k) } }
  else { s with tether.exporting := some e }

/-- TETHER.EXPORT of one source; a message of source 3 belongs to every row. -/
def tetherExport (source : Nat) : Cmd := {
  opcode := 0x0B02, safe := true, mine := fun m => decide (m.f 1 0 2 = source ∨ m.f 1 0 2 = 3), lens := fun _ => [5]
  bits := fun _ => [0x103]
  param := fun m s => decide (m.f 1 0 2 = 3) || (decide (m.f 1 8 1 = 1) && (decide (source = 2) || decide (m.pair 2 ≠ 0))) ||
    decide (m.pair 4 < exportLength source s)
  state := fun _ s => decide (source = 0) && !s.tether.frozen
  limit := fun _ s => s.tether.exporting.isSome
  own := fun _ s => if source = 1 ∧ s.aon.freeze.valid = false then rNotfound else 0
  long := fun _ => some .tetherExport
  start := startExport }

/-- TETHER.EXPORT, RING (R751, R759, R765). -/
def execTetherExportRing (ch : Chan) (s : State) : Host.Outcome State Fault Refusal :=
  done (runCommand (tetherExport 0) ch) s

/-- TETHER.EXPORT, FREEZE_BUF (R751, R765). -/
def execTetherExportFreezeBuf (ch : Chan) (s : State) : Host.Outcome State Fault Refusal :=
  done (runCommand (tetherExport 1) ch) s

/-- TETHER.EXPORT, FOLLOW (R752, R765). -/
def execTetherExportFollow (ch : Chan) (s : State) : Host.Outcome State Fault Refusal :=
  done (runCommand (tetherExport 2) ch) s

def tetherFreeze : Cmd := {
  opcode := 0x0B03, lens := fun _ => [0]
  act := fun _ s => (rOk, [], if s.tether.frozen then s else freeze 0x12 0xFF s) }

/-- TETHER.FREEZE (R749, R766). -/
def execTetherFreeze (ch : Chan) (s : State) : Host.Outcome State Fault Refusal := done (runCommand tetherFreeze ch) s

/-- A RING export runs (R758). -/
def ringExport (s : State) : Bool := match s.tether.exporting with
  | some e => e.source == 0
  | none => false

def tetherThaw : Cmd := {
  opcode := 0x0B04, lens := fun _ => [0]
  state := fun _ s => ringExport s
  act := fun _ s => (rOk, [], if s.tether.frozen then startAnchor (replayBreak 4 { s with tether.frozen := false }) else s) }

/-- TETHER.THAW (R758, R766). -/
def execTetherThaw (ch : Chan) (s : State) : Host.Outcome State Fault Refusal := done (runCommand tetherThaw ch) s

def tetherParamGet : Cmd := {
  opcode := 0x0B05, mine := fun m => decide (m.f 1 0 1 = 0), lens := fun _ => [1], bits := fun _ => [0xFF01]
  param := fun m _ => decide (m.f 1 8 8 ≠ 1)
  act := fun _ s => (rOk, getAnswer s.tether.anchorMs 1000 100 60000, s) }

/-- TETHER.PARAM, GET (R767). -/
def execTetherParamGet (ch : Chan) (s : State) : Host.Outcome State Fault Refusal := done (runCommand tetherParamGet ch) s

def tetherParamSet : Cmd := {
  opcode := 0x0B05, mine := fun m => decide (m.f 1 0 1 = 1), lens := fun _ => [2], bits := fun _ => [0xFF01]
  param := fun m _ => decide (m.f 1 8 8 ≠ 1 ∨ (m.p 2).toNat < 100 ∨ 60000 < (m.p 2).toNat)
  act := fun m s => (rOk, [m.p 2], { s with tether.anchorMs := (m.p 2).toNat }) }

/-- TETHER.PARAM, SET (R767). -/
def execTetherParamSet (ch : Chan) (s : State) : Host.Outcome State Fault Refusal := done (runCommand tetherParamSet ch) s

/-! ### FOLLOW (R752) -/

/-- Bytes of an export go to host memory (Table 07-21). -/
def exportWrite (addr : Nat) (bs : List Byte) (s : State) : State :=
  count 0x8208 bs.length (emit (.hostWrite addr bs false false) s)

/-- Content goes to the circular part of the host buffer, behind the header line (log 26). -/
def followWrite (bs : List Byte) (e : Export) (s : State) : Export × State :=
  let room := e.buf - 64
  let at' := e.done % room
  let k := room - at'
  let s := exportWrite (e.addr + 64 + at') (bs.take k) s
  let s := if bs.length > k then exportWrite (e.addr + 64) (bs.drop k) s else s
  ({ e with done := e.done + bs.length }, count 0x8D18 bs.length s)

/-- Whole lines of the ring that the export has not written go out. -/
def followLines (e : Export) (s : State) : Export × State :=
  let total := s.tether.ringPos
  let new := total / 4 * 4 - e.units / 4 * 4
  let units := ((s.tether.ring.drop (total % 4)).take new).reverse
  if units.isEmpty then (e, s)
  else
    let r := followWrite (unitBytes units) e s
    ({ r.1 with
       units := total / 4 * 4
       first := if e.first.isSome then e.first else firstOf units s.tether.ringEpoch
       last := (entryStamps 0 units).getLastD e.last }, r.2)

/-- An anchor's image follows the lines due (R752). -/
def followOwed (k : Fin 2) (image : Nat) (e : Export) (s : State) : Export × State :=
  let r := followLines e s
  let r := followWrite (imageBytes image) r.1 r.2
  ({ r.1 with anchors := setBit r.1.anchors k.val }, r.2)

/-- Images that waited, and the lines due. -/
def followAll (e : Export) (s : State) : Export × State :=
  let r := e.owed.foldl (fun (r : Export × State) o => followOwed o.1 o.2 r.1 r.2) ({ e with owed := [] }, s)
  followLines r.1 r.2

/-- The lines and the anchor images `images` that an export reads from staging, from the `a`th line written on: whether one is
uncorrectable (R396, R761). -/
def exportReads (a : Nat) (images : List (Fin 2)) (s : State) : Bool × State :=
  let r := sweepRing a (s.tether.ringPos / 4) s
  images.foldl (fun (acc : Bool × State) k => let x := sweepAnchor k.val acc.2; (acc.1 || x.1, x.2)) (!r.1.isEmpty, r.2)

/-- FOLLOW_HEADER: images and lines due, then the header line at the buffer's beginning. -/
def execFollowHeader (s : State) : Host.Outcome State Fault Refusal :=
  done (fun s =>
    match s.tether.exporting with
    | none => s
    | some e =>
      if e.source ≠ 2 || !pcieIssues s then s
      else
        let x := exportReads (e.units / 4) (e.owed.map (·.1)) s
        if x.1 then raise4 6 (leafCode 0 7) x.2
        else
        let r := followAll e x.2
        let h := exportHeader 2 r.1.anchors.toNat (r.1.done % 2 ^ 64) r.1.first r.1.last r.2
        { exportWrite e.addr h r.2 with tether.exporting := some r.1 }) s

/-! ### The writer's own entries -/

/-- ANCHOR_START: ANCHOR_MS have passed (R747, R756). -/
def execAnchorStart (s : State) : Host.Outcome State Fault Refusal :=
  done (fun s => if coreRuns s then startAnchor s else s) s

/-- A FOLLOW export takes the image after the anchor's entry (R752). -/
def followImage (k : Fin 2) (image : Nat) (s : State) : State :=
  match s.tether.exporting with
  | none => s
  | some e =>
    if e.source ≠ 2 then s
    else
      if !pcieIssues s then { s with tether.exporting := some { e with owed := e.owed ++ [(k, image)] } }
      else
        let x := exportReads (e.units / 4) [k] s
        if x.1 then raise4 6 (leafCode 0 7) x.2
        else
          let r := followOwed k image e x.2
          { r.2 with tether.exporting := some r.1 }

/-- ANCHOR_DONE: the ANCHOR entry makes the anchor complete (R747). -/
def execAnchorDone (s : State) : Host.Outcome State Fault Refusal :=
  done (fun s =>
    match s.tether.anchoring with
    | none => s
    | some k =>
      let retired := freeValue s
      let image := retired.2.free
      let s : State := { retired.2 with free := image + imageLength / 8 }
      let a : Anchor := { epoch := s.tether.epoch.toNat, stamp := now s, image := image }
      let s := logEntry 0x03 (k.val + 256 * (retired.1.toNat % 2 ^ 56)) [(crc64 (imageBytes image)).toNat] s
      followImage k image (storeAnchor k.val { s with tether.anchoring := none, tether.anchor := upd s.tether.anchor k (fun _ => some a) })) s

/-- CHECK: every 1,000,000 CCLK while the core runs (R748, R756). -/
def execCheck (pc instret crc : BitVec 64) (s : State) : Host.Outcome State Fault Refusal :=
  done (fun s => if coreRuns s then
    logEntry 0x06 instret.toNat [pc.toNat % 2 ^ 40 + 2 ^ 64 * crc.toNat] s else s) s

/-- The stamp wraps: the epoch count rises, the leaf sets, and the EPOCH entry is stamped 0 (R742, R757). -/
def wrapStamp (s : State) : State :=
  let s : State := { s with tether.stamp := 0, tether.epoch := s.tether.epoch + 1 }
  setLeaf 24 3 (logEntry 0x02 s.tether.epoch.toNat [] s)

/-- EPOCH, while CCLK runs (R742, R757). -/
def execEpoch (s : State) : Host.Outcome State Fault Refusal := done (fun s => if s.power.cclk then wrapStamp s else s) s

/-! ### The end of an export (R751, R762, R765) -/

/-- The image of a RING or FREEZE_BUF export, header and content, with FIRST. -/
def exportImage (e : Export) (s : State) : List Byte × Nat :=
  if e.source = 0 then
    let units := s.tether.ring.reverse
    let first := firstOf units s.tether.ringEpoch
    let images := ([s.tether.anchor[0], s.tether.anchor[1]].filterMap id).flatMap (fun a => imageBytes a.image)
    let content := images ++ unitBytes units
    (exportHeader 0 (anchorBits s) content.length first ((entryStamps 0 units).getLastD 0) s ++ content,
      (first.map (·.2)).getD 0)
  else
    let f := s.aon.freeze
    let content := freezeBytes s
    (exportHeader 1 0 content.length (some (f.epoch.toNat, f.first.toNat)) f.last.toNat s ++ content, f.first.toNat)

/-- The image goes to host memory, or to the lent extents. -/
def placeImage (e : Export) (bs : List Byte) (s : State) : State :=
  match e.lent with
  | some (a, _) =>
    let s := writeLines (a * extBytes) bs s
    { s with rst.lent := s.rst.lent.map (fun l => if l.2.2 = some e.ticket then (l.1, l.2.1, none) else l) }
  | none => exportWrite e.addr bs s

/-- TETHER_EXPORT_DONE: `detail` is the detail code of a failed DMA write, 0 when the writes went out (R751, R762, R765).
A FOLLOW export has no end of its own. -/
def execTetherExportDone (detail : Nat) (s : State) : Host.Outcome State Fault Refusal :=
  done (fun s =>
    match s.tether.exporting with
    | none => s
    | some e =>
      let off := (e.lent.map (fun l => l.1 * extBytes)).getD 0
      if e.lent.isNone ∧ pcieIssues s = false then s
      else if detail ≠ 0 then failExport detail s
      else if e.source = 2 then s
      else
        let x := if e.source = 0 then
            exportReads 0 ((List.finRange 2).filter (fun k => s.tether.anchor[k].isSome)) s
          else (false, s)
        if x.1 then raise4 6 (leafCode 0 7) x.2
        else
        let s := x.2
        let i := exportImage e s
        let s := placeImage e i.1 s
        let s := count 0x8D18 i.1.length { s with tether.exporting := none }
        setLeaf 24 1 (completeTicket e.ticket rOk
          [w32 i.1.length, w32 (i.1.length / 2 ^ 32), w32 i.2, w32 off, 0] s)) s

end Sys2Proof.Machine
end

