-- ==== Sys2Proof/Machine/Tick.lean ====
section
/-!
DEFINITION. What the block does with no command waiting: one CCLK (log 1).
-/
namespace Sys2Proof.Machine
open Sys2Proof

/-- CREDIT_STALL counts the cycles in which blocks of a WD role wait for credits (R573, Table 13-15). -/
def countStalls (s : State) : State :=
  allTrn.foldl (fun s n => if 0 < s.trn[n].wait0 + s.trn[n].wait1 then count (0x8708 + 0x40 * n.val) 1 s else s) s

/-- One CCLK: the stamp counts while CCLK runs, credit stalls count, a freeze copy that a reset waits for moves on, and
extents in transit arrive, the acceptance cap and the ingest pipe move on, Fjarma takes the next message and makes the start write of an open unlock window (R37, R43, R130, R245, R370, R494, R573, R741, R742). -/
def idle (s : State) : State :=
  if !s.power.cclk then s
  else
    let s := if s.tether.stamp = BitVec.allOnes 48 then wrapStamp s else { s with tether.stamp := s.tether.stamp + 1 }
    if s.boot.phase = .copying then copyTick s else nvStart (takeNext (pipeTick (acceptTick (endTransit (countStalls s)))))

/-- The outcome of a step with no command waiting. -/
def execIdle (s : State) : Host.Outcome State Fault Refusal := .next (settle s (idle s))

end Sys2Proof.Machine
end

