-- ==== Sys2Proof/Machine/Dispatch.lean ====
section
/-!
DEFINITION. The effect of each command, one arm per row of the opcode table.
-/
namespace Sys2Proof.Machine
open Sys2Proof

/-- The effect of command `i` on everything but the queue. -/
def exec (i : Instr) (s : State) : Host.Outcome State Fault Refusal :=
  match i with
  | .sysInfo ch => Sys2Proof.Machine.execSysInfo ch s
  | .sysPowerDomainOn ch => Sys2Proof.Machine.execSysPowerDomainOn ch s
  | .sysPowerDomainOff ch => Sys2Proof.Machine.execSysPowerDomainOff ch s
  | .sysPowerAutoVrfOn ch => Sys2Proof.Machine.execSysPowerAutoVrfOn ch s
  | .sysPowerAutoVrfOff ch => Sys2Proof.Machine.execSysPowerAutoVrfOff ch s
  | .sysPowerStandby ch => Sys2Proof.Machine.execSysPowerStandby ch s
  | .sysReset ch => Sys2Proof.Machine.execSysReset ch s
  | .sysAudit ch => Sys2Proof.Machine.execSysAudit ch s
  | .sysFaultsStatus ch => Sys2Proof.Machine.execSysFaultsStatus ch s
  | .sysFaultsRead ch => Sys2Proof.Machine.execSysFaultsRead ch s
  | .sysFaultsRelease ch => Sys2Proof.Machine.execSysFaultsRelease ch s
  | .sysFaultsRecover ch => Sys2Proof.Machine.execSysFaultsRecover ch s
  | .sysConfigGet ch => Sys2Proof.Machine.execSysConfigGet ch s
  | .sysConfigSet ch => Sys2Proof.Machine.execSysConfigSet ch s
  | .unknownOpcode ch => Sys2Proof.Machine.execUnknownOpcode ch s
  | .xportInfo ch => Sys2Proof.Machine.execXportInfo ch s
  | .xportLinkStart ch => Sys2Proof.Machine.execXportLinkStart ch s
  | .xportLinkStop ch => Sys2Proof.Machine.execXportLinkStop ch s
  | .xportLoadWrite ch => Sys2Proof.Machine.execXportLoadWrite ch s
  | .xportLoadRead ch => Sys2Proof.Machine.execXportLoadRead ch s
  | .xportUnload ch => Sys2Proof.Machine.execXportUnload ch s
  | .xportClear ch => Sys2Proof.Machine.execXportClear ch s
  | .xportParam ch => Sys2Proof.Machine.execXportParam ch s
  | .streamOpen ch => Sys2Proof.Machine.execStreamOpen ch s
  | .streamAttach ch => Sys2Proof.Machine.execStreamAttach ch s
  | .streamFlush ch => Sys2Proof.Machine.execStreamFlush ch s
  | .streamClose ch => Sys2Proof.Machine.execStreamClose ch s
  | .streamSet ch => Sys2Proof.Machine.execStreamSet ch s
  | .streamInfo ch => Sys2Proof.Machine.execStreamInfo ch s
  | .restoreIndex ch => Sys2Proof.Machine.execRestoreIndex ch s
  | .restoreRebuild ch => Sys2Proof.Machine.execRestoreRebuild ch s
  | .restoreRecord ch => Sys2Proof.Machine.execRestoreRecord ch s
  | .restoreFind ch => Sys2Proof.Machine.execRestoreFind ch s
  | .restoreInfo ch => Sys2Proof.Machine.execRestoreInfo ch s
  | .restoreParamGet ch => Sys2Proof.Machine.execRestoreParamGet ch s
  | .restoreParamSet ch => Sys2Proof.Machine.execRestoreParamSet ch s
  | .restoreRelease ch => Sys2Proof.Machine.execRestoreRelease ch s
  | .keyLoad ch => Sys2Proof.Machine.execKeyLoad ch s
  | .keyClear ch => Sys2Proof.Machine.execKeyClear ch s
  | .keyInfo ch => Sys2Proof.Machine.execKeyInfo ch s
  | .keyKekSet ch => Sys2Proof.Machine.execKeyKekSet ch s
  | .keyContext ch => Sys2Proof.Machine.execKeyContext ch s
  | .lifeInfo ch => Sys2Proof.Machine.execLifeInfo ch s
  | .lifeSet ch => Sys2Proof.Machine.execLifeSet ch s
  | .lifeAdvance ch => Sys2Proof.Machine.execLifeAdvance ch s
  | .profileSet ch => Sys2Proof.Machine.execProfileSet ch s
  | .profileGet ch => Sys2Proof.Machine.execProfileGet ch s
  | .profileLoadTable ch => Sys2Proof.Machine.execProfileLoadTable ch s
  | .profileReadTable ch => Sys2Proof.Machine.execProfileReadTable ch s
  | .govInfo ch => Sys2Proof.Machine.execGovInfo ch s
  | .govParamGet ch => Sys2Proof.Machine.execGovParamGet ch s
  | .govParamSet ch => Sys2Proof.Machine.execGovParamSet ch s
  | .govHoldAuto ch => Sys2Proof.Machine.execGovHoldAuto ch s
  | .govHoldFixed ch => Sys2Proof.Machine.execGovHoldFixed ch s
  | .govHoldStop ch => Sys2Proof.Machine.execGovHoldStop ch s
  | .netInfo ch => Sys2Proof.Machine.execNetInfo ch s
  | .netPortEnable ch => Sys2Proof.Machine.execNetPortEnable ch s
  | .netPortDisable ch => Sys2Proof.Machine.execNetPortDisable ch s
  | .netAddr ch => Sys2Proof.Machine.execNetAddr ch s
  | .netQpCreate ch => Sys2Proof.Machine.execNetQpCreate ch s
  | .netQpDestroy ch => Sys2Proof.Machine.execNetQpDestroy ch s
  | .netQpQuery ch => Sys2Proof.Machine.execNetQpQuery ch s
  | .netNeighRead ch => Sys2Proof.Machine.execNetNeighRead ch s
  | .netNeighFlush ch => Sys2Proof.Machine.execNetNeighFlush ch s
  | .dmaInfo ch => Sys2Proof.Machine.execDmaInfo ch s
  | .dmaShare ch => Sys2Proof.Machine.execDmaShare ch s
  | .dmaRings ch => Sys2Proof.Machine.execDmaRings ch s
  | .diagInfo ch => Sys2Proof.Machine.execDiagInfo ch s
  | .diagLoopOn ch => Sys2Proof.Machine.execDiagLoopOn ch s
  | .diagLoopOff ch => Sys2Proof.Machine.execDiagLoopOff ch s
  | .diagInject ch => Sys2Proof.Machine.execDiagInject ch s
  | .diagInjectDisarm ch => Sys2Proof.Machine.execDiagInjectDisarm ch s
  | .diagKat ch => Sys2Proof.Machine.execDiagKat ch s
  | .tetherInfo ch => Sys2Proof.Machine.execTetherInfo ch s
  | .tetherExportRing ch => Sys2Proof.Machine.execTetherExportRing ch s
  | .tetherExportFreezeBuf ch => Sys2Proof.Machine.execTetherExportFreezeBuf ch s
  | .tetherExportFollow ch => Sys2Proof.Machine.execTetherExportFollow ch s
  | .tetherFreeze ch => Sys2Proof.Machine.execTetherFreeze ch s
  | .tetherThaw ch => Sys2Proof.Machine.execTetherThaw ch s
  | .tetherParamGet ch => Sys2Proof.Machine.execTetherParamGet ch s
  | .tetherParamSet ch => Sys2Proof.Machine.execTetherParamSet ch s
  | .mbxGo o ch v => Sys2Proof.Machine.execMbxGo o ch v s
  | .mbxWriteWhileFull ch reg v => Sys2Proof.Machine.execMbxWriteWhileFull ch reg v s
  | .mbxStatRead o ch => Sys2Proof.Machine.execMbxStatRead o ch s
  | .cqDoneRelease o k v => Sys2Proof.Machine.execCqDoneRelease o k v s
  | .dbStatClear o v => Sys2Proof.Machine.execDbStatClear o v s
  | .heartbeat => Sys2Proof.Machine.execHeartbeat s
  | .sysResetDelayExpiry => Sys2Proof.Machine.execSysResetDelayExpiry s
  | .rcFieldRead o off => Sys2Proof.Machine.execRcFieldRead o off s
  | .counterLoRead o off => Sys2Proof.Machine.execCounterLoRead o off s
  | .indAddrWrite o v => Sys2Proof.Machine.execIndAddrWrite o v s
  | .indDataRead o => Sys2Proof.Machine.execIndDataRead o s
  | .indDataWrite o v => Sys2Proof.Machine.execIndDataWrite o v s
  | .farPrefetchDone win reply => Sys2Proof.Machine.execFarPrefetchDone win reply s
  | .farWriteAck win ok => Sys2Proof.Machine.execFarWriteAck win ok s
  | .farAccessTimeout win => Sys2Proof.Machine.execFarAccessTimeout win s
  | .wvSelWrite o v => Sys2Proof.Machine.execWvSelWrite o v s
  | .wvPieceLoaded => Sys2Proof.Machine.execWvPieceLoaded s
  | .wvData3Read o => Sys2Proof.Machine.execWvData3Read o s
  | .fwLoadStart v => Sys2Proof.Machine.execFwLoadStart v s
  | .intCtrlEoi v => Sys2Proof.Machine.execIntCtrlEoi v s
  | .eoiReleaseEnd => Sys2Proof.Machine.execEoiReleaseEnd s
  | .msixHoldoffEnd => Sys2Proof.Machine.execMsixHoldoffEnd s
  | .configWrite o off v => Sys2Proof.Machine.execConfigWrite o off v s
  | .bar0UnsupportedRequest off len be kind => Sys2Proof.Machine.execBar0UnsupportedRequest off len be kind s
  | .bar0PoisonedWrite off v => Sys2Proof.Machine.execBar0PoisonedWrite off v s
  | .strmSqTailWrite st v => Sys2Proof.Machine.execStrmSqTailWrite st v s
  | .strmCqHeadWrite st v => Sys2Proof.Machine.execStrmCqHeadWrite st v s
  | .dmaTailWrite c v => Sys2Proof.Machine.execDmaTailWrite c v s
  | .dmaEnable o c => Sys2Proof.Machine.execDmaEnable o c s
  | .dmaDisable o c => Sys2Proof.Machine.execDmaDisable o c s
  | .dmaResume o c => Sys2Proof.Machine.execDmaResume o c s
  | .dmaHdoneClear o v => Sys2Proof.Machine.execDmaHdoneClear o v s
  | .nackedClear o => Sys2Proof.Machine.execNackedClear o s
  | .auxFuncWrite o j v => Sys2Proof.Machine.execAuxFuncWrite o j v s
  | .auxParkEnd k => Sys2Proof.Machine.execAuxParkEnd k s
  | .auxContClear o v => Sys2Proof.Machine.execAuxContClear o v s
  | .auxLevelAccepted k pad => Sys2Proof.Machine.execAuxLevelAccepted k pad s
  | .auxContentionTrip k => Sys2Proof.Machine.execAuxContentionTrip k s
  | .ledWave => Sys2Proof.Machine.execLedWave s
  | .i2cAddress a => Sys2Proof.Machine.execI2cAddress a s
  | .setAddr a => Sys2Proof.Machine.execSetAddr a s
  | .write bytes => Sys2Proof.Machine.execWrite bytes s
  | .setCtrl c => Sys2Proof.Machine.execSetCtrl c s
  | .readStat => Sys2Proof.Machine.execReadStat s
  | .readData n => Sys2Proof.Machine.execReadData n s
  | .i2cUnknownCommand cmd => Sys2Proof.Machine.execI2cUnknownCommand cmd s
  | .i2cStopMidWord => Sys2Proof.Machine.execI2cStopMidWord s
  | .powerOnReset => Sys2Proof.Machine.execPowerOnReset s
  | .resetNAssert => Sys2Proof.Machine.execResetNAssert s
  | .resetNRelease straps => Sys2Proof.Machine.execResetNRelease straps s
  | .vaonBrownout => Sys2Proof.Machine.execVaonBrownout s
  | .vcoreBrownout => Sys2Proof.Machine.execVcoreBrownout s
  | .brownoutRelease rail => Sys2Proof.Machine.execBrownoutRelease rail s
  | .nvInhibit => Sys2Proof.Machine.execNvInhibit s
  | .nvResume => Sys2Proof.Machine.execNvResume s
  | .refclkLoss => Sys2Proof.Machine.execRefclkLoss s
  | .refclkReturn => Sys2Proof.Machine.execRefclkReturn s
  | .pllLostLock pll => Sys2Proof.Machine.execPllLostLock pll s
  | .pllUnlock pll => Sys2Proof.Machine.execPllUnlock pll s
  | .gearboxSlip link => Sys2Proof.Machine.execGearboxSlip link s
  | .perstNAssert => Sys2Proof.Machine.execPerstNAssert s
  | .perstNRelease => Sys2Proof.Machine.execPerstNRelease s
  | .pmeTurnOff => Sys2Proof.Machine.execPmeTurnOff s
  | .standbyAckTimeout => Sys2Proof.Machine.execStandbyAckTimeout s
  | .wakeRequest w => Sys2Proof.Machine.execWakeRequest w s
  | .fuseLoadDone readable => Sys2Proof.Machine.execFuseLoadDone readable s
  | .selfTestDone r => Sys2Proof.Machine.execSelfTestDone r s
  | .hbmTrainingDone ok => Sys2Proof.Machine.execHbmTrainingDone ok s
  | .imageCheckDone fetched => Sys2Proof.Machine.execImageCheckDone fetched s
  | .ready r => Sys2Proof.Machine.execReady r s
  | .domainSwitchStart => Sys2Proof.Machine.execDomainSwitchStart s
  | .domainSwitchDone => Sys2Proof.Machine.execDomainSwitchDone s
  | .pdFail => Sys2Proof.Machine.execPdFail s
  | .autoGateOff half => Sys2Proof.Machine.execAutoGateOff half s
  | .parityCheckerVisit off flips => Sys2Proof.Machine.execParityCheckerVisit off flips s
  | .sramUe u => Sys2Proof.Machine.execSramUe u s
  | .faultInHand => Sys2Proof.Machine.execFaultInHand s
  | .faultHandlingDone => Sys2Proof.Machine.execFaultHandlingDone s
  | .safeStopTimeout n => Sys2Proof.Machine.execSafeStopTimeout n s
  | .wdWarn => Sys2Proof.Machine.execWdWarn s
  | .watchdogExpiry => Sys2Proof.Machine.execWatchdogExpiry s
  | .thermalSample readings => Sys2Proof.Machine.execThermalSample readings s
  | .pcieLinkUp speed lanes => Sys2Proof.Machine.execPcieLinkUp speed lanes s
  | .hotReset linkDown => Sys2Proof.Machine.execHotReset linkDown s
  | .configSpaceWrite w => Sys2Proof.Machine.execConfigSpaceWrite w s
  | .aerCorr => Sys2Proof.Machine.execAerCorr s
  | .aerFatal detail => Sys2Proof.Machine.execAerFatal detail s
  | .sqPull st entries => Sys2Proof.Machine.execSqPull st entries s
  | .payloadPullDone st idx payload => Sys2Proof.Machine.execPayloadPullDone st idx payload s
  | .landing r => Sys2Proof.Machine.execLanding r s
  | .readCompletionError t e => Sys2Proof.Machine.execReadCompletionError t e s
  | .cplTimeout t => Sys2Proof.Machine.execCplTimeout t s
  | .descriptorFetch c d => Sys2Proof.Machine.execDescriptorFetch c d s
  | .descriptorEnd c e => Sys2Proof.Machine.execDescriptorEnd c e s
  | .bar2Read off len upset => Sys2Proof.Machine.execBar2Read off len upset s
  | .bar2Write off data poisoned => Sys2Proof.Machine.execBar2Write off data poisoned s
  | .narrowWrite src addr data upset => Sys2Proof.Machine.execNarrowWrite src addr data upset s
  | .mergeWriteBack line => Sys2Proof.Machine.execMergeWriteBack line s
  | .scrubLine line upset => Sys2Proof.Machine.execScrubLine line upset s
  | .stackFail st => Sys2Proof.Machine.execStackFail st s
  | .cmpDispatch => Sys2Proof.Machine.execCmpDispatch s
  | .blockCoded e selfOk => Sys2Proof.Machine.execBlockCoded e selfOk s
  | .engineKatStart e => Sys2Proof.Machine.execEngineKatStart e s
  | .engineKatDone e pass => Sys2Proof.Machine.execEngineKatDone e pass s
  | .cipDispatch => Sys2Proof.Machine.execCipDispatch s
  | .blockEncrypted u => Sys2Proof.Machine.execBlockEncrypted u s
  | .reencryptBlock => Sys2Proof.Machine.execReencryptBlock s
  | .maskReseed u => Sys2Proof.Machine.execMaskReseed u s
  | .entropyFail => Sys2Proof.Machine.execEntropyFail s
  | .unlockWindowExpiry => Sys2Proof.Machine.execUnlockWindowExpiry s
  | .nvRowDone => Sys2Proof.Machine.execNvRowDone s
  | .keySlotEmptied slot => Sys2Proof.Machine.execKeySlotEmptied slot s
  | .coreFault u => Sys2Proof.Machine.execCoreFault u s
  | .dataSetBoundary n lpos => Sys2Proof.Machine.execDataSetBoundary n lpos s
  | .rowBuild n => Sys2Proof.Machine.execRowBuild n s
  | .rowFlushTimer n => Sys2Proof.Machine.execRowFlushTimer n s
  | .rowRuled n reads => Sys2Proof.Machine.execRowRuled n reads s
  | .rulingTimeout n => Sys2Proof.Machine.execRulingTimeout n s
  | .deepDecodeDone n ok => Sys2Proof.Machine.execDeepDecodeDone n ok s
  | .finalCompletionPosted r => Sys2Proof.Machine.execFinalCompletionPosted r s
  | .sessionEnd n => Sys2Proof.Machine.execSessionEnd n s
  | .govEvaluation => Sys2Proof.Machine.execGovEvaluation s
  | .wrapTurn n => Sys2Proof.Machine.execWrapTurn n s
  | .extHoldExpiry => Sys2Proof.Machine.execExtHoldExpiry s
  | .rampFault n => Sys2Proof.Machine.execRampFault n s
  | .servoFrame n f => Sys2Proof.Machine.execServoFrame n f s
  | .speedErr n => Sys2Proof.Machine.execSpeedErr n s
  | .hello n m => Sys2Proof.Machine.execHello n m s
  | .helloTimeout n => Sys2Proof.Machine.execHelloTimeout n s
  | .laneLockTimeout n lane => Sys2Proof.Machine.execLaneLockTimeout n lane s
  | .identityCheck n ids => Sys2Proof.Machine.execIdentityCheck n ids s
  | .portUp n => Sys2Proof.Machine.execPortUp n s
  | .credit n wd0 wd1 => Sys2Proof.Machine.execCredit n wd0 wd1 s
  | .motionStat n m => Sys2Proof.Machine.execMotionStat n m s
  | .cartridge n m => Sys2Proof.Machine.execCartridge n m s
  | .power n m => Sys2Proof.Machine.execPower n m s
  | .laneStat n bits => Sys2Proof.Machine.execLaneStat n bits s
  | .sensor n temp => Sys2Proof.Machine.execSensor n temp s
  | .regData n addr val err => Sys2Proof.Machine.execRegData n addr val err s
  | .fault n kind => Sys2Proof.Machine.execFault n kind s
  | .keepalive n => Sys2Proof.Machine.execKeepalive n s
  | .statusMessageDiscard n => Sys2Proof.Machine.execStatusMessageDiscard n s
  | .keepaliveDue n => Sys2Proof.Machine.execKeepaliveDue n s
  | .linkDown n => Sys2Proof.Machine.execLinkDown n s
  | .losIn n lane => Sys2Proof.Machine.execLosIn n lane s
  | .sysrefErr n => Sys2Proof.Machine.execSysrefErr n s
  | .jesdCrcError n lane => Sys2Proof.Machine.execJesdCrcError n lane s
  | .loadTimeout n => Sys2Proof.Machine.execLoadTimeout n s
  | .rxFrameDrop p bytes => Sys2Proof.Machine.execRxFrameDrop p bytes s
  | .arpRequest p q => Sys2Proof.Machine.execArpRequest p q s
  | .echoRequest p q => Sys2Proof.Machine.execEchoRequest p q s
  | .neighbourReply p ip mac => Sys2Proof.Machine.execNeighbourReply p ip mac s
  | .neighbourRetry p k => Sys2Proof.Machine.execNeighbourRetry p k s
  | .neighbourConfirm p k => Sys2Proof.Machine.execNeighbourConfirm p k s
  | .dadDone p k => Sys2Proof.Machine.execDadDone p k s
  | .inboundPacket p k => Sys2Proof.Machine.execInboundPacket p k s
  | .closingPacketTaken p => Sys2Proof.Machine.execClosingPacketTaken p s
  | .xoff p => Sys2Proof.Machine.execXoff p s
  | .pfcRepeat p => Sys2Proof.Machine.execPfcRepeat p s
  | .xon p => Sys2Proof.Machine.execXon p s
  | .pfcReceived p q en => Sys2Proof.Machine.execPfcReceived p q en s
  | .pfcLong p rx => Sys2Proof.Machine.execPfcLong p rx s
  | .linkUp p => Sys2Proof.Machine.execLinkUp p s
  | .ethLinkDown p align => Sys2Proof.Machine.execEthLinkDown p align s
  | .linkHoldExpiry p => Sys2Proof.Machine.execLinkHoldExpiry p s
  | .portAlignTimeout p => Sys2Proof.Machine.execPortAlignTimeout p s
  | .fecUncorr w => Sys2Proof.Machine.execFecUncorr w s
  | .outboundAck p q ack => Sys2Proof.Machine.execOutboundAck p q ack s
  | .ackTimeout p q => Sys2Proof.Machine.execAckTimeout p q s
  | .remoteNak p q => Sys2Proof.Machine.execRemoteNak p q s
  | .qpDestroyDone p q => Sys2Proof.Machine.execQpDestroyDone p q s
  | .restoreDataSetRead n d => Sys2Proof.Machine.execRestoreDataSetRead n d s
  | .restoreBlockDecrypted t => Sys2Proof.Machine.execRestoreBlockDecrypted t s
  | .restoreBlockDecoded t => Sys2Proof.Machine.execRestoreBlockDecoded t s
  | .restoreRecordDone t => Sys2Proof.Machine.execRestoreRecordDone t s
  | .restoreIndexDone n => Sys2Proof.Machine.execRestoreIndexDone n s
  | .restoreRebuildDone n => Sys2Proof.Machine.execRestoreRebuildDone n s
  | .recoverDone ok => Sys2Proof.Machine.execRecoverDone ok s
  | .streamFlushDone st => Sys2Proof.Machine.execStreamFlushDone st s
  | .streamCloseDone st => Sys2Proof.Machine.execStreamCloseDone st s
  | .diagKatDone pass => Sys2Proof.Machine.execDiagKatDone pass s
  | .injectOffsetEnd sensor => Sys2Proof.Machine.execInjectOffsetEnd sensor s
  | .anchorStart => Sys2Proof.Machine.execAnchorStart s
  | .anchorDone => Sys2Proof.Machine.execAnchorDone s
  | .check pc instret crc => Sys2Proof.Machine.execCheck pc instret crc s
  | .epoch => Sys2Proof.Machine.execEpoch s
  | .followHeader => Sys2Proof.Machine.execFollowHeader s
  | .tetherExportDone detail => Sys2Proof.Machine.execTetherExportDone detail s
  | .tapInstruction inp => Sys2Proof.Machine.execTapInstruction inp s
  | .tapReset => Sys2Proof.Machine.execTapReset s
  | .debugHalt => Sys2Proof.Machine.execDebugHalt s
  | .debugResume => Sys2Proof.Machine.execDebugResume s
  | .debugStep => Sys2Proof.Machine.execDebugStep s
  | .triggerHit => Sys2Proof.Machine.execTriggerHit s
  | .abstractCommand write reg val => Sys2Proof.Machine.execAbstractCommand write reg val s
  | .programBufferExec => Sys2Proof.Machine.execProgramBufferExec s
  | .sbaRead addr size => Sys2Proof.Machine.execSbaRead addr size s
  | .sbaWrite addr size v => Sys2Proof.Machine.execSbaWrite addr size v s
  | .ndmreset => Sys2Proof.Machine.execNdmreset s
  | .dmactiveClear => Sys2Proof.Machine.execDmactiveClear s
  | .vaonPowerOnCrossing => Sys2Proof.Machine.execVaonPowerOnCrossing s
  | .pllLock pll => Sys2Proof.Machine.execPllLock pll s
  | .prbsCheckerLock r => Sys2Proof.Machine.execPrbsCheckerLock r s
  | .receivedPauseExpiry p prio => Sys2Proof.Machine.execReceivedPauseExpiry p prio s
  | .linkStartResend n => Sys2Proof.Machine.execLinkStartResend n s
  | .sramCorr u => Sys2Proof.Machine.execSramCorr u s

end Sys2Proof.Machine
end

