-- ==== Sys2Proof/WellFormed.lean ====
section
/-!
DEFINITION. Commands that can come from outside: offsets that name a register, ranges inside staging, lists of the length
the hardware gives. A sender's command that is refused is well formed: the refusal is its effect.
-/
namespace Sys2Proof

/-- The byte offset of a 32-bit location in BAR0's 64 KiB (ch04). -/
def regOffset (off : Nat) : Bool := decide (off % 4 = 0 ∧ off < 0x10000)

/-- The range lies in the 96 GiB of staging (ch09). -/
def inStaging (off len : Nat) : Bool := decide (off + len ≤ 96 * 2 ^ 30)

/-- The range lies in the 128 GiB that BAR2 spans (R293). -/
def inBar2 (off len : Nat) : Bool := decide (off + len ≤ 2 ^ 37)

/-- Record descriptors (R39). -/
def descriptors : Nat := 262144

/-- The command's operands are ones that the hardware can be given. -/
def Instr.wellFormed : Instr → Bool
  | .sysInfo _ => true
  | .sysPowerDomainOn _ => true
  | .sysPowerDomainOff _ => true
  | .sysPowerAutoVrfOn _ => true
  | .sysPowerAutoVrfOff _ => true
  | .sysPowerStandby _ => true
  | .sysReset _ => true
  | .sysAudit _ => true
  | .sysFaultsStatus _ => true
  | .sysFaultsRead _ => true
  | .sysFaultsRelease _ => true
  | .sysFaultsRecover _ => true
  | .sysConfigGet _ => true
  | .sysConfigSet _ => true
  | .unknownOpcode _ => true
  | .xportInfo _ => true
  | .xportLinkStart _ => true
  | .xportLinkStop _ => true
  | .xportLoadWrite _ => true
  | .xportLoadRead _ => true
  | .xportUnload _ => true
  | .xportClear _ => true
  | .xportParam _ => true
  | .streamOpen _ => true
  | .streamAttach _ => true
  | .streamFlush _ => true
  | .streamClose _ => true
  | .streamSet _ => true
  | .streamInfo _ => true
  | .restoreIndex _ => true
  | .restoreRebuild _ => true
  | .restoreRecord _ => true
  | .restoreFind _ => true
  | .restoreInfo _ => true
  | .restoreParamGet _ => true
  | .restoreParamSet _ => true
  | .restoreRelease _ => true
  | .keyLoad _ => true
  | .keyClear _ => true
  | .keyInfo _ => true
  | .keyKekSet _ => true
  | .keyContext _ => true
  | .lifeInfo _ => true
  | .lifeSet _ => true
  | .lifeAdvance _ => true
  | .profileSet _ => true
  | .profileGet _ => true
  | .profileLoadTable _ => true
  | .profileReadTable _ => true
  | .govInfo _ => true
  | .govParamGet _ => true
  | .govParamSet _ => true
  | .govHoldAuto _ => true
  | .govHoldFixed _ => true
  | .govHoldStop _ => true
  | .netInfo _ => true
  | .netPortEnable _ => true
  | .netPortDisable _ => true
  | .netAddr _ => true
  | .netQpCreate _ => true
  | .netQpDestroy _ => true
  | .netQpQuery _ => true
  | .netNeighRead _ => true
  | .netNeighFlush _ => true
  | .dmaInfo _ => true
  | .dmaShare _ => true
  | .dmaRings _ => true
  | .diagInfo _ => true
  | .diagLoopOn _ => true
  | .diagLoopOff _ => true
  | .diagInject _ => true
  | .diagInjectDisarm _ => true
  | .diagKat _ => true
  | .tetherInfo _ => true
  | .tetherExportRing _ => true
  | .tetherExportFreezeBuf _ => true
  | .tetherExportFollow _ => true
  | .tetherFreeze _ => true
  | .tetherThaw _ => true
  | .tetherParamGet _ => true
  | .tetherParamSet _ => true
  | .mbxGo _ _ _ => true
  | .mbxWriteWhileFull _ _ _ => true
  | .mbxStatRead _ _ => true
  | .cqDoneRelease _ _ _ => true
  | .dbStatClear _ _ => true
  | .heartbeat => true
  | .sysResetDelayExpiry => true
  | .rcFieldRead _ off => regOffset off
  | .counterLoRead _ off => regOffset off
  | .indAddrWrite _ _ => true
  | .indDataRead _ => true
  | .indDataWrite _ _ => true
  | .farPrefetchDone _ _ => true
  | .farWriteAck _ _ => true
  | .farAccessTimeout _ => true
  | .wvSelWrite _ _ => true
  | .wvPieceLoaded => true
  | .wvData3Read _ => true
  | .fwLoadStart _ => true
  | .intCtrlEoi _ => true
  | .eoiReleaseEnd => true
  | .msixHoldoffEnd => true
  | .configWrite _ off _ => regOffset off
  | .bar0UnsupportedRequest _ _ _ .controller => true
  | .bar0UnsupportedRequest off len _ .read => decide (off < 0x10000 ∧ 1 ≤ len)
  | .bar0UnsupportedRequest off len _ (.write ws) => decide (off < 0x10000 ∧ 1 ≤ len ∧ ws.length = len)
  | .bar0PoisonedWrite off _ => regOffset off
  | .strmSqTailWrite _ _ => true
  | .strmCqHeadWrite _ _ => true
  | .dmaTailWrite _ _ => true
  | .dmaEnable _ _ => true
  | .dmaDisable _ _ => true
  | .dmaResume _ _ => true
  | .dmaHdoneClear _ _ => true
  | .nackedClear _ => true
  | .auxFuncWrite _ _ _ => true
  | .auxParkEnd _ => true
  | .auxContClear _ _ => true
  | .auxLevelAccepted _ _ => true
  | .auxContentionTrip _ => true
  | .ledWave => true
  | .i2cAddress _ => true
  | .setAddr a => decide (a.length ≤ 4)
  | .write _ => true
  | .setCtrl _ => true
  | .readStat => true
  | .readData _ => true
  | .i2cUnknownCommand _ => true
  | .i2cStopMidWord => true
  | .powerOnReset => true
  | .resetNAssert => true
  | .resetNRelease _ => true
  | .vaonBrownout => true
  | .vcoreBrownout => true
  | .brownoutRelease _ => true
  | .nvInhibit => true
  | .nvResume => true
  | .refclkLoss => true
  | .refclkReturn => true
  | .pllLostLock _ => true
  | .pllUnlock _ => true
  | .gearboxSlip _ => true
  | .perstNAssert => true
  | .perstNRelease => true
  | .pmeTurnOff => true
  | .standbyAckTimeout => true
  | .wakeRequest _ => true
  | .fuseLoadDone _ => true
  | .selfTestDone _ => true
  | .hbmTrainingDone _ => true
  | .imageCheckDone _ => true
  | .ready _ => true
  | .domainSwitchStart => true
  | .domainSwitchDone => true
  | .pdFail => true
  | .autoGateOff _ => true
  | .parityCheckerVisit off _ => regOffset off
  | .sramUe _ => true
  | .faultInHand => true
  | .faultHandlingDone => true
  | .safeStopTimeout _ => true
  | .wdWarn => true
  | .watchdogExpiry => true
  | .thermalSample rs => decide (rs.length = 8)
  | .pcieLinkUp speed l => decide (1 ≤ speed ∧ speed ≤ 5) && [1, 2, 4, 8, 16].contains l.width
  | .hotReset _ => true
  | .configSpaceWrite _ => true
  | .aerCorr => true
  | .aerFatal _ => true
  | .sqPull _ es => !es.isEmpty
  | .payloadPullDone _ _ _ => true
  | .landing r => decide (r < descriptors)
  | .readCompletionError _ _ => true
  | .cplTimeout _ => true
  | .descriptorFetch _ _ => true
  | .descriptorEnd _ _ => true
  | .bar2Read off len _ => inBar2 off len
  | .bar2Write off bs _ => inBar2 off bs.length
  | .narrowWrite _ a bs _ => inStaging a bs.length
  | .mergeWriteBack l => inStaging (64 * l) 64
  | .scrubLine l _ => inStaging (64 * l) 64
  | .stackFail _ => true
  | .cmpDispatch => true
  | .blockCoded _ _ => true
  | .engineKatStart _ => true
  | .engineKatDone _ _ => true
  | .cipDispatch => true
  | .blockEncrypted _ => true
  | .reencryptBlock => true
  | .maskReseed _ => true
  | .entropyFail => true
  | .unlockWindowExpiry => true
  | .nvRowDone => true
  | .keySlotEmptied _ => true
  | .coreFault _ => true
  | .dataSetBoundary _ l => decide (l < 2 ^ 32)
  | .rowBuild _ => true
  | .rowFlushTimer _ => true
  | .rowRuled _ _ => true
  | .rulingTimeout _ => true
  | .deepDecodeDone _ _ => true
  | .finalCompletionPosted r => decide (r < descriptors)
  | .sessionEnd _ => true
  | .govEvaluation => true
  | .wrapTurn _ => true
  | .extHoldExpiry => true
  | .rampFault _ => true
  | .servoFrame _ _ => true
  | .speedErr _ => true
  | .hello _ _ => true
  | .helloTimeout _ => true
  | .laneLockTimeout _ _ => true
  | .identityCheck _ ids => decide (ids.length = 10)
  | .portUp _ => true
  | .credit _ _ _ => true
  | .motionStat _ _ => true
  | .cartridge _ _ => true
  | .power _ _ => true
  | .laneStat _ _ => true
  | .sensor _ _ => true
  | .regData _ _ _ _ => true
  | .fault _ _ => true
  | .keepalive _ => true
  | .statusMessageDiscard _ => true
  | .keepaliveDue _ => true
  | .linkDown _ => true
  | .losIn _ _ => true
  | .sysrefErr _ => true
  | .jesdCrcError _ _ => true
  | .loadTimeout _ => true
  | .rxFrameDrop _ _ => true
  | .arpRequest _ _ => true
  | .echoRequest _ _ => true
  | .neighbourReply _ _ _ => true
  | .neighbourRetry _ i => decide (i < 256)
  | .neighbourConfirm _ i => decide (i < 256)
  | .dadDone _ _ => true
  | .inboundPacket _ _ => true
  | .closingPacketTaken _ => true
  | .xoff _ => true
  | .pfcRepeat _ => true
  | .xon _ => true
  | .pfcReceived _ q _ => decide (q.length = 8)
  | .pfcLong _ _ => true
  | .linkUp _ => true
  | .ethLinkDown _ _ => true
  | .linkHoldExpiry _ => true
  | .portAlignTimeout _ => true
  | .fecUncorr _ => true
  | .outboundAck _ _ _ => true
  | .ackTimeout _ _ => true
  | .remoteNak _ _ => true
  | .qpDestroyDone _ _ => true
  | .restoreDataSetRead _ _ => true
  | .restoreBlockDecrypted t => decide (t < 64)
  | .restoreBlockDecoded t => decide (t < 64)
  | .restoreRecordDone t => decide (t < 64)
  | .restoreIndexDone _ => true
  | .restoreRebuildDone _ => true
  | .recoverDone _ => true
  | .streamFlushDone _ => true
  | .streamCloseDone _ => true
  | .diagKatDone _ => true
  | .injectOffsetEnd _ => true
  | .anchorStart => true
  | .anchorDone => true
  | .check _ _ _ => true
  | .epoch => true
  | .followHeader => true
  | .tetherExportDone _ => true
  | .tapInstruction _ => true
  | .tapReset => true
  | .debugHalt => true
  | .debugResume => true
  | .debugStep => true
  | .triggerHit => true
  | .abstractCommand _ _ _ => true
  | .programBufferExec => true
  | .sbaRead _ size => [8, 16, 32, 64].contains size
  | .sbaWrite _ size _ => [8, 16, 32, 64].contains size
  | .ndmreset => true
  | .dmactiveClear => true
  | .vaonPowerOnCrossing => true
  | .pllLock _ => true
  | .prbsCheckerLock r => decide (r.lane < 144)
  | .receivedPauseExpiry _ _ => true
  | .linkStartResend _ => true
  | .sramCorr _ => true

end Sys2Proof
end

