-- ==== Sys2Proof/Safety.lean ====
section
/-!
DEFINITION. What counts as a sound state and a safe step, and the terms that the statements share: a command that is
accepted, what answering it leaves, the invariants.
-/
namespace Sys2Proof.Machine
open Sys2Proof

/-- A step goes on: it ends neither in a fault nor in a refusal. -/
def runs (o : Host.Outcome State Fault Refusal) : Bool := match o with
  | .next _ => true
  | _ => false

/-- The state after a step that goes on. -/
def after (o : Host.Outcome State Fault Refusal) : Option State := match o with
  | .next s => some s
  | _ => none

end Sys2Proof.Machine

namespace Sys2Proof.Claims
open Sys2Proof Sys2Proof.Machine

/-! ### The command protocol -/

/-- The message in channel `c` is a command of form `k` that Fjarma takes now, or has taken and loaded, and that is no repeat
of the last one. -/
abbrev Taken (k : Cmd) (c : Chan) (s : State) : Prop :=
  takes c s = true ∧ (msgOf c s).opcode = k.opcode ∧ k.mine (msgOf c s) = true ∧
    replayed (msgOf c s) (loaded c s) = none

/-- The message in channel `c` is taken and no refusal of R262 applies to it once it is loaded. -/
abbrev Accepted (k : Cmd) (c : Chan) (s : State) : Prop := Taken k c s ∧ refuse k (msgOf c s) (loaded c s) = 0

/-- `t` with channel `c` answered for the message it held in `s`: return code, answer words, the exchange remembered. -/
def answered (c : Chan) (code : Nat) (words : List Word) (s t : State) : State :=
  remember (msgOf c s) (answer (msgOf c s) code 0 false words t)

/-- A long command loaded and accepted: ticket `t` is held for the work `w`, and ACCEPTED with the ticket answers. -/
def begun (c : Chan) (w : LongOp) (t : Nat) (s : State) : State :=
  remember (msgOf c s) (answer (msgOf c s) rAccepted t false [] (modTicket t (fun x => { x with
    held := true, done := false, chan := c.val, header := (msgOf c s).header, work := some w }) (loaded c s)))

/-- Command `i`, loaded and accepted in form `k`, answers OK with these words and leaves this state, and nothing else. -/
def Answers (k : Cmd) (i : Chan → Instr) (words : Msg → State → List Word) (effect : Msg → State → State) : Prop :=
  ∀ (c : Chan) (s : State), Accepted k c s →
    exec (i c) s = .next (settle s
      (answered c rOk (words (msgOf c s) (loaded c s)) s (effect (msgOf c s) (loaded c s))))

/-- Command `i`, accepted in form `k`, answers ACCEPTED with the lowest free ticket of its channel's pool and begins its
work. -/
def Begins (k : Cmd) (i : Chan → Instr) (work : Msg → LongOp) (start : Msg → Nat → State → State) : Prop :=
  ∀ (c : Chan) (s : State) (t : Nat), Accepted k c s → freeTicket c (loaded c s) = some t →
    exec (i c) s = .next (settle s (start (msgOf c s) t (begun c (work (msgOf c s)) t s)))

/-- The form of a command, its channel, and whether streams without a transport are looked at after it (R620). -/
def commandOf : Instr → Option (Cmd × Chan × Bool)
  | .sysInfo c => some (sysInfo, c, false)
  | .sysPowerDomainOn c => some (sysDomainOn, c, false)
  | .sysPowerDomainOff c => some (sysDomainOff, c, false)
  | .sysPowerAutoVrfOn c => some (sysAutoVrf true, c, false)
  | .sysPowerAutoVrfOff c => some (sysAutoVrf false, c, false)
  | .sysPowerStandby c => some (sysStandby, c, false)
  | .sysReset c => some (sysReset, c, false)
  | .sysAudit c => some (sysAudit, c, false)
  | .sysFaultsStatus c => some (sysFaultsStatus, c, false)
  | .sysFaultsRead c => some (sysFaultsRead, c, false)
  | .sysFaultsRelease c => some (sysFaultsRelease, c, false)
  | .sysFaultsRecover c => some (sysFaultsRecover, c, false)
  | .sysConfigGet c => some (sysConfigGet, c, false)
  | .sysConfigSet c => some (sysConfigSet, c, false)
  | .xportInfo c => some (xportInfo, c, false)
  | .xportLinkStart c => some (xportLinkStart, c, false)
  | .xportLinkStop c => some (xportLinkStop, c, true)
  | .xportLoadWrite c => some (xportLoad true, c, false)
  | .xportLoadRead c => some (xportLoad false, c, false)
  | .xportUnload c => some (xportUnload, c, false)
  | .xportClear c => some (xportClear, c, true)
  | .xportParam c => some (xportParam, c, false)
  | .streamOpen c => some (streamOpen, c, true)
  | .streamAttach c => some (streamAttach, c, false)
  | .streamFlush c => some (streamFlush, c, false)
  | .streamClose c => some (streamClose, c, false)
  | .streamSet c => some (streamSet, c, true)
  | .streamInfo c => some (streamInfo, c, false)
  | .restoreIndex c => some (restoreIndex, c, false)
  | .restoreRebuild c => some (restoreRebuild, c, false)
  | .restoreRecord c => some (restoreRecord, c, false)
  | .restoreFind c => some (restoreFind, c, false)
  | .restoreInfo c => some (restoreInfo, c, false)
  | .restoreParamGet c => some (restoreParamGet, c, false)
  | .restoreParamSet c => some (restoreParamSet, c, false)
  | .restoreRelease c => some (restoreRelease, c, false)
  | .keyLoad c => some (keyLoad, c, false)
  | .keyClear c => some (keyClear, c, false)
  | .keyInfo c => some (keyInfo, c, false)
  | .keyKekSet c => some (keyKekSet, c, false)
  | .keyContext c => some (keyContext, c, false)
  | .lifeInfo c => some (lifeInfo, c, false)
  | .lifeSet c => some (lifeSet, c, false)
  | .lifeAdvance c => some (lifeAdvance, c, false)
  | .profileSet c => some (profileSet, c, false)
  | .profileGet c => some (profileGet, c, false)
  | .profileLoadTable c => some (profileLoadTable, c, false)
  | .profileReadTable c => some (profileReadTable, c, false)
  | .govInfo c => some (govInfo, c, false)
  | .govParamGet c => some (govParamGet, c, false)
  | .govParamSet c => some (govParamSet, c, false)
  | .govHoldAuto c => some (govHold 0, c, false)
  | .govHoldFixed c => some (govHold 1, c, false)
  | .govHoldStop c => some (govHold 2, c, false)
  | .netInfo c => some (netInfo, c, false)
  | .netPortEnable c => some (netPortEnable, c, false)
  | .netPortDisable c => some (netPortDisable, c, false)
  | .netAddr c => some (netAddr, c, false)
  | .netQpCreate c => some (netQpCreate, c, false)
  | .netQpDestroy c => some (netQpDestroy, c, false)
  | .netQpQuery c => some (netQpQuery, c, false)
  | .netNeighRead c => some (netNeighRead, c, false)
  | .netNeighFlush c => some (netNeighFlush, c, false)
  | .dmaInfo c => some (dmaInfo, c, false)
  | .dmaShare c => some (dmaShare, c, false)
  | .dmaRings c => some (dmaRings, c, false)
  | .diagInfo c => some (diagInfo, c, false)
  | .diagLoopOn c => some (diagLoopCmd true, c, false)
  | .diagLoopOff c => some (diagLoopCmd false, c, false)
  | .diagInject c => some (diagInjectCmd, c, false)
  | .diagInjectDisarm c => some (diagDisarmCmd, c, false)
  | .diagKat c => some (diagKatCmd, c, false)
  | .tetherInfo c => some (tetherInfo, c, false)
  | .tetherExportRing c => some (tetherExport 0, c, false)
  | .tetherExportFreezeBuf c => some (tetherExport 1, c, false)
  | .tetherExportFollow c => some (tetherExport 2, c, false)
  | .tetherFreeze c => some (tetherFreeze, c, false)
  | .tetherThaw c => some (tetherThaw, c, false)
  | .tetherParamGet c => some (tetherParamGet, c, false)
  | .tetherParamSet c => some (tetherParamSet, c, false)
  | _ => none

/-- What `commandOf` tells of streams. -/
def withStreams (look : Bool) (s : State) : State := if look then checkStreams s else s

/-! ### Register accesses -/

/-- A write of the origin to this BAR0 offset is accepted: the origin reaches the registers, no refusal applies, and the
write is not discarded (R156, R158, R171, R203, R240, R243). -/
abbrev Writes (o : Origin) (off : Nat) (s : State) : Prop :=
  originUp o s = true ∧ writeRefused o off (useModule o s) = none ∧ writeDiscarded o off (useModule o s) = false

/-- The state as an accepted word reaches its register: the tether log has its HOST_WRITE entry, the register matching
parity (R165, R739); the debug module is active where the debug port writes. -/
def arrived (o : Origin) (off : Nat) (v : Word) (s : State) : State :=
  dropParity (fun x => decide (x = off)) (hostWriteEntry o off v (useModule o s))

/-- The state once a read's value has gone out, before what the read changes. -/
def shown (o : Origin) (off : Nat) (s : State) : State :=
  emit (.readData o off (bar0View o off (useModule o s))) (useModule o s)

/-! ### What a reset leaves -/

/-- `t` is `s` with every register of PD_SUP and the gated domains at its reset value: the fuse rows and the queue stand, and
boot waits for the core PLL, or is held while something holds the reset (R129, R132, R794). -/
def ResetLeft (s t : State) : Prop :=
  t.nv.rows = s.nv.rows ∧ t.pending = s.pending ∧
  t.mbx = State.reset.mbx ∧ t.irq = State.reset.irq ∧ t.regs = State.reset.regs ∧ t.ing = State.reset.ing ∧
  t.cip = State.reset.cip ∧ t.cmp = State.reset.cmp ∧ t.trn = State.reset.trn ∧ t.fmt = State.reset.fmt ∧
  t.gov = State.reset.gov ∧ t.rst = State.reset.rst ∧ t.stg = State.reset.stg ∧ t.net = State.reset.net ∧
  t.pcie = State.reset.pcie ∧ t.power = State.reset.power ∧ t.dma = State.reset.dma ∧ t.faults = State.reset.faults ∧
  t.tether = State.reset.tether ∧ t.dbg = State.reset.dbg ∧ t.therm = State.reset.therm ∧ t.aux = State.reset.aux ∧
  t.i2c = State.reset.i2c ∧
  (t.boot.phase = .held ∨ t.boot.phase = .pll) ∧ (t.boot.phase = .held → resetHeld t = true)

/-! ### What every step leaves -/

/-- The outputs that follow from the state stand as the state says: the attention condition, INT_N (R207, R219), Pending
only while no message may go (R209), and the RoCE hold (R373). -/
def OutputsCurrent (s : State) : Prop :=
  s.irq.attention = attentionNow s ∧ s.irq.intN = (attentionNow s && !s.irq.pinOff && !s.irq.eoiRelease) ∧
  (s.irq.msixPending = true → msixAllowed s = false) ∧ s.net.held = holdInForce s

/-! ### The channel code and the C1 code, as R529 and R532 state them -/

/-- All words of `n` bits. -/
def allWords : Nat → List (List Bool)
  | 0 => [[]]
  | n + 1 => (allWords n).map (fun w => false :: w) ++ (allWords n).map (fun w => true :: w)

/-- No run of 0s goes past `k`, `r` of them standing before the word. -/
def runsWithin (k : Nat) : Nat → List Bool → Bool
  | _, [] => true
  | _, true :: w => runsWithin k 0 w
  | r, false :: w => decide (r < k) && runsWithin k (r + 1) w

/-- At most 6 leading 0s, at most 6 trailing 0s, no run longer than 13. -/
def validWord (w : List Bool) : Bool :=
  decide ((w.takeWhile (fun b => !b)).length ≤ 6) && decide ((w.reverse.takeWhile (fun b => !b)).length ≤ 6) &&
    runsWithin 13 0 w

/-- `v` stands before `w`, words of one length, the first bit most significant. -/
def precedes : List Bool → List Bool → Bool
  | a :: v, b :: w => if a = b then precedes v w else b
  | _, _ => false

/-- The rank of a word among the valid words of its length. -/
def wordRank (w : List Bool) : Nat :=
  ((allWords w.length).filter (fun v => validWord v && precedes v w)).length

/-- Bit `b` of a codeword: bit b mod 8 of byte b div 8 (R531). -/
def codewordBit (cw : List Byte) (b : Nat) : Bool := (cw.getD (b / 8) 0).getLsbD (b % 8)

/-- Base row `i`: its block columns, each with its shift (Tables 12-2 and 12-3). -/
def c1Row (i : Nat) : List (Nat × Nat) :=
  (List.range 32).map (fun k => (k, [0, 1, 3, 7].getD i 0 * (2 * k + 1) % 256)) ++
  [[(32, 1), (33, 0)], [(33, 0), (34, 0)], [(32, 0), (34, 0), (35, 0)], [(32, 1), (35, 0)]].getD i []

/-! ### Status messages -/

/-- A status message reaches TRN_n's port whole: the port receives, and no armed injector 7 spoils its CRC (R571). -/
abbrev Heard (n : Trn) (s : State) : Prop :=
  rxUp n s = true ∧ s.dbg.armed.find? (fun a => a.code == 7 && decide (a.p2.toNat = n.val)) = none

end Sys2Proof.Claims
end

