-- ==== Sys2Proof/Certificates/Slice0/Obligations.lean ====
section
/-!
DEFINITION. The statements for the provers, one definition each (OBLIGATIONS.json lists them).
-/
open Sys2Proof Sys2Proof.Machine Sys2Proof.Claims

/-- For every command c, every queue and every state: the step of the state with c in front of the queue is exec of c on
the state with the rest of the queue, so the commands take effect first in, first out. (The queue is the model's own,
log 1.) (98_reader.md; 00_scope.md) -/
def Obligations.StepRunsTheFrontCommand : Prop :=
  ∀ (c : Instr) (rest : List Instr) (s : State),
    step { s with pending := c :: rest } = exec c { s with pending := rest }

/-- With an empty queue a step is the model's one CCLK (its choice, log 1). While CCLK runs the cycle stamp counts up, and
at its last value wraps to 0 with the epoch count up, its leaf and its EPOCH entry. A freeze copy that a reset waits
for then moves on by a line, the reset following its last; else credit stalls count, no extent stays in transit, the
acceptance cap and the ingest pipe move on, Fjarma takes the next message, and an unlocked fuse change makes its start
write. Without CCLK nothing happens but what follows from any command. (R37; R43; R130; R245; R370; R494; R573; R741;
R742; R757; 18_tether_log_and_replay.md, Table 18-1) -/
def Obligations.EmptyQueueStepIsOneClock : Prop :=
  ∀ (s : State), s.pending = [] →
    step s = .next (settle s (
      if s.power.cclk = false then s
      else
        let t : State := if s.tether.stamp.toNat = 2 ^ 48 - 1 then
            setLeaf 24 3 (logEntry 0x02 (s.tether.epoch + 1).toNat []
              { s with tether.stamp := 0, tether.epoch := s.tether.epoch + 1 })
          else { s with tether.stamp := s.tether.stamp + 1 }
        if s.boot.phase = .copying then (match s.aon.copying with
          | none => t
          | some j => if j.todo ≤ 4 then resetDomains { t with aon.copying := none, aon.freeze := j.buf }
            else { t with aon.copying := some { j with todo := j.todo - 4 } })
        else nvStart (takeNext (pipeTick (acceptTick { countStalls t with stg.moving := [] })))))

/-- Whatever the state and the command, a step answers a next state; and where the outputs stood as the state says, they
do so after it: the stored attention condition is SUMMARY under its mask, INT_N is that condition unless its pin is
off or an end-of-interrupt release runs, Pending stands only while the host forbids the message, and the RoCE hold is
in force exactly from the high-water mark, or 262,144 descriptors, or the acceptance cap (log 187) on. (R207; R209;
R213; R219; R373; R401; 05_interrupt_tree_and_faults.md, The pin and its mirror) -/
def Obligations.EveryStepKeepsOutputsCurrent : Prop :=
  (∀ (s : State), ∃ t, step s = .next t) ∧
  (∀ (s t : State), OutputsCurrent s → step s = .next t → OutputsCurrent t)

/-- State.reset meets the invariant that every step keeps; its staging memory is in canonical form, with nothing listed;
no command waits and nothing has gone out. (That an unlisted byte reads 0, and the queue, are the model's choices,
logs 11 and 1.) (R207; R373; R412; 09_staging_memory.md, The valid map) -/
def Obligations.ResetMeetsTheInvariants : Prop :=
  OutputsCurrent State.reset ∧ Memory.wf State.reset.stg.mem = true ∧ State.reset.stg.mem = [] ∧
  State.reset.pending = [] ∧ State.reset.out = []

/-- For every state before and after a command's own effect: first the control messages that wait go out, until none
waits (log 165), and the DMA engine issues the reads that may go out, none while PCIe may issue nothing. What follows
then changes the attention condition, INT_N, the MSI-X bits, at most one message sent, leaf 1 of source 5 and the hold,
credits of queue pairs with the completions they reserve, and the generations of wide-value items. A message goes only
while attention holds, the host allows it and no hold-off runs. Hold, credits and leaf change only where the hold
begins or ends; generations only where an item changed. All else stays. (R188; R207; R208; R209; R210; R219; R327;
R364; R373; R572; 05_interrupt_tree_and_faults.md, The pin and its mirror) -/
def Obligations.WhatFollowsFromAnyCommand : Prop :=
  (∀ (s : State) (n : Trn), (drainAll s).trn[n].ctlq = []) ∧
  (∀ (s : State), (∀ n : Trn, s.trn[n].ctlq = []) → drainAll s = s) ∧
  (∀ (s : State), pcieIssues s = false → issueReads s = s) ∧
  ∀ (s t' : State), let t := issueReads (drainAll t'); let u := settle s t'
    u = { t with out := u.out, irq := u.irq, net := u.net, ing := u.ing, regs.wv.gen := u.regs.wv.gen } ∧
    (u.out = t.out ∨ (u.out = .msix :: t.out ∧ u.irq.attention = true ∧ msixAllowed t = true ∧ t.irq.holdoffRuns = false)) ∧
    u.irq = { t.irq with
      attention := attentionNow u, intN := attentionNow u && !t.irq.pinOff && !t.irq.eoiRelease,
      msixPending := u.irq.msixPending, msixDue := u.irq.msixDue, holdoffRuns := u.irq.holdoffRuns,
      cause := if holdInForce t && !t.net.held then (setLeaf 5 1 { t with net.held := true }).irq.cause else t.irq.cause } ∧
    (holdInForce t = t.net.held → u.net = t.net ∧ u.ing = t.ing) ∧
    (holdInForce t = true → u.net = { t.net with held := true } ∧ u.ing = t.ing) ∧
    (∀ p : Port, { u.net.port[p] with qp := t.net.port[p].qp } = t.net.port[p] ∧
      ∀ i : Fin 64, u.net.port[p].qp[i].map (fun q => { q with credits := 0 }) =
        t.net.port[p].qp[i].map (fun q => { q with credits := 0 })) ∧
    { u.ing with stream := t.ing.stream } = t.ing ∧
    (∀ i : Strm, { u.ing.stream[i] with reserved := 0 } = { t.ing.stream[i] with reserved := 0 }) ∧
    ((∀ k ∈ ([0x01, 0x02, 0x10, 0x11, 0x20] : List Nat), itemChanged k s t = false) → u.regs = t.regs)

/-- A whole line written, no flip mask being armed, reads back as its 64 bytes, found good, and the read changes
nothing, no older entry of the merge buffer waits for it; its block is valid from then on; every byte outside the line,
and the errors and poison of every other line, stay as they were. A poisoned line of the payload region reads bad, one
of a control region a control error, until it is written whole. (R395; R396; R407; R409; R410; R412; R413;
09_staging_memory.md, Table 09-1) -/
def Obligations.WholeLineReadsBackAndPoisonReadsBad : Prop :=
  (∀ (l : Nat) (bs : List Byte) (s : State), bs.length = 64 → s.stg.flipCtrl.getLsbD 31 = false →
    let t := writeLine l bs s
    readLine l [] t = (bs, .ok, t) ∧ (∀ m ∈ t.stg.merge, m.line ≠ l) ∧
    (∀ k, k / 64 = l / 64 → lineValid k t = true) ∧
    (∀ k, k / 64 ≠ l / 64 → lineValid k t = lineValid k s) ∧
    (∀ a, a / 64 ≠ l → spGet 0 t.stg.mem a = spGet 0 s.stg.mem a) ∧
    (∀ k, k ≠ l → spGet [] t.stg.errs k = spGet [] s.stg.errs k ∧
      spGet 0 t.stg.poison k = spGet 0 s.stg.poison k)) ∧
  (∀ (l : Nat) (s : State),
    (readLine l [] (poisonLine l s)).2.1 = if isControl l s then .control else .bad)

/-- For every 32-bit value x the channel word has 33 bits, at most 6 leading and 6 trailing 0s and no run longer than 13,
and exactly x valid words of 33 bits stand before it; decoding it gives x. A word of 33 bits that is not valid, or
whose rank is 2^32 or more, decodes to an erasure, and any other to its rank. (R529) -/
def Obligations.ChannelWordIsTheValidWordOfItsRank : Prop :=
  (∀ (x : Word), (channelWord x).length = 33 ∧ validWord (channelWord x) = true ∧ wordRank (channelWord x) = x.toNat ∧
    unchannel (channelWord x) = some x) ∧
  (∀ (w : List Bool), w.length = 33 →
    unchannel w = if validWord w = true ∧ wordRank w < 2 ^ 32 then some (BitVec.ofNat 32 (wordRank w)) else none)

/-- For all 1,024 information bytes the codeword has 1,152 bytes, the first 1,024 of which are the information, and for
each of the 4 base rows and each t below 256 the bits 256j + (t + s) mod 256 over the row's block columns j with their
shifts s sum to zero over GF(2). (R532) -/
def Obligations.C1CodewordMeetsEveryCheck : Prop :=
  ∀ (info : List Byte), info.length = 1024 →
    (c1Codeword info).length = 1152 ∧ (c1Codeword info).take 1024 = info ∧
    ∀ i < 4, ∀ t < 256, (c1Row i).foldl (fun acc e =>
      acc ^^ codewordBit (c1Codeword info) (256 * e.1 + (t + e.2) % 256)) false = false

/-- A read of a counter's _LO word by an origin that reaches the registers leaves a state in which the origin's read of
the _HI word shows the bits 47 to 32 that the counter had, whatever it counts later; every other counter's shadow, and
every other origin's, shows what it did. After reset, and after the counter's block is reset, every shadow shows zero.
(R181; R182; R183) -/
def Obligations.CounterShadowHoldsTheHighBits : Prop :=
  (∀ (o : Origin) (off : Nat) (s : State), originUp o s = true → implemented off = true → isCounter off = true →
    off % 8 = 0 →
    ∃ t, exec (.counterLoRead o off) s = .next t ∧
      bar0View o (off + 4) t = BitVec.ofNat 32 ((counterValue off s).toNat / 2 ^ 32) ∧
      (∀ k n, bar0View o (off + 4) (count k n t) = bar0View o (off + 4) t) ∧
      (∀ o' k, isCounter k = true → k % 8 = 0 → (o' ≠ o ∨ k ≠ off) → bar0View o' (k + 4) t = bar0View o' (k + 4) s)) ∧
  (∀ (o : Origin) (off : Nat), isCounter off = true → off % 8 = 0 → bar0View o (off + 4) State.reset = 0) ∧
  (∀ (o : Origin) (lo hi off : Nat) (s : State), isCounter off = true → off % 8 = 0 → lo ≤ off → off < hi →
    bar0View o (off + 4) (dropCounters lo hi s) = 0)

/-- For every command row of the mailbox families: a message of its opcode and form that Fjarma takes, that is no repeat
of the remembered one and that some refusal meets, is answered with the code of the first refusal in the order of R262
and no answer words, and becomes the remembered message. Nothing else changes but the log of its loading (R739) and
what follows from any command. (R242; R246; R248; R250; R262; 06_mailboxes_and_command_protocol.md, Table 06-6) -/
def Obligations.RefusedCommandsChangeOnlyTheirAnswer : Prop :=
  ∀ (i : Instr) (k : Cmd) (c : Chan) (look : Bool) (s : State), commandOf i = some (k, c, look) → Taken k c s →
    refuse k (msgOf c s) (loaded c s) ≠ 0 →
    exec i s = .next (settle s (withStreams look
      (answered c (refuse k (msgOf c s) (loaded c s)) [] s (loaded c s)))) ∧
    (loaded c s).mbx = s.mbx

/-- For every command row: a message that Fjarma takes whose header and parameter words are those of the channel's
remembered message gets the remembered answer and ACK with REPLAY set, ahead of every refusal, and runs nothing; one
that carries the remembered SEQ with any other difference is answered with E_PARAM, and the channel still remembers
the earlier message. Nothing else changes but the round robin's place (R245), the log of its loading (R739) and what
follows from any command. (R249; R250; R262) -/
def Obligations.RepeatedSeqIsReplayedOrRefused : Prop :=
  ∀ (i : Instr) (k : Cmd) (c : Chan) (look : Bool) (s : State) (r : Remembered), commandOf i = some (k, c, look) →
    takes c s = true → (msgOf c s).opcode = k.opcode → k.mine (msgOf c s) = true →
    s.mbx.chan[c].remembered = some r → field r.header 16 8 = (msgOf c s).seq →
    (r.header = (msgOf c s).header → r.params = (msgOf c s).params →
      exec i s = .next (settle s (withStreams look (modChan c (fun x => { x with
        msg := r.answer, ack := r.ack ||| 0x00800000, full := false, working := false, taken := x.taken || !x.working,
        done := true }) { loaded c s with mbx := { s.mbx with turn := c.val } })))) ∧
    ((r.header ≠ (msgOf c s).header ∨ r.params ≠ (msgOf c s).params) →
      exec i s = .next (settle s (withStreams look (answer (msgOf c s) rParam 0 false [] (loaded c s)))))

/-- An accepted command is one that Fjarma takes from its channel, that repeats no remembered message, and to which no
refusal of R262 applies. SYS.INFO answers the page that P1 names; SYS.FAULTS STATUS answers the halted sources, the
waiting faults, the entries held, the first held index and the next; READ answers up to three entries from the index
in P2; SYS.CONFIG GET answers value, default, minimum and maximum; none changes anything but the channel. SYS.AUDIT
numbers the snapshot one above the last, stores its bytes, and answers number, stamp and epoch; snapshot fields that
the model leaves free (log 78) are free values. Nothing else changes but what follows from any command.
(06_mailboxes_and_command_protocol.md, Tables 06-9, 06-11 to 06-14; R283; R286; R288) -/
def Obligations.SysQueriesAnswer : Prop :=
  Answers sysInfo Instr.sysInfo (fun m s => infoPage (m.p 1).toNat s) (fun _ s => s) ∧
  Answers sysAudit Instr.sysAudit
    (fun _ s => [w32 (s.mbx.audits + 1), w32 s.tether.stamp.toNat,
      pack [(0, s.tether.stamp.toNat / 2 ^ 32), (16, s.tether.epoch.toNat)]])
    (fun _ s => { (snapshotBytes (s.mbx.audits + 1) s).2 with
      mbx.audits := s.mbx.audits + 1, mbx.snapshot := (snapshotBytes (s.mbx.audits + 1) s).1 }) ∧
  Answers sysFaultsStatus Instr.sysFaultsStatus
    (fun _ s => [w32 s.faults.halted.toNat, w32 (min 255 (s.faults.queue.length + s.faults.suspended.length)),
      w32 s.faults.log.length, w32 ((s.faults.log.head?.map (fun e => e.index)).getD s.faults.nextLog).toNat,
      w32 s.faults.nextLog.toNat]) (fun _ s => s) ∧
  Answers sysFaultsRead Instr.sysFaultsRead (fun m s => readLog (BitVec.ofNat 24 (m.p 2).toNat) s) (fun _ s => s) ∧
  (∀ (c : Chan) (s : State) (v d lo hi : Nat), Accepted sysConfigGet c s →
    configRow ((msgOf c s).p 2).toNat (loaded c s) = some (v, d, lo, hi) →
    exec (.sysConfigGet c) s = .next (settle s (answered c rOk
      [BitVec.ofNat 32 v, BitVec.ofNat 32 d, BitVec.ofNat 32 lo, BitVec.ofNat 32 hi] s (loaded c s))))

/-- An accepted command is one that Fjarma takes from its channel, that repeats no remembered message, and to which no
refusal of R262 applies. SYS.POWER AUTO_VRF_ON and AUTO_VRF_OFF set and clear automatic gating; STANDBY is
acknowledged; SYS.RESET promises the reset that follows a millisecond later; SYS.FAULTS RELEASE drops the entries
before the index in P2 and answers how many remain; SYS.CONFIG SET puts the value of P3 into the parameter that P2
names and answers it. Nothing else changes but what follows from any command. (06_mailboxes_and_command_protocol.md,
Tables 06-10, 06-11, 06-13; R280; R282; R286; R288) -/
def Obligations.SysSettingsComplete : Prop :=
  Answers (sysAutoVrf true) Instr.sysPowerAutoVrfOn (fun _ _ => []) (fun _ s => { s with power.autoVrf := true }) ∧
  Answers (sysAutoVrf false) Instr.sysPowerAutoVrfOff (fun _ _ => []) (fun _ s => { s with power.autoVrf := false }) ∧
  Answers sysStandby Instr.sysPowerStandby (fun _ _ => []) (fun _ s => { s with power.standbyAcked := true }) ∧
  Answers sysReset Instr.sysReset (fun _ _ => []) (fun _ s => { s with mbx.resetDue := true }) ∧
  Answers sysFaultsRelease Instr.sysFaultsRelease
    (fun m s => [w32 (s.faults.log.filter (fun e => !precedes e.index (BitVec.ofNat 24 (m.p 2).toNat))).length])
    (fun m s => { s with faults.log :=
      s.faults.log.filter (fun e => !precedes e.index (BitVec.ofNat 24 (m.p 2).toNat)) }) ∧
  Answers sysConfigSet Instr.sysConfigSet (fun m _ => [m.p 3]) (fun m s => setConfig (m.p 2).toNat (m.p 3).toNat s)

/-- A message that Fjarma takes, that repeats no remembered one and whose opcode is not in the index earns E_OPCODE; in
the safe state it earns E_FAULT. It changes nothing but its channel, and what follows from any command.
(06_mailboxes_and_command_protocol.md, Table 06-6; R262; 21_register_index.md) -/
def Obligations.UnknownOpcodeAnswersOpcodeError : Prop :=
  ∀ (c : Chan) (s : State), takes c s = true → replayed (msgOf c s) (loaded c s) = none →
    knownOpcodes.contains (msgOf c s).opcode = false →
    exec (.unknownOpcode c) s =
      .next (settle s (answered c (if s.faults.safe then rFault else rOpcode) [] s (loaded c s)))

/-- An accepted command is one that Fjarma takes from its channel, that repeats no remembered message, and to which no
refusal of R262 applies. It answers ACCEPTED with the lowest free ticket of the channel's pool. DOMAIN_ON and
DOMAIN_OFF put their switch at the end of the queue of switches; RECOVER leaves its ticket holding the recovery of the
source in P2. Nothing else changes but what follows from any command. (06_mailboxes_and_command_protocol.md, Tables
06-10, 06-11; R118; R252; R280; R287) -/
def Obligations.SysLongCommandsBegin : Prop :=
  Begins sysDomainOn Instr.sysPowerDomainOn (fun m => .domain (m.p 2).toNat true)
    (fun m t s => { s with power.queue := s.power.queue ++ [{ dom := (m.p 2).toNat, on := true, ticket := some t }] }) ∧
  Begins sysDomainOff Instr.sysPowerDomainOff (fun m => .domain (m.p 2).toNat false)
    (fun m t s => { s with power.queue := s.power.queue ++ [{ dom := (m.p 2).toNat, on := false, ticket := some t }] }) ∧
  Begins sysFaultsRecover Instr.sysFaultsRecover (fun m => .recover (m.p 2).toNat) (fun _ _ s => s)

/-- An accepted command is one that Fjarma takes from its channel, that repeats no remembered message, and to which no
refusal of R262 applies. XPORT.INFO, GOV.INFO and STREAM.INFO answer the words that the spec gives for the transport
or stream in P1; GOV.PARAM GET answers value in force, default, minimum and maximum of Table 15-7. Nothing else
changes but what follows from any command. (R588; R640; R670; R671; 15_speed_matching.md, Table 15-7) -/
def Obligations.XportGovStreamQueriesAnswer : Prop :=
  Answers xportInfo Instr.xportInfo (fun m s => xportWords (trnOf m) s) (fun _ s => s) ∧
  Answers govInfo Instr.govInfo (fun m s => govWords (trnOf m) s) (fun _ s => s) ∧
  Answers streamInfo Instr.streamInfo (fun m s => streamWords (strmOf m) s) (fun _ s => s) ∧
  (∀ (c : Chan) (s : State) (d lo hi : Nat), Accepted govParamGet c s →
    govRange ((msgOf c s).f 1 8 8) = some (d, lo, hi) →
    exec (.govParamGet c) s = .next (settle s (answered c rOk
      [BitVec.ofNat 32 (getN s.gov.param ((msgOf c s).f 1 8 8 - 1) 0), BitVec.ofNat 32 d, BitVec.ofNat 32 lo,
       BitVec.ofNat 32 hi] s (loaded c s))))

/-- Accepted, XPORT.CLEAR answers OK with no words; DEGRADED of the transport in P1 is clear afterwards, and the transport
doorbell rings where DEGRADED was set. Where the port is not UP and no earlier refusal of R262 applies, it answers
E_STATE and changes nothing. Streams without a transport are looked at after either. (R592) -/
def Obligations.XportClearClearsDegraded : Prop :=
  (∀ (c : Chan) (s : State), Accepted xportClear c s →
    let l := loaded c s
    exec (.xportClear c) s = .next (settle s (checkStreams (answered c rOk [] s
      (if l.trn[trnOf (msgOf c s)].degraded then
        ring 14 (modTrn (trnOf (msgOf c s)) (fun p => { p with degraded := false }) l) else l)))) ∧
    (if l.trn[trnOf (msgOf c s)].degraded then
        ring 14 (modTrn (trnOf (msgOf c s)) (fun p => { p with degraded := false }) l)
      else l).trn[trnOf (msgOf c s)].degraded = false) ∧
  (∀ (c : Chan) (s : State), Taken xportClear c s → s.trn[trnOf (msgOf c s)].port ≠ .up →
    s.faults.safe = false → channelBars (msgOf c s) (loaded c s) = false → (msgOf c s).len = 1 →
    reservedSet [7] (msgOf c s) = false →
    exec (.xportClear c) s = .next (settle s (checkStreams (answered c rState [] s (loaded c s)))))

/-- An accepted command is one that Fjarma takes from its channel, that repeats no remembered message, and to which no
refusal of R262 applies. XPORT.PARAM puts P2 into the parameter of P1 for its transport and answers P2. GOV.PARAM SET
leaves the value in force as it is, stores P2 for the next evaluation (R666) and answers P2. GOV.HOLD gives every
group that holds a transport of P1, as a whole, its mode (0 AUTO, 1 FIXED, 2 STOP) and the code of P2 [7:0]. Nothing
else changes but what follows from any command. (R593; R666; R671; R672) -/
def Obligations.ParameterSetsComplete : Prop :=
  Answers xportParam Instr.xportParam (fun m _ => [m.p 2]) (fun m s => modTrn (trnOf m) (fun p => match m.f 1 8 8 with
    | 1 => { p with accel := (m.p 2).toNat }
    | 2 => { p with loadTimeout := (m.p 2).toNat }
    | _ => { p with offtrack := (m.p 2).toNat }) s) ∧
  Answers govParamSet Instr.govParamSet (fun m _ => [m.p 2])
    (fun m s => { s with gov.next := updN s.gov.next (m.f 1 8 8 - 1) (fun _ => (m.p 2).toNat) }) ∧
  Answers (govHold 0) Instr.govHoldAuto (fun _ _ => [])
    (fun m s => holdGroups (BitVec.ofNat 8 (m.f 1 0 8)) 0 (m.f 2 0 8) s) ∧
  Answers (govHold 1) Instr.govHoldFixed (fun _ _ => [])
    (fun m s => holdGroups (BitVec.ofNat 8 (m.f 1 0 8)) 1 (m.f 2 0 8) s) ∧
  Answers (govHold 2) Instr.govHoldStop (fun _ _ => [])
    (fun m s => holdGroups (BitVec.ofNat 8 (m.f 1 0 8)) 2 (m.f 2 0 8) s)

/-- An accepted command is one that Fjarma takes from its channel, that repeats no remembered message, and to which no
refusal of R262 applies. LINK START drives SYSREF and markers and sends LINK_START; LINK STOP ends a start in flight
with E_MEDIA, idles the downlinks, leaves the port IDLE, rings the transport doorbell and completes OK; LOAD for
writing or reading sends LOAD and waits for the tape to be threaded; UNLOAD sends UNLOAD where no writing session is
there to end, else ends the session first. Nothing else changes but what follows from any command. (R589; R590; R591;
R606; 13_transports_and_head_links.md, Tables 13-5, 13-10) -/
def Obligations.XportLongCommandsBegin : Prop :=
  Begins xportLinkStart Instr.xportLinkStart (fun m => .linkStart (trnOf m)) (fun m t s =>
    sendCtl (trnOf m) 0x01 ((trnOf m).val + 0x100) [] (modTrn (trnOf m) (fun p => { p with
      port := .starting, linkTicket := some t, sysref := true, downlink := true, hello := false, identified := false,
      restored := false, holdup := false, spareInUse := false, spareRole := 0, lostRoles := 0, credit0 := 0, credit1 := 0,
      nextSeq := 0, servoBad := 0, servoGood := 0 }) s)) ∧
  (∀ (c : Chan) (s : State) (t : Nat), Accepted xportLinkStop c s → freeTicket c (loaded c s) = some t →
    exec (.xportLinkStop c) s = .next (settle s (checkStreams (ring 14 (completeTicket t rOk []
      (modTrn (trnOf (msgOf c s)) (fun p => { p with port := .idle, linkTicket := none, restored := false })
        (idleDownlinks (trnOf (msgOf c s)) (completeWhere (fun w => w = .linkStart (trnOf (msgOf c s))) rMedia []
          (begun c (.linkStop (trnOf (msgOf c s))) t s))))))))) ∧
  Begins (xportLoad true) Instr.xportLoadWrite (fun m => .load (trnOf m) true) (fun m t s =>
    sendCtl (trnOf m) 0x30 0 [] (modTrn (trnOf m) (fun p => { p with
      loading := some { ticket := t, forWrite := true, phase := .threading, scan := beginScan t .load } }) s)) ∧
  Begins (xportLoad false) Instr.xportLoadRead (fun m => .load (trnOf m) false) (fun m t s =>
    sendCtl (trnOf m) 0x30 0 [] (modTrn (trnOf m) (fun p => { p with
      loading := some { ticket := t, forWrite := false, phase := .threading, scan := beginScan t .load } }) s)) ∧
  Begins xportUnload Instr.xportUnload (fun m => .unload (trnOf m)) (fun m t s =>
    match s.fmt.trn[trnOf m].session with
    | none => sendCtl (trnOf m) 0x31 0 [] (modTrn (trnOf m) (fun p => { p with unloading := some (t, true) }) s)
    | some _ => modTrn (trnOf m) (fun p => { p with unloading := some (t, false) }) (modFmt (trnOf m) (fun f => { f with
        closing := f.cur.isSome, session := f.session.map (fun x => { x with ending := true }) }) s))

/-- An accepted command is one that Fjarma takes from its channel, that repeats no remembered message, and to which no
refusal of R262 applies. STREAM.OPEN binds the stream and draws its cipher context; ATTACH binds the rings, and
answers the CQ's offset and the held completions posted; SET gives the new set, its open data set closing short where
it lies outside. PROFILE.SET and LOAD_TABLE store what P2 and the following words hold. KEY.LOAD puts the unwrapped
key into the slot and answers key ID, clash and check value; a blob that does not unwrap answers E_AUTH, leaves the
slot INVALID, counts and latches its leaf. Both ring the key doorbell. Nothing else changes but what follows from any
command. (R461; R467; R469; R487; R516; R635; R636; R639) -/
def Obligations.StreamProfileKeyCommandsComplete : Prop :=
  (∀ (c : Chan) (s : State), Accepted streamOpen c s →
    exec (.streamOpen c) s = .next (settle s (checkStreams (answered c rOk [] s
      (openStream (msgOf c s) (loaded c s)))))) ∧
  Answers streamAttach Instr.streamAttach
    (fun m s => [BitVec.ofNat 32 (if (ringsIn m).cqStg then cqOffset (strmOf m) else 0),
      BitVec.ofNat 32 (attach (strmOf m) (ringsIn m) s).1])
    (fun m s => (attach (strmOf m) (ringsIn m) s).2) ∧
  (∀ (c : Chan) (s : State), Accepted streamSet c s →
    let l := loaded c s
    exec (.streamSet c) s = .next (settle s (checkStreams (answered c rOk [] s
      (modStream (strmOf (msgOf c s)) (fun x => { x with
          set := BitVec.ofNat 8 ((msgOf c s).f 2 0 8), turn := lowestMember ((msgOf c s).f 2 0 8) })
        (if openOutside (strmOf (msgOf c s)) ((msgOf c s).f 2 0 8) l then closeOpenDs (strmOf (msgOf c s)) l else l)))))) ∧
  Answers profileSet Instr.profileSet (fun _ _ => []) (fun m s => { s with
    cmp.profile := updN s.cmp.profile (m.f 1 0 5) (fun _ => some { p2 := m.p 2, p3 := m.p 3, p4 := m.p 4, p5 := m.p 5 }) }) ∧
  Answers profileLoadTable Instr.profileLoadTable (fun _ _ => []) (fun m s => { s with
    cmp.table := updN s.cmp.table (m.f 1 0 4) (fun _ => some (tableWord m)),
    cmp.loaded := if cmpOn s then setBit s.cmp.loaded (m.f 1 0 4) else s.cmp.loaded }) ∧
  (∀ (c : Chan) (s : State) (kek : BitVec 256), Accepted keyLoad c s →
    kekOf ((msgOf c s).f 1 8 3) (loaded c s) = some kek →
    let l := loaded c s
    let x := loadedSlot kek ((msgOf c s).f 1 8 3) (paramBytes (msgOf c s) 2 48)
    let s' := ring 15 { l with cip.slot := updN l.cip.slot ((msgOf c s).f 1 0 4) (fun _ => x) }
    exec (.keyLoad c) s = .next (settle s (if x.state = .valid then
        answered c rOk [x.keyId, pack [(0, b2n (!(slotsOf x.keyId.toNat l).isEmpty))], wordAt (keyCheck x.key) 0,
          wordAt (keyCheck x.key) 4] s s'
      else answered c rAuth [] s (setLeaf 9 0 (count 0x8620 1 s')))))

/-- An accepted command is one that Fjarma takes from its channel, that repeats no remembered message, and to which no
refusal of R262 applies. FLUSH closes the stream's open data set short and waits for the last record accepted; CLOSE
leaves the stream CLOSING with its open data set closing short; KEY.CLEAR takes its slots to CLEARING; KEK_SET,
LIFE.SET and LIFE.ADVANCE put their fuse change at the end of the queue of fuse changes. Nothing else changes but what
follows from any command. (R502; R505; R517; R519; R522; R523; R606; R637; R638) -/
def Obligations.StreamKeyLifeLongCommandsBegin : Prop :=
  Begins streamFlush Instr.streamFlush (fun m => .flush (strmOf m)) (fun m t s => closeOpenDs (strmOf m)
    (modStream (strmOf m) (fun x => { x with flushes := x.flushes ++ [(t, x.last)] }) s)) ∧
  Begins streamClose Instr.streamClose (fun m => .close (strmOf m)) (fun m t s => resumeStream (strmOf m)
    (closeOpenDs (strmOf m) (modStream (strmOf m) (fun x => { x with state := .closing, closeTicket := some t }) s))) ∧
  Begins keyClear Instr.keyClear (fun m => .keyClear (BitVec.ofNat 16 (m.f 1 0 16)) 0) clearSlots ∧
  Begins keyKekSet Instr.keyKekSet (fun _ => .nvRow) (fun m t s => nvKick { s with nv.queue := s.nv.queue ++
    [{ item := 4 + m.f 1 0 3, value := BitVec.ofNat 384 (beNat ((newKek m s).getD [])), ticket := some t, tries := 0 }] }) ∧
  Begins lifeSet Instr.lifeSet (fun _ => .nvRow) (fun m t s => nvKick { s with nv.queue := s.nv.queue ++
    [{ item := (m.p 1).toNat, value := BitVec.ofNat 384 (lifeValue m), ticket := some t, tries := 0 }] }) ∧
  Begins lifeAdvance Instr.lifeAdvance (fun _ => .nvRow) (fun m t s => nvKick { s with nv.queue := s.nv.queue ++
    [{ item := 0, value := BitVec.ofNat 384 (m.p 1).toNat, ticket := some t, tries := 0 }] })

/-- An accepted command is one that Fjarma takes from its channel, that repeats no remembered message, and to which no
refusal of R262 applies. Each answers the words that its rule or table gives and changes nothing but the channel;
DMA.INFO's fill figures are 0 where nothing moves and free values where something does (log 108). Nothing else changes
but what follows from any command. (R338; R340; R386; R391; R392; R468; R470; 07_pcie_and_dma.md, Table 07-10) -/
def Obligations.NetDmaProfileQueriesAnswer : Prop :=
  Answers netInfo Instr.netInfo (fun m s => netWords (portOf m) s) (fun _ s => s) ∧
  (∀ (c : Chan) (s : State) (q : Qp), Accepted netQpQuery c s →
    getQp (portOf (msgOf c s)) (qpIndex (msgOf c s)) (loaded c s) = some q →
    exec (.netQpQuery c) s = .next (settle s (answered c rOk (queryWords q) s (loaded c s)))) ∧
  Answers netNeighRead Instr.netNeighRead (fun m s => neighWords (s.net.port[portOf m].neigh[(m.p 2).toNat]?))
    (fun _ s => s) ∧
  (∀ (c : Chan) (s : State), Accepted dmaInfo c s → let l := loaded c s; ∃ (n rd wr k : Nat),
    exec (.dmaInfo c) s = .next (settle s (answered c rOk [pcieLink l, w32 n, w32 rd, w32 wr,
      pack [(4, l.dma.shareWr.toNat), (0, l.dma.shareRd.toNat)]] s { l with free := l.free + k })) ∧
    (readsUnderWay l = false → n = 0 ∧ rd = 0) ∧ (writesUnderWay l = false → wr = 0) ∧
    n ≤ 512 ∧ (l.pcie.tag10 = false → n ≤ 256) ∧ rd ≤ 1536 * 1024 ∧ wr ≤ 512 * 1024) ∧
  Answers dmaRings Instr.dmaRings (fun m s => ringsWords (Fin.ofNat 64 (m.p 1).toNat) s) (fun _ s => s) ∧
  Answers profileGet Instr.profileGet (fun m s =>
    (match getN s.cmp.profile (m.f 1 0 5) none with
      | some p => [p.p2, p.p3, p.p4, p.p5]
      | none => [0, 0, 0, 0]) ++
    [pack [(0, b2n (getN s.cmp.profile (m.f 1 0 5) none).isSome), (8, boundTo (m.f 1 0 5) s)]]) (fun _ s => s) ∧
  Answers profileReadTable Instr.profileReadTable (fun m s =>
    pack [(0, b2n (tableNamed (m.f 1 0 5) s).isSome)] :: (List.range 8).map (fun i =>
      BitVec.ofNat 32 (((tableNamed (m.f 1 0 5) s).getD 0).toNat / 2 ^ (32 * i)))) (fun _ s => s)

/-- An accepted command is one that Fjarma takes from its channel, that repeats no remembered message, and to which no
refusal of R262 applies. NET.ADDR sets the address or gateway that P2 names, a new IPv6 address awaiting its detection
of duplicates; QP_CREATE makes the queue pair with its partition and first buffers and answers its number, rkey,
extents, credits and source port; NEIGH FLUSH drops the entries that no queue pair uses; DMA.SHARE sets both shares
and answers them. Nothing else changes but what follows from any command. (R339; R388; R389; R392) -/
def Obligations.NetDmaSettingsComplete : Prop :=
  Answers netAddr Instr.netAddr (fun _ _ => []) (fun m s => modPort (portOf m) (fun e => match (m.p 2).toNat with
    | 1 => { e with ip4 := some (m.p 3, m.f 4 0 6) }
    | 2 => { e with ip6 := some (addr128 m 3, m.f 7 0 8), dad := clrBit e.dad 1 }
    | 3 => { e with gw4 := some (m.p 3) }
    | _ => { e with gw6 := some (addr128 m 3) }) s) ∧
  Answers netQpCreate Instr.netQpCreate (fun m s => (createQp m s).1) (fun m s => (createQp m s).2) ∧
  Answers netNeighFlush Instr.netNeighFlush (fun _ _ => []) (fun m s => modPort (portOf m) (fun e => { e with
    neigh := e.neigh.filter (fun x => !(qpsVia (portOf m) x.ip s).isEmpty) }) s) ∧
  Answers dmaShare Instr.dmaShare (fun m _ => [m.p 1, m.p 2]) (fun m s => { s with
    dma.shareRd := (m.p 1).truncate 4, dma.shareWr := (m.p 2).truncate 4 })

/-- An accepted command is one that Fjarma takes from its channel, that repeats no remembered message, and to which no
refusal of R262 applies. NET.PORT ENABLE puts its settings into the port and waits for the PCS; DISABLE idles the
port, ends an enabling in flight with E_MEDIA and completes; QP_DESTROY drains the queue pair; RESTORE.RECORD resolves
its pieces and sends its transports toward them; INDEX and REBUILD begin on the transport of P1, or wait behind the
one that runs there. Nothing else changes but what follows from any command. (R376; R387; R390; R684; R700; R710;
R711; R712) -/
def Obligations.NetRestoreLongCommandsBegin : Prop :=
  Begins netPortEnable Instr.netPortEnable (fun m => .portEnable (portOf m)) (fun m _ s => modPort (portOf m) (fun e => { e with
    enabled := true, pfcEn := (m.p 3).truncate 8, xoff := m.f 4 0 12, xon := m.f 5 0 12, linkHold := m.f 6 0 10,
    vlan := m.p 7 }) s) ∧
  Begins netPortDisable Instr.netPortDisable (fun m => .portDisable (portOf m)) (fun m t s => completeTicket t rOk []
    (modPort (portOf m) (fun e => { e with
      enabled := false, link := false, aligned := false, dad := 0, pausedTx := 0, pausedRx := 0, longTx := false,
      longRx := false, holdRuns := false, txq := [], rx := [] })
      (completeWhere (fun w => w = .portEnable (portOf m)) rMedia [] s))) ∧
  Begins netQpDestroy Instr.netQpDestroy (fun m => .qpDestroy (portOf m) (qpIndex m))
    (fun m t s => startDestroy (portOf m) (qpIndex m) t s) ∧
  Begins restoreRecord Instr.restoreRecord (fun m => .record (recTrn m)) startRecord ∧
  Begins restoreIndex Instr.restoreIndex (fun m => .index (Fin.ofNat 8 (m.f 1 0 3))) (queueScan .index) ∧
  Begins restoreRebuild Instr.restoreRebuild (fun m => .rebuild (Fin.ofNat 8 (m.f 1 0 3)) (m.f 1 8 1 == 1))
    (fun m t s => queueScan (.rebuild (m.f 1 8 1 == 1)) m t s)

/-- An accepted command is one that Fjarma takes from its channel, that repeats no remembered message, and to which no
refusal of R262 applies. KEY.INFO and KEY.CONTEXT, LIFE.INFO, DIAG.INFO, TETHER.INFO and TETHER.PARAM GET,
RESTORE.INFO, FIND and PARAM GET each answer the words that the rule gives. RESTORE.FIND reads the index, and ends
with E_FAULT where a line of it is bad. Nothing else changes but what follows from any command. (R518; R520; R521;
R713; R714; R715; R764; R767; R795) -/
def Obligations.KeyLifeDiagTetherRestoreQueriesAnswer : Prop :=
  Answers keyInfo Instr.keyInfo (fun _ s =>
    [slotMap (fun _ x => x.state == .valid) s, slotMap (fun _ x => x.state == .invalid) s,
     slotMap (fun _ x => x.state == .clearing) s,
     slotMap (fun _ x => x.state == .valid && decide ((slotsOf x.keyId.toNat s).length ≥ 2)) s]) (fun _ s => s) ∧
  Answers keyContext Instr.keyContext (fun m s => match getN s.cip.ctx (m.f 1 0 6) none with
    | none => List.replicate 7 0
    | some c => [1, c.keyId, BitVec.ofNat 32 c.session.toNat, BitVec.ofNat 32 c.count.toNat,
        BitVec.ofNat 32 (c.count.toNat / 2 ^ 32), c.blocks, c.reseeds]) (fun _ s => s) ∧
  Answers lifeInfo Instr.lifeInfo (fun _ s =>
    [pack [(0, lifeCode s), (8, (ofBits 4 (fun k => fuseFaulty k s)).toNat)],
     pack ((List.range 4).map (fun k => (8 * k, rowsSpent k s))), BitVec.ofNat 32 (minSecver s),
     BitVec.ofNat 32 (macBase s), BitVec.ofNat 32 (macBase s / 2 ^ 32)]) (fun _ s => s) ∧
  Answers diagInfo Instr.diagInfo (fun _ s => [dbgStat s, diagArmed s, diagLoop s]) (fun _ s => s) ∧
  Answers tetherInfo Instr.tetherInfo (fun _ s =>
    [pack [(0, b2n s.tether.frozen), (1, b2n (followRuns s)), (2, anchorBits s), (4, b2n s.aon.freeze.valid)],
     pack [(0, s.aon.freeze.reason.toNat), (8, s.aon.freeze.resetCode.toNat), (16, s.aon.freeze.boot.toNat)],
     w32 s.aon.freeze.units.length, w32 (s.mbx.config.tetherRingMib - 8), w32 (counter 0x8D08 s).toNat]) (fun _ s => s) ∧
  Answers tetherParamGet Instr.tetherParamGet (fun _ s =>
    [BitVec.ofNat 32 s.tether.anchorMs, 1000, 100, 60000]) (fun _ s => s) ∧
  Answers restoreInfo Instr.restoreInfo (fun m s => restoreWords (Fin.ofNat 8 (m.f 1 0 3)) s) (fun _ s => s) ∧
  (∀ (c : Chan) (s : State), Accepted restoreFind c s →
    let x := readIndexes (recMask (msgOf c s)) (recStream (msgOf c s)) (recNumber (msgOf c s)) (loaded c s)
    exec (.restoreFind c) s = .next (settle s (if x.1 = .ok then
        answered c rOk (findWords (msgOf c s) (piecesFor (recMask (msgOf c s)) (recStream (msgOf c s))
          (recNumber (msgOf c s)) (recSession (msgOf c s)) x.2) x.2) s x.2
      else answered c rFault [] s x.2))) ∧
  (∀ (c : Chan) (s : State) (d lo hi : Nat), Accepted restoreParamGet c s →
    restoreRange ((msgOf c s).f 1 8 8) = some (d, lo, hi) →
    exec (.restoreParamGet c) s = .next (settle s (answered c rOk
      [BitVec.ofNat 32 (getN s.rst.param ((msgOf c s).f 1 8 8 - 1) 0), BitVec.ofNat 32 d, BitVec.ofNat 32 lo,
       BitVec.ofNat 32 hi] s (loaded c s))))

/-- An accepted command is one that Fjarma takes from its channel, that repeats no remembered message, and to which no
refusal of R262 applies. DIAG.INJECT arms its code in place of an earlier arming, or with code 0 disarms every one,
and answers what is armed; TETHER.FREEZE freezes the ring unless it is frozen; THAW lets a frozen ring go on with a
break and an anchor; TETHER.PARAM SET and RESTORE.PARAM SET store P2 and answer it. Nothing else changes but what
follows from any command. (R671; R715; R749; R758; R766; R767; R785; R797) -/
def Obligations.DiagTetherSettingsComplete : Prop :=
  Answers diagInjectCmd Instr.diagInject (fun m s => [diagArmed (armInjector m s)]) (fun m s => armInjector m s) ∧
  Answers diagDisarmCmd Instr.diagInjectDisarm (fun _ s => [diagArmed { s with dbg.armed := [] }])
    (fun _ s => { s with dbg.armed := [] }) ∧
  Answers tetherFreeze Instr.tetherFreeze (fun _ _ => []) (fun _ s => if s.tether.frozen then s else freeze 0x12 0xFF s) ∧
  Answers tetherThaw Instr.tetherThaw (fun _ _ => []) (fun _ s =>
    if s.tether.frozen then startAnchor (replayBreak 4 { s with tether.frozen := false }) else s) ∧
  Answers tetherParamSet Instr.tetherParamSet (fun m _ => [m.p 2]) (fun m s => { s with tether.anchorMs := (m.p 2).toNat }) ∧
  Answers restoreParamSet Instr.restoreParamSet (fun m _ => [m.p 2])
    (fun m s => { s with rst.param := updN s.rst.param (m.f 1 8 8 - 1) (fun _ => (m.p 2).toNat) })

/-- Accepted with P1 [16:0] the first extent of a lent run of k extents, RESTORE.RELEASE takes the run from the lent ones,
returns its extents to free, and answers k. An extent that begins no lent run earns E_PARAM; one whose run a request
still writes earns E_STATE; neither changes anything but the channel. Nothing else changes but what follows from any
command. (R705; R716) -/
def Obligations.RestoreReleaseReturnsALentRun : Prop :=
  (∀ (c : Chan) (s : State) (e k : Nat) (w : Option Nat), Accepted restoreRelease c s →
    s.rst.lent.find? (fun l => decide (l.1 = (msgOf c s).f 1 0 17)) = some (e, k, w) →
    exec (.restoreRelease c) s = .next (settle s (answered c rOk [BitVec.ofNat 32 k] s
      (freeExtents ((List.range k).map (fun i => e + i))
        { loaded c s with rst.lent := s.rst.lent.filter (fun l => decide (l.1 ≠ e)) })))) ∧
  (∀ (c : Chan) (s : State), Taken restoreRelease c s → channelBars (msgOf c s) (loaded c s) = false →
    (msgOf c s).len = 1 → s.rst.lent.find? (fun l => decide (l.1 = (msgOf c s).f 1 0 17)) = none →
    exec (.restoreRelease c) s = .next (settle s (answered c rParam [] s (loaded c s)))) ∧
  (∀ (c : Chan) (s : State) (e k t : Nat), Taken restoreRelease c s → channelBars (msgOf c s) (loaded c s) = false →
    (msgOf c s).len = 1 → reservedSet [0x1FFFF] (msgOf c s) = false →
    s.rst.lent.find? (fun l => decide (l.1 = (msgOf c s).f 1 0 17)) = some (e, k, some t) →
    exec (.restoreRelease c) s = .next (settle s (answered c rState [] s (loaded c s))))

/-- An accepted command is one that Fjarma takes from its channel, that repeats no remembered message, and to which no
refusal of R262 applies. DIAG.LOOP starts or ends the loopback of its port; DIAG.KAT leaves its ticket holding the
test of its engine or unit; TETHER.EXPORT of RING, FREEZE_BUF or FOLLOW begins its export, to staging with extents
lent. Nothing else changes but what follows from any command. (R751; R752; R765; R784; R796; R798) -/
def Obligations.DiagTetherLongCommandsBegin : Prop :=
  Begins (diagLoopCmd true) Instr.diagLoopOn (fun m => .loopOn (loopTarget m)) startLoop ∧
  Begins (diagLoopCmd false) Instr.diagLoopOff (fun m => .loopOff (loopTarget m)) endLoop ∧
  Begins diagKatCmd Instr.diagKat (fun m => .kat (katUnit m)) (fun _ _ s => s) ∧
  Begins (tetherExport 0) Instr.tetherExportRing (fun _ => .tetherExport) startExport ∧
  Begins (tetherExport 1) Instr.tetherExportFreezeBuf (fun _ => .tetherExport) startExport ∧
  Begins (tetherExport 2) Instr.tetherExportFollow (fun _ => .tetherExport) startExport

/-- The strapped address is acknowledged and opens a transaction, any other is not. In an open transaction SET_ADDR moves
the window to a mapped aligned address and starts its prefetch, and is NACKed while BUSY or at another address; WRITE
hands over whole words in order, a word to an unrefused BAR0 register being written there and the window moved on by 4
under AUTOINC, and what the window still waited for is given up; SET_CTRL sets AUTOINC; READ_STAT and READ_DATA send
their bytes; a command not in Table 04-5 is NACKed and counted. A stop discards a partial word and closes the
transaction. While boundary scan holds the pads, an address or a stop is not seen. Nothing else changes but what
follows from any command. (R70; R87; R171; R175; R176; R177; R178; R179; R180; R772; 04_register_access.md, Table 04-5) -/
def Obligations.I2cTargetCommandsComplete : Prop :=
  (∀ (a : BitVec 7) (s : State), padctl s = false → exec (.i2cAddress a) s = .next (settle s
    (emit (.i2cAck (s.i2c.enabled && a == BitVec.ofNat 7 (0x58 + field s.aon.straps 2 2))) { s with
      i2c.addressed := s.i2c.enabled && a == BitVec.ofNat 7 (0x58 + field s.aon.straps 2 2), i2c.partialBytes := [] }))) ∧
  (∀ (a : List Byte) (s : State), i2cOpen s = true → 4 ≤ a.length →
    exec (.setAddr a) s = .next (settle s
      (if s.regs.winI2c.busy = false ∧ (wordAt a 0).toNat % 4 = 0 ∧
          (((wordAt a 0).toNat < 0x10000 ∧ implemented (wordAt a 0).toNat = true) ∨
           (0x10000000 ≤ (wordAt a 0).toNat ∧ farMapped (wordAt a 0).toNat = true))
        then writeAddr .i2c (wordAt a 0) { s with i2c.partialBytes := [] }
        else nack { s with i2c.partialBytes := [] }))) ∧
  (∀ (bs : List Byte) (s : State), i2cOpen s = true → exec (.write bs) s = .next (settle s (i2cWrite bs s))) ∧
  (∀ (x y z w : Byte) (s : State), i2cOpen s = true → s.regs.winI2c.busy = false →
    s.regs.winI2c.addr.toNat < 0x10000 → implemented s.regs.winI2c.addr.toNat = true →
    writeRefused .i2c s.regs.winI2c.addr.toNat s = none →
    exec (.write [x, y, z, w]) s = .next (settle s { modWin .i2c (fun k => { k with
        addr := if k.autoinc then k.addr + 4 else k.addr, ready := false, err := 0, far := .idle })
      (bar0Write .i2c s.regs.winI2c.addr.toNat (wordAt [x, y, z, w] 0) (abandonFar .i2c s)) with
        i2c.partialBytes := [] })) ∧
  (∀ (c : Byte) (s : State), i2cOpen s = true → s.regs.winI2c.busy = false →
    exec (.setCtrl c) s = .next (settle s (modWin .i2c (fun k => { k with autoinc := c.getLsbD 0 }) s))) ∧
  (∀ (s : State), i2cOpen s = true → exec .readStat s = .next (settle s (emit (.i2cRead
    [BitVec.ofNat 8 (b2n s.regs.winI2c.ready + 2 * b2n s.regs.winI2c.busy + 16 * s.regs.winI2c.err.toNat)]) s))) ∧
  (∀ (n : Nat) (s : State), i2cOpen s = true →
    exec (.readData n) s = .next (settle s (emit (.i2cRead (i2cReadBytes n 0 s).1) (i2cReadBytes n 0 s).2))) ∧
  (∀ (c : Byte) (s : State), i2cOpen s = true → c ∉ ([0x10, 0x11, 0x12, 0x20, 0x21] : List Byte) →
    exec (.i2cUnknownCommand c) s = .next (settle s (emit (.i2cAck false) (count 0x8010 1 s)))) ∧
  (∀ (s : State), padctl s = false →
    exec .i2cStopMidWord s = .next (settle s { s with i2c.partialBytes := [], i2c.addressed := false })) ∧
  (∀ (a : BitVec 7) (s : State), padctl s = true →
    exec (.i2cAddress a) s = .next (settle s s) ∧ exec .i2cStopMidWord s = .next (settle s s))

/-- An accepted GO makes the channel FULL once firmware is up, and otherwise, or while a reset or standby is promised,
answers E_BUSY with the request's SEQ. A write by its own origin to a FULL channel's message or CTRL words, and over I2C
to any word of MBX_8, is refused as that origin sees it, with CA, NACKED or sberror 7, counts and leaf. A read of
MBX_n_STAT shows its fields and over PCIe clears TAKEN, DONE and CA. Ones written to CQ_DONE free completed tickets,
ones written to DB_STAT clear doorbells, NACKED is cleared by a 1. A heartbeat counts and rings; the millisecond after
SYS.RESET ends in reset 0x8. Nothing else changes but what follows from any command. (R154; R193; R242; R243; R244;
R255; R259; R260; R277; R278; R282; 06_mailboxes_and_command_protocol.md, Tables 06-15 to 06-18) -/
def Obligations.MailboxRegisterAccessesComplete : Prop :=
  (∀ (o : Origin) (c : Chan) (v : Word) (s : State), Writes o (0x1040 + 0x100 * c.val) s → v.getLsbD 0 = true →
    exec (.mbxGo o c v) s = .next (settle s (modChan c (fun k =>
      if fwUp s && !s.mbx.resetDue && !s.power.standbyAcked then { k with full := true }
      else { k with ack := pack [(24, field k.msg[0] 16 8), (0, rBusy)], done := true })
      (arrived o (0x1040 + 0x100 * c.val) v s)))) ∧
  (∀ (c : Chan) (r : Fin 18) (v : Word) (s : State), originUp (chanOrigin c.val) s = true →
    (r.val ≤ 16 ∨ c.val = 8) →
    s.mbx.chan[c].full = true →
    exec (.mbxWriteWhileFull c r v) s = .next (settle s (
      if c.val = 9 then count 0x8E00 1 { s with dm.dmactive := true, dm.sberror := 7 }
      else if c.val = 8 then nack (count 0x8140 1 (setLeaf 0 2 (modChan c (fun k => { k with nacked := true }) s)))
      else emit (.completerAbort (0x1000 + 0x100 * c.val + 4 * r.val)) (count (0x8100 + 8 * c.val) 1 (setLeaf 0 1
        (modChan c (fun k => { k with ca := true }) s)))))) ∧
  (∀ (o : Origin) (c : Chan) (s : State), originUp o s = true →
    exec (.mbxStatRead o c) s = .next (settle s (
      if o = .pcie then modChan c (fun k => { k with taken := false, done := false, ca := false })
        (emit (.readData o (0x1044 + 0x100 * c.val) (mbxStat s.mbx.chan[c])) s)
      else emit (.readData o (0x1044 + 0x100 * c.val) (mbxStat s.mbx.chan[c])) (useModule o s)))) ∧
  (∀ (o : Origin) (k : Fin 2) (v : Word) (s : State), Writes o (0x2008 + 4 * k.val) s →
    exec (.cqDoneRelease o k v) s = .next (settle s (releaseTickets k.val v (arrived o (0x2008 + 4 * k.val) v s)))) ∧
  (∀ (o : Origin) (v : Word) (s : State), Writes o 0x2000 s →
    exec (.dbStatClear o v) s = .next (settle s { arrived o 0x2000 v s with mbx.dbStat := s.mbx.dbStat &&& ~~~v })) ∧
  (∀ (o : Origin) (s : State), Writes o 0x1844 s →
    exec (.nackedClear o) s = .next (settle s (modChan 8 (fun k => { k with nacked := false }) (arrived o 0x1844 0x20 s)))) ∧
  (∀ (s : State), s.mbx.config.heartbeatMs ≠ 0 → supRuns s = true →
    exec .heartbeat s = .next (settle s (ring 12 { s with mbx.heartbeat := s.mbx.heartbeat + 1 }))) ∧
  (∀ (s : State), s.mbx.resetDue = true → exec .sysResetDelayExpiry s = .next (settle s (enterReset 8 0 s)))

/-- A read of an implemented register sends its value, then changes what a read of it changes; a counter's low word
latches bits 47 to 32 into the origin's shadow. An accepted write stores the word in its register. A PCIe request that
R157, R158 or R294 does not allow is answered with Unsupported Request, counted and latched; an aligned two-DW request
at the MSI-X table is its two one-DW accesses; a request that the PCIe controller refuses sets UR_SENT alone; a poisoned
write raises its level-1 fault. FW_LOAD is heeded in WAIT_HOST; INT_CTRL takes its fields and an EOI that meets
attention releases INT_N and calls for a message. The ends of the release and of the hold-off let both go on. Nothing
else changes but what follows from any command. (R148; R154; R157; R158; R160; R182; R201; R203; R207; R210; R218; R219;
R294; R831) -/
def Obligations.Bar0AccessesComplete : Prop :=
  (∀ (o : Origin) (off : Nat) (s : State), originUp o s = true → implemented off = true →
    exec (.rcFieldRead o off) s = .next (settle s (bar0Effect o off (shown o off s)))) ∧
  (∀ (o : Origin) (off : Nat) (s : State), originUp o s = true → implemented off = true →
    isCounter off = true → off % 8 = 0 →
    exec (.counterLoRead o off) s = .next (settle s (
      let v : BitVec 16 := (counterValue off s >>> 32).truncate 16
      match o with
      | .pcie => { shown o off s with regs.shPcie := spSet 0 s.regs.shPcie off v }
      | .i2c => { shown o off s with regs.shI2c := spSet 0 s.regs.shI2c off v }
      | .debug => { shown o off s with regs.shDebug := spSet 0 s.regs.shDebug off v }
      | .sup => { shown o off s with regs.shSup := spSet 0 s.regs.shSup off v }))) ∧
  (∀ (o : Origin) (off : Nat) (v : Word) (s : State), Writes o off s →
    exec (.configWrite o off v) s = .next (settle s (storeReg o off v (arrived o off v s)))) ∧
  (∀ (off len : Nat) (be : BitVec 4) (k : UrKind) (s : State), originUp .pcie s = true → k ≠ .controller →
    ¬(implemented off = true ∧ be = 0xF ∧ (len = 1 ∨ (len = 2 ∧ 0x2F00 ≤ off ∧ off < 0x2F88 ∧ off % 8 = 0))) →
    exec (.bar0UnsupportedRequest off len be k) s =
      .next (settle s (emit (.unsupported off) (setLeaf 1 4 (count 0x8000 1 s))))) ∧
  (∀ (off : Nat) (v w : Word) (s : State), originUp .pcie s = true → 0x2F00 ≤ off → off < 0x2F88 → off % 8 = 0 →
    implemented off = true →
    exec (.bar0UnsupportedRequest off 2 0xF .read) s =
      .next (settle s (readBy .pcie (off + 4) (readBy .pcie off s))) ∧
    exec (.bar0UnsupportedRequest off 2 0xF (.write [v, w])) s =
      .next (settle s (writeBy .pcie (off + 4) w (writeBy .pcie off v s)))) ∧
  (∀ (off len : Nat) (be : BitVec 4) (s : State), originUp .pcie s = true →
    exec (.bar0UnsupportedRequest off len be .controller) s = .next (settle s (setLeaf 1 4 s))) ∧
  (∀ (off : Nat) (v : Word) (s : State), originUp .pcie s = true →
    exec (.bar0PoisonedWrite off v) s = .next (settle s (raise1 1 (leafCode 0 3) 0 [] s))) ∧
  (∀ (v : Word) (s : State), Writes .pcie 0x14 s → s.boot.fwState = 2 → s.boot.checking = false →
    exec (.fwLoadStart v) s = .next (settle s { arrived .pcie 0x14 v s with
      boot.loadLength := v.truncate 23, boot.checking := v.getLsbD 31 })) ∧
  (∀ (v : Word) (s : State), Writes .pcie 0x28 s →
    let t : State := { arrived .pcie 0x28 v s with irq.pinOff := v.getLsbD 17, irq.holdoff := v.truncate 16 }
    exec (.intCtrlEoi v) s = .next (settle s (
      if v.getLsbD 16 = true ∧ attentionNow t = true then callMsix { t with irq.eoiRelease := true } else t))) ∧
  (∀ (s : State), exec .eoiReleaseEnd s = .next (settle s { s with irq.eoiRelease := false })) ∧
  (∀ (s : State), exec .msixHoldoffEnd s = .next (settle s (
    let t : State := { s with irq.holdoffRuns := false, irq.msixDue := false }
    if s.irq.msixDue && attentionNow t then callMsix t else t)))

/-- On attached rings that are not detached, an accepted tail below the ring's size becomes the SQ's tail, and an accepted
head within the entries posted becomes the CQ's head, with held completions and receive buffers going on; any other
value raises DESC_ERR of kind 1 or 2, and a tail of a stream attached with a CQ alone, which has no SQ, kind 3 (the
model's choice, log 177). A host channel takes its 12-bit TAIL; ENABLE of a channel that is off with LOG2
4 to 12 starts it, with LOG2 outside halts it with E_PARAM; ENABLE 0 stops it, HEAD 0 at once or after the descriptor
in progress; RESUME on a halted enabled channel passes the failed descriptor, or goes to index 0 where ENABLE was
cleared and set again meanwhile (the model's choice, log 181). Ones written to DMA_HDONE clear it. Nothing
else changes but what follows from any command. (R193; R298; R315; R320; R321; R325; R330; R364; 07_pcie_and_dma.md,
Tables 07-14 to 07-18) -/
def Obligations.RingAndDmaRegisterWritesComplete : Prop :=
  (∀ (i : Strm) (v : Word) (s : State) (r : Rings), Writes .pcie (0x3000 + 8 * i.val) s → s.ing.stream[i].rings = some r →
    r.hasSq = true → s.ing.stream[i].state ≠ .detached →
    exec (.strmSqTailWrite i v) s = .next (settle s (
      if field v 0 16 < 2 ^ r.sqLog then modStream i (fun m => { m with sqTail := BitVec.ofNat 16 (field v 0 16) })
        (arrived .pcie (0x3000 + 8 * i.val) v s)
      else descErr 0xFF i.val 0 1 (arrived .pcie (0x3000 + 8 * i.val) v s)))) ∧
  (∀ (i : Strm) (v : Word) (s : State) (r : Rings), Writes .pcie (0x3000 + 8 * i.val) s → s.ing.stream[i].rings = some r →
    r.hasSq = false →
    exec (.strmSqTailWrite i v) s = .next (settle s (descErr 0xFF i.val 0 3 (arrived .pcie (0x3000 + 8 * i.val) v s)))) ∧
  (∀ (i : Strm) (v : Word) (s : State) (r : Rings), Writes .pcie (0x3004 + 8 * i.val) s → s.ing.stream[i].rings = some r →
    s.ing.stream[i].state ≠ .detached →
    exec (.strmCqHeadWrite i v) s = .next (settle s (
      if field v 0 16 < 2 ^ r.cqLog ∧
          (field v 0 16 + 2 ^ r.cqLog - s.ing.stream[i].cqHead.toNat) % 2 ^ r.cqLog ≤
            (s.ing.stream[i].cqTail.toNat + 2 ^ r.cqLog - s.ing.stream[i].cqHead.toNat) % 2 ^ r.cqLog then
        postBuffers (postHeld i s.ing.stream[i].held.length
          (modStream i (fun m => { m with cqHead := BitVec.ofNat 16 (field v 0 16) })
            (arrived .pcie (0x3004 + 8 * i.val) v s)))
      else descErr 0xFF i.val 0 2 (arrived .pcie (0x3004 + 8 * i.val) v s)))) ∧
  (∀ (c : Fin 8) (v : Word) (s : State), Writes .pcie (0x400C + 0x200 * c.val) s →
    exec (.dmaTailWrite c v) s = .next (settle s (modHost c (fun h => { h with tail := v.truncate 12 })
      (arrived .pcie (0x400C + 0x200 * c.val) v s)))) ∧
  (∀ (o : Origin) (c : Fin 8) (s : State), Writes o (0x4014 + 0x200 * c.val) s → s.dma.chan[c].enable = false →
    exec (.dmaEnable o c) s = .next (settle s (
      let t := modHost c (fun h => { h with enable := true, halted := false }) (arrived o (0x4014 + 0x200 * c.val) 1 s)
      if 4 ≤ s.dma.chan[c].log2.toNat ∧ s.dma.chan[c].log2.toNat ≤ 12 then t else haltHost c rParam 0x09 t))) ∧
  (∀ (o : Origin) (c : Fin 8) (s : State), Writes o (0x4014 + 0x200 * c.val) s →
    exec (.dmaDisable o c) s = .next (settle s (modHost c (fun h => { h with
      enable := false, fetching := false, head := if h.desc.isSome then h.head else 0, rewind := h.desc.isSome })
      (arrived o (0x4014 + 0x200 * c.val) 0 s)))) ∧
  (∀ (o : Origin) (c : Fin 8) (s : State), Writes o (0x4014 + 0x200 * c.val) s → s.dma.chan[c].enable = true →
    s.dma.chan[c].halted = true →
    exec (.dmaResume o c) s = .next (settle s (modHost c (fun h => { h with
      halted := false, rewind := false,
      head := if h.rewind then 0 else BitVec.ofNat 12 ((h.head.toNat + 1) % 2 ^ h.log2.toNat) })
      (arrived o (0x4014 + 0x200 * c.val) 5 s)))) ∧
  (∀ (o : Origin) (v : Word) (s : State), Writes o 0x5140 s →
    exec (.dmaHdoneClear o v) s = .next (settle s { arrived o 0x5140 v s with
      dma.hdone := s.dma.hdone &&& ~~~(v.truncate 8) }))

/-- A write of IND_ADDR sets the window's address, low bits dropped, and starts its prefetch. A read of IND_DATA sends
the word that has arrived, and under AUTOINC moves on; a write posts the word to the far side. Accesses of one queue are
served in their order: the answer to the access being served ends it and lets the next begin. A word sets READY with the
register's value, unless its prefetch was abandoned: then it is discarded; an acknowledge lets the write take effect,
and where that turns a live lane's polarity its link is lost; an error or 100 microseconds of silence end the access
with ERR. WV_SEL starts the load of its piece, the load ends in VALID or ERR, and a PCIe read of WV_DATA_3 clears VALID
and under AUTONEXT loads the next piece. Nothing else changes but what follows from any command. (R167; R169; R170;
R172; R174; R185; R186; R198; R199; R202; 04_register_access.md, Tables 04-4, 04-13) -/
def Obligations.WindowsAndWideValuesComplete : Prop :=
  (∀ (o : Origin) (v : Word) (s : State), o ≠ .i2c → Writes o 0x100 s →
    exec (.indAddrWrite o v) s = .next (settle s (startPrefetch o (modWin o (fun w => { w with addr := v &&& 0xFFFFFFFC })
      (arrived o 0x100 v s))))) ∧
  (∀ (o : Origin) (s : State), originUp o s = true → o ≠ .i2c →
    exec (.indDataRead o) s = .next (settle s (
      if (o == .pcie || o == .debug) && (winOf o s).ready && (winOf o s).autoinc then advanceRead o (shown o 0x104 s) else shown o 0x104 s))) ∧
  (∀ (o : Origin) (v : Word) (s : State), o ≠ .i2c → Writes o 0x104 s →
    exec (.indDataWrite o v) s = .next (settle s (postFar o v (arrived o 0x104 v s)))) ∧
  (∀ (v : Word) (s : State), originUp .i2c s = true →
    exec (.indAddrWrite .i2c v) s = .next (settle s (i2cSetAddr v s)) ∧
    exec (.indDataRead .i2c) s = .next (settle s (emit (.i2cRead (i2cReadBytes 4 0 s).1) (i2cReadBytes 4 0 s).2)) ∧
    exec (.indDataWrite .i2c v) s = .next (settle s (i2cWriteWord v s))) ∧
  (∀ (o : Origin) (q : FarReq) (v : Word) (s : State), answeredFar o s = some q → q.write = false →
    exec (.farPrefetchDone o (.word v)) s = .next (settle s (if q.live
      then farWord q.origin (farValue q.addr v (popFar q.addr s)) (popFar q.addr s) else popFar q.addr s)) ∧
    exec (.farPrefetchDone o .farError) s = .next (settle s (if q.live
      then farError q.origin 5 (popFar q.addr s) else popFar q.addr s))) ∧
  (∀ (o : Origin) (q : FarReq) (s : State), answeredFar o s = some q → q.write = true →
    exec (.farWriteAck o false) s = .next (settle s (checkStreams (farError q.origin 5 (popFar q.addr s)))) ∧
    (let t := modWin q.origin (fun w => { w with busy := false, far := .idle })
        (farApply q.addr q.value (popFar q.addr s))
    exec (.farWriteAck o true) s = .next (settle s (checkStreams (match laneOf q.addr with
      | none => t
      | some i => if laneInversion i.val s.regs.polarity[i] = laneInversion i.val t.regs.polarity[i] then t
          else laneLost i.val t))))) ∧
  (∀ (o : Origin) (a : Nat) (s : State), ((winOf o s).far = .read a ∨ ∃ v, (winOf o s).far = .write a v) →
    (∀ x, s.regs.bus.head? = some x → x.live = true ∨ x.origin ≠ o) →
    (∀ (n : Trn) (x : FarReq), s.trn[n].far.head? = some x → x.live = true ∨ x.origin ≠ o) →
    exec (.farAccessTimeout o) s = .next (settle s (farError o 4 (
      if (farQueue a s).head?.map (fun x => x.origin) = some o then popFar a s else abandonIn o a s)))) ∧
  (∀ (o : Origin) (v : Word) (s : State), Writes o 0x120 s →
    exec (.wvSelWrite o v) s = .next (settle s { arrived o 0x120 v s with regs.wv := { s.regs.wv with
      autonext := v.getLsbD 31, item := BitVec.ofNat 8 (field v 8 8), piece := v.truncate 8, valid := false, err := false,
      loading := true } })) ∧
  (∀ (s : State), s.regs.wv.loading = true → exec .wvPieceLoaded s = .next (settle s (wvLoad s))) ∧
  (∀ (o : Origin) (s : State), originUp o s = true →
    let next := s.regs.wv.autonext && decide (s.regs.wv.piece.toNat + 1 < s.regs.wv.pieces.toNat)
    exec (.wvData3Read o) s = .next (settle s (
      if o = .pcie ∧ s.regs.wv.valid = true then { shown o 0x13C s with regs.wv := { s.regs.wv with
        valid := false, loading := next, piece := if next then s.regs.wv.piece + 1 else s.regs.wv.piece } }
      else shown o 0x13C s)))

/-- With SUP running, no fault in hand and the safe state not entered, SUP takes in hand a waiting fault of the highest
level, a suspended one before a queued one, the first in its list; no waiting fault has a higher level. A fault in hand
that owes no completion is logged as handled, PENDING_OVF where the log is full; one that owes posts what it can and is
logged when nothing is owed, else it stays in hand. A transport that has not reported itself stopped within 3 s of the
safe-state stop has its downlinks idled, once the messages due on them have gone out. Nothing else changes but what
follows from any command. (R226; R227; R236; R264; R286; R832; 05_interrupt_tree_and_faults.md, Table 05-5) -/
def Obligations.FaultHandlingStepsComplete : Prop :=
  (∀ (f : FaultRec) (s : State), supRuns s = true → s.faults.safe = false → s.faults.inHand = none →
    s.faults.suspended.find? (fun g => g.level = topLevel s) = some f →
    exec .faultInHand s = .next (settle s { s with
      faults.inHand := some f, faults.suspended := s.faults.suspended.erase f })) ∧
  (∀ (f : FaultRec) (s : State), supRuns s = true → s.faults.safe = false → s.faults.inHand = none →
    s.faults.suspended.find? (fun g => g.level = topLevel s) = none →
    s.faults.queue.find? (fun g => g.level = topLevel s) = some f →
    exec .faultInHand s = .next (settle s { s with
      faults.inHand := some f, faults.queue := s.faults.queue.erase f })) ∧
  (∀ (g : FaultRec) (s : State), g ∈ s.faults.suspended ∨ g ∈ s.faults.queue → g.level ≤ topLevel s) ∧
  (∀ (f : FaultRec) (s : State), supRuns s = true → s.faults.inHand = some f → f.owes = [] →
    exec .faultHandlingDone s = .next (settle s (
      if s.faults.log.length ≥ 65536 then overflow { s with faults.inHand := none }
      else { s with
        faults.inHand := none,
        faults.log := s.faults.log ++ [{ index := s.faults.nextLog, flt := f, unhandled := false }],
        faults.nextLog := s.faults.nextLog + 1 }))) ∧
  (∀ (f : FaultRec) (s : State), supRuns s = true → s.faults.inHand = some f →
    let r := postOwed { f with owes := inOrder f.owes s } s
    exec .faultHandlingDone s = .next (settle s (
      if r.1.owes ≠ [] then { r.2 with faults.inHand := some r.1 }
      else if r.2.faults.log.length ≥ 65536 then overflow { r.2 with faults.inHand := none }
      else appendLog r.1 false { r.2 with faults.inHand := none }))) ∧
  (∀ (n : Trn) (s : State), s.faults.safeStopping.getLsbD n.val = true →
    exec (.safeStopTimeout n) s = .next (settle s (modTrn n (fun t => { t with
      downlink := false, sysref := false, gate := false, wait0 := 0, wait1 := 0 })
      (drainCtl n { s with faults.safeStopping := clrBit s.faults.safeStopping n.val }))))

/-- An accepted write of AUX_FUNC_j gives eight pins their codes, a pin whose code changes being parked. The end of a park
makes the last code active, ends the keeper's hold and starts its debounce; AUX_IN keeps its bit until then where the
function is sampled (the model's choice, log 163). While the grids run, a debounced level is stored after polarity; on
an interlock input it changes the interlock and, when the OR of the interlocks changes, what follows from that; a
rising edge on an external-start input latches EXT_START and, with GOV enabled and no interlock, holds the members for
an external start. Contention on a driven pad latches and trips the pin until a 1 is written to its AUX_CONT bit. The
LED wave toggles; before the grids run no level is accepted and it stands. Nothing else changes but what follows from
any command. (R72; R76; R78; R79; R80; R83; R84; R658; R835; 02_package_and_signals.md, Table 02-9) -/
def Obligations.AuxPinEventsComplete : Prop :=
  (∀ (o : Origin) (j : Fin 3) (v : Word) (s : State), Writes o (0x5D98 + 4 * j.val) s →
    exec (.auxFuncWrite o j v) s = .next (settle s (writeAuxFunc j.val v (arrived o (0x5D98 + 4 * j.val) v s)))) ∧
  (∀ (k : Fin 24) (s : State), s.aux.pin[k].parked = true →
    exec (.auxParkEnd k) s = .next (settle s (modPin k (fun p => { p with
      parked := false, active := p.fn, started := false, level := p.level && auxSampled p.fn, keeper := none }) s))) ∧
  (∀ (o : Origin) (v : Word) (s : State), Writes o 0x5D94 s →
    exec (.auxContClear o v) s = .next (settle s { arrived o 0x5D94 v s with
      aux.cont := s.aux.cont &&& ~~~(v.truncate 24) })) ∧
  (∀ (k : Fin 24) (pad : Bool) (s : State), s.aux.pin[k].parked = false → padctl s = false →
    auxSampled s.aux.pin[k].active = true → auxGrids s = true →
    let l := pad ^^ s.aux.pol.getLsbD k.val
    let t := modPin k (fun p => { p with level := l, started := true, ilk := if p.active = 4 then l else p.ilk }) s
    let u := setLeaf 27 2 t
    exec (.auxLevelAccepted k pad) s = .next (settle s (afterInterlock (interlock s) (
      if s.aux.pin[k].active = 7 ∧ s.aux.pin[k].started = true ∧ s.aux.pin[k].level = false ∧ l = true then
        (if interlock u = true ∨ s.gov.enabled = false then u else { u with gov.extEvent := true, gov.extHold := true })
      else t)))) ∧
  (∀ (k : Fin 24) (s : State), auxGrids s = true → auxDrives s.aux.pin[k].active = true → s.aux.pin[k].parked = false → padctl s = false →
    s.faults.safe = false → s.aux.cont.getLsbD k.val = false →
    exec (.auxContentionTrip k) s = .next (settle s (setLeaf 27 0 { s with aux.cont := setBit s.aux.cont k.val }))) ∧
  (∀ (s : State), auxGrids s = true → exec .ledWave s = .next (settle s { s with aux.wave := !s.aux.wave })) ∧
  (∀ (k : Fin 24) (pad : Bool) (s : State), auxGrids s = false →
    exec .ledWave s = .next (settle s s) ∧ exec (.auxLevelAccepted k pad) s = .next (settle s s) ∧
    exec (.auxContentionTrip k) s = .next (settle s s))

/-- Power-on and the fall through the power-on level leave fuses, the board's pins and reset values. RESET_N low enters
reset 0x1 unless in standby or unpowered; its release samples the straps, arms both monitors, lets boot go on, and in
standby a heeded edge enters reset 0xA. An armed monitor whose rail falls enters reset 0x2 or 0x3, but VCORE in standby
only disarms; the rail's return arms it and lets boot go on. The NV inhibit counts, latches and abandons a row in
progress; its end latches. While boundary scan holds the pads no edge of RESET_N is seen. Nothing else changes but what
follows from any command. (R69; R96; R108; R115; R129; R132; R133; R507; R718; R719; R772; R834) -/
def Obligations.SupplyResetEventsComplete : Prop :=
  (∀ (s : State), exec .powerOnReset s = .next (settle s {
      pending := s.pending, out := s.out, free := s.free, rateRoom := s.rateRoom, nv := { rows := s.nv.rows },
      aon := { perstLow := s.aon.perstLow, vaonDown := false } })) ∧
  (∀ (s : State), exec .vaonPowerOnCrossing s = .next (settle s {
      pending := s.pending, out := s.out, free := s.free, rateRoom := s.rateRoom, nv := { rows := s.nv.rows },
      aon := { perstLow := s.aon.perstLow, vaonDown := true } })) ∧
  (∀ (straps : BitVec 8) (s : State), padctl s = true →
    exec .resetNAssert s = .next (settle s s) ∧ exec (.resetNRelease straps) s = .next (settle s s)) ∧
  (∀ (s : State), s.aon.resetLow = false → padctl s = false →
    exec .resetNAssert s = .next (settle s (
      if s.boot.phase = .standby ∨ s.aon.vaonDown = true then { s with aon.resetLow := true }
      else enterReset 1 0 { s with aon.resetLow := true }))) ∧
  (∀ (straps : BitVec 8) (s : State), s.aon.vaonDown = false → s.aon.resetLow = true → padctl s = false →
    let t : State := { s with
      aon.resetLow := false, aon.straps := straps.truncate 4, aon.vaonArmed := true, aon.vcoreArmed := true }
    exec (.resetNRelease straps) s = .next (settle s (
      if s.boot.phase = .standby then
        (if s.aon.vcoreLow = false ∧ s.aon.refclkLost = false then enterReset 10 0 t else { s with aon.resetLow := false })
      else bootOn t))) ∧
  (∀ (s : State), s.aon.vaonArmed = true → s.aon.vaonLow = false → s.aon.vaonDown = false →
    exec .vaonBrownout s = .next (settle s (enterReset 2 0 { s with aon.vaonLow := true }))) ∧
  (∀ (s : State), s.aon.vcoreArmed = true → s.aon.vcoreLow = false → s.aon.vaonDown = false →
    exec .vcoreBrownout s = .next (settle s (
      if s.boot.phase = .standby then { s with aon.vcoreLow := true, aon.vcoreArmed := false }
      else enterReset 3 0 { s with aon.vcoreLow := true }))) ∧
  (∀ (s : State), s.aon.vaonDown = false →
    exec (.brownoutRelease .vaon) s = .next (settle s (bootOn { s with aon.vaonLow := false, aon.vaonArmed := true })) ∧
    exec (.brownoutRelease .vcore) s =
      .next (settle s (bootOn { s with aon.vcoreLow := false, aon.vcoreArmed := true }))) ∧
  (∀ (s : State), s.aon.nvInhibit = false → s.aon.vaonDown = false →
    let t : State := { s with aon.nvInhibit := true }
    exec .nvInhibit s = .next (settle s (
      if supUp s then nvAbandon (count 0x8C00 1 (setLeaf 21 0 t))
      else match s.nv.phase with
        | .row _ _ => bootOn { t with nv.phase := .idle }
        | _ => t))) ∧
  (∀ (s : State), s.aon.nvInhibit = true → s.aon.vaonDown = false →
    exec .nvResume s = .next (settle s (
      if supUp s then setLeaf 21 1 { s with aon.nvInhibit := false } else { s with aon.nvInhibit := false })))

/-- A reset by a source other than 0x6 to 0x9, entered while none is held and no copy runs, leaves RST_CAUSE with the source
and its detail, no source in ALSO, RST_COUNT.RESETS one up (saturating), the fuse rows, straps and pin levels as they
were, and every register of PD_SUP and the gated domains at its reset value: mailboxes, masks, counters, streams, keys,
transports. Boot waits for the core PLL, or is held while something still holds the reset. Sources 0x6 to 0x9 first
copy the ring: the same RST_CAUSE and count at once (ALSO takes source 0x7 where the copy meets a failing line), and
the reset values when the copy has moved to its end. While a reset is held, or its copy runs, another source only joins
ALSO; a brownout there drops a fuse row in progress, and a brownout, REFCLK loss or lost PLL during the copy cuts it
off: no valid header, and the reset values now. The queue of commands stands (it is log 1's). (R52; R121; R122; R129;
R130; R132; R183; R275; R396; R794; R833; 03_power_clock_reset.md, Table 03-7) -/
def Obligations.ResetEntryLeavesResetValues : Prop :=
  (∀ (code detail : Nat) (s : State), s.boot.phase ≠ .held → s.boot.phase ≠ .copying → code ≤ 5 ∨ code = 10 →
    let t := enterReset code detail s
    ResetLeft s t ∧ t.aon.cause = BitVec.ofNat 4 code ∧ t.aon.detail = BitVec.ofNat 8 detail ∧ t.aon.also = 0 ∧
    t.aon.resets = satInc s.aon.resets ∧ t.aon.persts = s.aon.persts ∧ t.aon.straps = s.aon.straps ∧
    t.aon.resetLow = s.aon.resetLow ∧ t.aon.perstLow = s.aon.perstLow ∧ t.aon.faultLast = s.aon.faultLast) ∧
  (∀ (code detail : Nat) (s : State), s.boot.phase ≠ .held → s.boot.phase ≠ .copying → 6 ≤ code → code ≤ 9 →
    let t := enterReset code detail s
    t.boot.phase = .copying ∧ t.aon.copying.isSome = true ∧ t.aon.cause = BitVec.ofNat 4 code ∧
    t.aon.detail = BitVec.ofNat 8 detail ∧ (t.aon.also = 0 ∨ (code ≠ 7 ∧ t.aon.also = setBit 0 7)) ∧
    t.aon.resets = satInc s.aon.resets ∧ t.nv.rows = s.nv.rows ∧ t.pending = s.pending ∧ t.dbg.wdArmed = false) ∧
  (∀ (j : FreezeJob) (s : State), s.aon.copying = some j →
    (4 < j.todo → copyTick s = { s with aon.copying := some { j with todo := j.todo - 4 } }) ∧
    (j.todo ≤ 4 → ResetLeft s (copyTick s) ∧
      (copyTick s).aon = { s.aon with copying := none, freeze := j.buf })) ∧
  (∀ (code detail : Nat) (s : State), s.boot.phase = .held → enterReset code detail s = { s with
    aon.also := if s.aon.cause = BitVec.ofNat 4 code then s.aon.also else setBit s.aon.also code,
    nv.phase := if code = 2 ∨ code = 3 then .idle else s.nv.phase }) ∧
  (∀ (code detail : Nat) (s : State), s.boot.phase = .copying → code ≤ 10 → s.aon.cause ≠ BitVec.ofNat 4 code →
    let t := enterReset code detail s
    t.aon.also = setBit s.aon.also code ∧ t.aon.cause = s.aon.cause ∧ t.aon.resets = s.aon.resets ∧
    (¬(2 ≤ code ∧ code ≤ 5) → t = { s with aon.also := setBit s.aon.also code }) ∧
    (2 ≤ code ∧ code ≤ 5 → ResetLeft s t ∧ t.aon.copying = none ∧
      (s.aon.copying.isSome = true → t.aon.freeze.valid = false)))

/-- REFCLK's loss stops CCLK and enters reset 0x4, in standby it is only remembered; its return lets boot go on. The
core PLL's lock starts CCLK, stamp 0 and epoch 0, and the fuse load, which after reset 0x4 or 0x5 waits for the HBM3
PLL's lock too; the core PLL's loss enters reset 0x5, as the HBM3 PLL's does. A SerDes PLL that unlocks clears its
PLL_STAT bit and latches; a transport's is level 1 and loses the transport while its port is UP, or ends its link start
(the completion is log 168's), the PCIe's or an Ethernet port's takes the link down and is level 2. A gearbox slip
breaks replay, takes its link down and halts the link's block, or STG for an HBM3 channel, at level 2. Nothing else
changes but what follows from any command. (R113; R114; R124; R129; R136; R137; R741; R760; 03_power_clock_reset.md,
Table 03-9) -/
def Obligations.ClockEventsComplete : Prop :=
  (∀ (s : State), s.aon.refclkLost = false → s.aon.vaonDown = false →
    exec .refclkLoss s = .next (settle s (
      if s.boot.phase = .standby then { s with aon.refclkLost := true }
      else enterReset 4 0 { s with aon.refclkLost := true, power.cclk := false }))) ∧
  (∀ (s : State), exec .refclkReturn s = .next (settle s (bootOn { s with aon.refclkLost := false }))) ∧
  (∀ (s : State), s.boot.phase = .pll → s.aon.refclkLost = false → s.power.cclk = false →
    let t : State := { s with power.cclk := true, tether.stamp := 0, tether.epoch := 0 }
    exec (.pllLock .core) s = .next (settle s (
      if (s.aon.cause = 4 ∨ s.aon.cause = 5) ∧ s.power.pll.getLsbD 0 = false then t
      else { t with boot.phase := .fuses }))) ∧
  (∀ (s : State), (supUp s = true ∨ (s.boot.phase = .pll ∧ s.aon.refclkLost = false)) →
    let t : State := { s with power.pll := setBit s.power.pll 0 }
    exec (.pllLock .hbm) s = .next (settle s (
      if s.boot.phase = .pll ∧ s.power.cclk = true then { t with boot.phase := .fuses } else t))) ∧
  (∀ (s : State), s.power.cclk = true →
    exec (.pllLostLock .core) s = .next (settle s (enterReset 5 0 { s with power.cclk := false }))) ∧
  (∀ (s : State), (supUp s = true ∨ s.boot.phase = .copying) → s.power.pll.getLsbD 0 = true →
    exec (.pllLostLock .hbm) s = .next (settle s (enterReset 5 0 s))) ∧
  (∀ (n : Trn) (s : State), supUp s = true → s.power.pll.getLsbD (4 + n.val) = true →
    let t : State := { s with power.pll := clrBit s.power.pll (4 + n.val) }
    let r := if s.trn[n].port = .up then loseTransport n rMedia t else ([], startLost n t)
    exec (.pllUnlock (.trn n)) s = .next (settle s (checkStreams (if r.2.faults.safe then
        (let h := (haltBlock (11 + n.val) (setLeaf 23 0 r.2)).2
         queueFault { level := 1, source := 23, leaf := 0, stamp := h.tether.stamp, detail := 0, preempted := false,
                      owes := r.1 } h)
      else
        queueFault { level := 1, source := 23, leaf := 0, stamp := r.2.tether.stamp, detail := 0, preempted := false,
                     owes := r.1 } (setLeaf 23 0 r.2))))) ∧
  (∀ (l : SerdesPll) (s : State), (∀ n, l ≠ .trn n) → supUp s = true → s.power.pll.getLsbD (pllBit l) = true →
    exec (.pllUnlock l) s = .next (settle s (checkStreams (raise2 23 0 (linkBlock l) 0
      (linkGone l { s with power.pll := clrBit s.power.pll (pllBit l) }))))) ∧
  (∀ (l : SerdesPll) (s : State), supUp s = true →
    exec (.gearboxSlip (.link l)) s =
      .next (settle s (checkStreams (raise2 23 3 (linkBlock l) 0 (linkGone l (replayBreak 2 s)))))) ∧
  (∀ (k : Fin 4) (s : State), supUp s = true →
    exec (.gearboxSlip (.hbm k)) s = .next (settle s (checkStreams (raise2 23 3 6 0 (replayBreak 2 s)))))

/-- PERST_N low counts; after a standby ACK it enters standby, else it resets the PCIe controller and latches. Its
release lets the controller answer once the boot ROM has enabled it, and in standby a heeded edge enters reset 0xA.
After the ACK, PME_Turn_Off, which is answered with PME_TO_Ack, or 100 ms enter standby. In standby a wake request of
the strapped address or a latched interlock pin asserts WAKE_N. Nothing else changes but what follows from any command.
(R106; R107; R108; R109; R123; R126; R127; R128; R133) -/
def Obligations.PerstAndStandbyEventsComplete : Prop :=
  (∀ (s : State), s.aon.perstLow = false → s.aon.vaonDown = false → padctl s = false →
    let t : State := { s with aon.perstLow := true, aon.persts := satInc s.aon.persts }
    exec .perstNAssert s = .next (settle s (
      if s.power.standbyAcked then enterStandby t
      else if supUp s then setLeaf 23 2 (pcieReset false t)
      else t))) ∧
  (∀ (s : State), s.aon.perstLow = true → s.aon.vaonDown = false → padctl s = false →
    let t : State := { s with aon.perstLow := false }
    exec .perstNRelease s = .next (settle s (
      if s.boot.phase = .standby then (if s.aon.vcoreLow = false ∧ s.aon.refclkLost = false then enterReset 10 0 t else t)
      else { t with pcie.cfgUp := s.i2c.enabled }))) ∧
  (∀ (s : State), s.power.standbyAcked = true → hostUp s = true →
    exec .pmeTurnOff s = .next (settle s (enterStandby (emit .pmeToAck s)))) ∧
  (∀ (s : State), s.power.standbyAcked = true → exec .standbyAckTimeout s = .next (settle s (enterStandby s))) ∧
  (∀ (s : State), s.boot.phase = .standby →
    exec (.wakeRequest (.i2c (BitVec.ofNat 7 (0x58 + field s.aon.straps 2 2)))) s =
      .next (settle s { s with aon.wakeN := true })) ∧
  (∀ (k : Fin 24) (pad : Bool) (s : State), s.boot.phase = .standby → s.aon.wakePins.getLsbD k.val = true →
    pad ≠ s.aon.wakePol.getLsbD k.val →
    exec (.wakeRequest (.aux k pad)) s = .next (settle s { s with aon.wakeN := true }))

/-- The fuse load makes the settings in force known and refuses boot where it must; the self-test enables PCIe and I2C
and goes on to the boot ROM, which reads the flash's SFDP table where it boots from flash, or fails; HBM training lays
memory out or fails; an image slot is read in the table's quad mode (a table without one is no valid flash, log 169),
and a checked image that no code of Table 03-8 refuses runs, a refused one is tried in the other slot, ends in BOOT_FAIL
or waits for the host; a host image that is refused sets REASON (log 170), one whose read ends in the safe state does
not run; READY ends boot and enables the blocks. The watchdog warns at 999 ms and its expiry enters reset 0x6. A sample
of eight readings updates sensors, throttle and critical condition. An offset ends. Nothing else changes but what
follows from any command. (R138; R139; R142; R143; R145; R147; R148; R493; R721; R722; R723; R782; R785;
03_power_clock_reset.md, Tables 03-8, 03-9, 03-12) -/
def Obligations.BootEventsComplete : Prop :=
  (∀ (ok : Bool) (s : State), s.boot.phase = .fuses → s.faults.safe = false →
    let t : State := { s with boot.fusesLoaded := true, nv.bootLife := BitVec.ofNat 4 (lifeCode s) }
    exec (.fuseLoadDone ok) s = .next (settle s { (
      if ok = false ∨ fuseFaulty 0 t = true ∨ fuseFaulty 1 t = true then bootFail 2 t
      else if bootsel t = 3 ∧ lifeCode t ≥ 3 then bootFail 9 t else t) with boot.phase := .selfTest })) ∧
  (∀ (s : State), s.boot.phase = .selfTest → s.faults.safe = false → s.boot.fwState ≠ 6 →
    let t : State := { s with i2c.enabled := true, pcie.cfgUp := !s.aon.perstLow }
    exec (.selfTestDone .passed) s = .next (settle s (
      if bootsel s = 0 ∨ bootsel s = 2 then
        emit .sfdpRead { t with boot.phase := .rom, boot.fwState := 1, boot.qspiOn := true }
      else { t with boot.phase := .rom, boot.fwState := 0 })) ∧
    exec (.selfTestDone .failed) s = .next (settle s (bootFail 1 t))) ∧
  (∀ (s : State), s.boot.hbmReady = false → s.faults.safe = false → s.boot.phase = .rom ∨ s.boot.phase = .init →
    let t : State := { s with boot.hbmReady := true, stg.stackOk := 15, power.pll := setBit s.power.pll 0 }
    exec (.hbmTrainingDone 15) s = .next (settle s (
      if s.boot.phase = .init then layOut t
      else if bootsel s = 1 ∨ s.boot.flashSpent = true then { t with boot.fwState := 2 }
      else if bootsel s = 3 then takeHalt { t with boot.fwState := 3, dbg.runs := s.dbg.runs + 1 }
      else t))) ∧
  (∀ (ok : BitVec 4) (s : State), s.boot.hbmReady = false → s.faults.safe = false →
    s.boot.phase = .rom ∨ s.boot.phase = .init → ok ≠ 15 →
    exec (.hbmTrainingDone ok) s = .next (settle s (bootFail 3 { s with stg.stackOk := ok }))) ∧
  (∀ (tab : Sfdp) (img : List Byte) (s : State), s.boot.phase = .rom → s.faults.safe = false → bootsel s = 0 ∨ bootsel s = 2 →
    s.boot.flashSpent = false →
    (quadMode tab = none → exec (.imageCheckDone (.flash tab img)) s = .next (settle s (flashOver 4 s))) ∧
    (∀ m, quadMode tab = some m →
      let t := emit (.flashRead m (if s.boot.trySlot then 0x00400000 else 0)) { s with boot.flashMode := some m }
      exec (.imageCheckDone (.flash tab img)) s = .next (settle s (
        if imageRefusal img t = 0 then runImage img s.boot.trySlot t
        else if s.boot.trySlot then flashOver (imageRefusal img t) t
        else { t with boot.trySlot := true, boot.reason := BitVec.ofNat 8 (imageRefusal img t) })))) ∧
  (∀ (s : State), s.boot.phase = .rom → s.faults.safe = false → bootsel s = 0 ∨ bootsel s = 2 →
    s.boot.flashSpent = false → exec (.imageCheckDone .noFlash) s = .next (settle s (flashOver 4 s))) ∧
  (∀ (s : State), s.boot.phase = .rom → s.faults.safe = false → s.boot.fwState = 2 → s.boot.checking = true →
    let r := readRange 0 s.boot.loadLength.toNat [] s
    let t := afterRead r.2.1 [] r.2.2
    exec (.imageCheckDone .host) s = .next (settle s (
      if t.faults.safe = true ∨ t.boot.phase ≠ .rom then t
      else if imageRefusal r.1 t = 0 then runImage r.1 false t
      else { t with boot.checking := false, boot.reason := BitVec.ofNat 8 (imageRefusal r.1 t) }))) ∧
  (∀ (r : InitResult) (s : State), s.boot.phase = .init → s.stg.laidOut = true → s.dbg.halted = false →
    s.faults.safe = false →
    let t : State := { s with
      boot.phase := .running, boot.fwState := 5, boot.bootTime := r.micros, power.pll := s.power.pll ||| 0xFFC,
      dma.enabled := true, ing.enabled := true, cmp.enabled := true, cip.enabled := true, fmt.enabled := true,
      gov.enabled := true, cip.entropyOk := true,
      cmp.engine := Vector.ofFn (fun e => { getN s.cmp.engine e.val {} with off := r.cmpFailed.getLsbD e.val }),
      cip.unit := Vector.ofFn (fun u => { getN s.cip.unit u.val {} with off := r.cipFailed.getLsbD u.val }) }
    exec (.ready r) s = .next (settle s (
      if r.ok = false then bootFail 10 s
      else if 6 ≤ s.aon.cause.toNat ∧ s.aon.cause.toNat ≤ 9 then setLeaf 26 6 t else t))) ∧
  (∀ (s : State), s.dbg.wdArmed = true → s.dbg.halted = false →
    exec .wdWarn s = .next (settle s (setLeaf 25 2 { s with dbg.wdRemain := 999 })) ∧
    exec .watchdogExpiry s = .next (settle s (enterReset 6 0 s))) ∧
  (∀ (rs : List Int) (s : State), supUp s = true → rs.length = 8 →
    let r := (takeSample (withOffsets rs (armOffset s)) (armOffset s)).2
    let n := popcount r.therm.valid
    let t := setThrottle (decide (n < 4) ||
      (if r.therm.throttle then decide (r.therm.cool < 16) else decide (r.therm.hot = 16))) r
    let u := sensorEntry (if t.therm.throttle then count 0x8C10 1 t else t)
    exec (.thermalSample rs) s = .next (settle s (setCritical (decide (n = 0) ||
      (if u.therm.critical then decide (u.therm.critCool < 16) else decide (u.therm.critHot = 16))) u))) ∧
  (∀ (i : Fin 8) (s : State), exec (.injectOffsetEnd i) s = .next (settle s { s with
    dbg.offsets := s.dbg.offsets.filter (fun o => decide (o.1 ≠ i.val)) }))

/-- A sample at or above the entry level adds one to the entry count, up to 16, and starts the leaving count anew; one at
or below the leaving level does the reverse; one in between starts both anew. After a sample every count is at most
16, the throttle and the critical condition are as before it, and no sensor has become valid. (That the counts are
fields of the state is the model's own.) (R721; R722; R723; R735) -/
def Obligations.SensorSamplesCountUpToSixteen : Prop :=
  (∀ (hi lo t : Int) (a b : Nat), lo < hi → a ≤ 16 → b ≤ 16 →
    let c := countSample t hi lo (a, b)
    (hi ≤ t → c = (min 16 (a + 1), 0)) ∧ (t ≤ lo → c = (0, min 16 (b + 1))) ∧ (lo < t → t < hi → c = (0, 0))) ∧
  (∀ (rs : List Int) (s : State),
    let t := (takeSample rs s).2
    t.therm.hot ≤ 16 ∧ t.therm.cool ≤ 16 ∧ t.therm.critHot ≤ 16 ∧ t.therm.critCool ≤ 16 ∧
    t.therm.throttle = s.therm.throttle ∧ t.therm.critical = s.therm.critical ∧
    (∀ i : Nat, t.therm.valid.getLsbD i = true → s.therm.valid.getLsbD i = true))

/-- The first queued switch starts when none runs: to the state the domain has it completes OK and changes nothing else
(R119), off against its precondition it ends with E_STATE, else it runs, the PD_STAT bit clearing at once on the way
off. Its end gives the domain its reset values or its blocks back and completes; PD_FAIL ends a switch on with a level-2
fault of CLK, which halts the domain's blocks (log 172), and E_FAULT. GOV asks for a still half's gating, which is
looked at again when its switch begins. The parity checker's visit reports a mismatch once. A recovery ends by resetting
its block. SRAM errors are level 4, corrections are notices. Nothing else changes but what follows from any command.
(R98; R101; R116; R118; R119; R135; R163; R165; R217; R222; R281; R287) -/
def Obligations.DomainEventsComplete : Prop :=
  (∀ (w : DomSwitch) (rest : List DomSwitch) (s : State), s.power.queue = w :: rest → s.power.switching = none →
    supRuns s = true →
    let t : State := { s with power.queue := rest }
    exec .domainSwitchStart s = .next (settle s (
      if domOn w.dom s = w.on then endSwitch w rOk t
      else if w.on = false ∧ (offAllowed w.dom t = false ∨ (w.ticket = none ∧ halfStill w.dom t = false)) then
        endSwitch w rState t
      else if w.on then { t with power.switching := some w }
      else { t with power.switching := some w, power.on := clrBit s.power.on w.dom }))) ∧
  (∀ (w : DomSwitch) (s : State), s.power.switching = some w →
    let t := if w.on then domainOn w.dom { s with power.switching := none, power.on := setBit s.power.on w.dom }
      else domainOff w.dom { s with power.switching := none }
    exec .domainSwitchDone s = .next (settle s (checkStreams (endSwitch w rOk
      (if w.ticket.isNone then setLeaf 19 0 t else t))))) ∧
  (∀ (w : DomSwitch) (s : State), s.power.switching = some w → w.on = true →
    let t := setLeaf 23 1 { s with power.switching := none }
    let b := haltBlocks (failedBlocks w.dom) t
    exec .pdFail s = .next (settle s (endSwitch w rFault (queueFault
      { level := 2, source := 23, leaf := 1, stamp := s.tether.stamp, detail := 0, preempted := false, owes := b.1 }
      b.2)))) ∧
  (∀ (h : Fin 2) (s : State), s.power.autoVrf = true → govOn s = true → domOn (8 + h.val) s = true →
    offAllowed (8 + h.val) s = true → halfStill (8 + h.val) s = true →
    (∀ w ∈ s.power.queue ++ s.power.switching.toList, w.dom ≠ 8 + h.val) →
    exec (.autoGateOff h) s = .next (settle s { s with
      power.queue := s.power.queue ++ [{ dom := 8 + h.val, on := false, ticket := none }] })) ∧
  (∀ (off : Nat) (flips rw : Word) (s : State), configBits off = some rw → resetHeld s = false → s.power.cclk = true →
    configOn off s = true →
    let t := upsetReg off flips rw s
    exec (.parityCheckerVisit off flips) s = .next (settle s (
      if t.regs.badParity.contains off && !t.regs.parityReported.contains off then reportParity off t else t))) ∧
  (∀ (ok : Bool) (t src : Nat) (s : State), recovering s = some (t, src) → supRuns s = true →
    exec (.recoverDone ok) s = .next (settle s (checkStreams (recovered src ok t s)))) ∧
  (∀ (u : SramUnit) (s : State), s.power.cclk = true → resetHeld s = false → s.power.on = 0xFFF →
    exec (.sramUe u) s = .next (settle s (match u with
      | .dma => raise4 2 4 s
      | .cmp => raise4 7 2 s
      | .cip => raise4 8 5 s
      | .fmt => raise4 10 5 s
      | .vrf => raise4 19 2 s
      | .sup => raise4 26 5 s))) ∧
  (∀ (u : CorrUnit) (s : State), s.power.cclk = true → resetHeld s = false → s.power.on = 0xFFF →
    exec (.sramCorr u) s = .next (settle s (match u with
      | .dma => setLeaf 2 3 s
      | .cmp => setLeaf 7 1 s
      | .sup => setLeaf 26 4 s)))

/-- The first switch of the queue asks for the state that its domain already has, its command still in flight: its command
completes with OK, and no domain changes. Nothing else changes but what follows from any command. (R119) -/
def Obligations.SwitchToTheSameStateChangesNothing : Prop :=
  ∀ (d t : Nat) (on : Bool) (rest : List DomSwitch) (s : State),
    s.power.queue = { dom := d, on := on, ticket := some t } :: rest → s.power.switching = none → supRuns s = true →
    domOn d s = on → (ticketsOf (fun l => l == .domain d on) s).contains t = true →
    exec .domainSwitchStart s = .next (settle s (completeTicket t rOk [w32 s.power.on.toNat] { s with power.queue := rest })) ∧
    (completeTicket t rOk [w32 s.power.on.toNat] { s with power.queue := rest }).power = { s.power with queue := rest }

/-- Where the lifecycle does not limit debug: a halt request halts a core that Fjarma or DEBUG_HOLD runs on, else waits;
a trigger halts it; resume and step act on a halted core, and from DEBUG_HOLD run only code that the agent stored. An
abstract command on a halted core reads or writes its register, a write tainting; the program buffer, when it is run,
taints and leaves registers and SRAM open (log 20). In DEPLOYED and RETIRED an abstract command and the program buffer
end with cmderr 2; on a running core with cmderr 4. The agent's access makes the module active (log 27). Nothing else
changes but what follows from any command. (R773; R774; R778; R779; R780; R781; 19_debug_and_test.md, Table 19-2) -/
def Obligations.DebugCoreEventsComplete : Prop :=
  (∀ (s : State), tapOn s = true → limited s = false → s.dbg.halted = false →
    let t : State := { s with dm.dmactive := true }
    exec .debugHalt s = .next (settle s (if haltable s then haltCore t else { t with dm.haltDue := true }))) ∧
  (∀ (s : State), tapOn s = true → limited s = true →
    exec .debugHalt s = .next (settle s { s with dm.dmactive := true })) ∧
  (∀ (s : State), tapOn s = true → limited s = false → s.dbg.halted = false → haltable s = true →
    exec .triggerHit s = .next (settle s (haltCore { s with dm.dmactive := true }))) ∧
  (∀ (s : State), tapOn s = true → limited s = false → s.dbg.halted = true →
    exec .debugResume s = .next (settle s (resumeCore { s with dm.dmactive := true })) ∧
    exec .debugStep s = .next (settle s (stepCore { s with dm.dmactive := true }))) ∧
  (∀ (r : BitVec 16) (v : BitVec 64) (s : State), tapOn s = true → limited s = false → s.dbg.halted = true →
    isReg r.toNat = true →
    let t : State := { s with dm.dmactive := true, dm.cmderr := 0 }
    exec (.abstractCommand true r v) s =
      .next (settle s (debugEntry 3 (r.toNat % 256) 0 v.toNat (taint (writeHart r.toNat v t)))) ∧
    (let x := readReg r.toNat s ||| (if r = 0x7B0 then 0x200 else 0)
    exec (.abstractCommand false r v) s = .next (settle s (emit (.debugRead x) { t with dm.data := x })))) ∧
  (∀ (w : Bool) (r : BitVec 16) (v : BitVec 64) (s : State), tapOn s = true → limited s = true ∨ s.dbg.halted = false →
    let t : State := { s with dm.dmactive := true, dm.cmderr := if limited s then 2 else 4 }
    exec (.abstractCommand w r v) s = .next (settle s t) ∧ exec .programBufferExec s = .next (settle s t)) ∧
  (∀ (s : State), tapOn s = true → limited s = false → s.dbg.halted = true →
    let t := taint (openCore { s with dm.dmactive := true, dm.cmderr := 0 })
    exec .programBufferExec s = .next (settle s { t with
      dbg.sram := [],
      dbg.reg := if dpcSet s then [(0x7B1, some (Config.hartValue t.dbg.runs 0x7B1))] else [] }))

/-- A TAP instruction of Table 19-1 takes effect, any other selects BYPASS; a scan after IDCODE shifts out 0x2481_2167,
one after SAMPLE, PRELOAD or EXTEST loads the boundary register, one after DMI writes a word of the program buffer or
the halt-on-reset request (the places are RISC-V's, log 153); a TAP reset selects IDCODE and clears the boundary
register. ndmreset enters reset 0x9 where the lifecycle allows; dmactive 0 resets the module but not the TAP. A
system-bus word access, at the address given or the one held, which moves on by 4 where asked to, reads or writes a BAR0
register, or on a halted core SRAM, a store tainting; a wrong size, alignment or address ends with sberror 4, 3 or 2 and
counts. A checker that locks on a looped lane counts errors from then on; a known-answer test ends with its result.
Nothing else changes but what follows from any command. (R769; R770; R771; R772; R773; R775; R776; R778; R792; R793;
R794; R798; 19_debug_and_test.md, Tables 19-1 to 19-4) -/
def Obligations.DebugPortEventsComplete : Prop :=
  (∀ (ir : BitVec 5) (s : State), tapOn s = true →
    exec (.tapInstruction { ir := ir, scan := none }) s = .next (settle s (setTap (
      if ir ∈ ([0x00, 0x01, 0x02, 0x08, 0x09, 0x10, 0x11] : List (BitVec 5)) then ir else 0x1F) s))) ∧
  (∀ (ir : BitVec 5) (v : BitVec 120) (s : State), tapOn s = true →
    exec (.tapInstruction { ir := ir, scan := some v }) s = .next (settle s (tapScan v (setTap (tapCode ir) s)))) ∧
  (∀ (v : BitVec 120) (s : State), tapOn s = true →
    exec (.tapInstruction { ir := 0x02, scan := some v }) s = .next (settle s (emit (.tdo 32 0x24812167) (setTap 0x02 s)))) ∧
  (∀ (ir : BitVec 5) (v : BitVec 120) (s : State), tapOn s = true → ir = 0x00 ∨ ir = 0x01 →
    let c := freeScan 120 (setTap ir s)
    exec (.tapInstruction { ir := ir, scan := some v }) s =
      .next (settle s { emit (.tdo 120 c.1) c.2 with dm.boundary := v })) ∧
  (∀ (w : Word) (k : Fin 4) (s : State), tapOn s = true → limited s = false →
    let c := freeScan 41 (setTap 0x11 s)
    let scan := fun (a : Nat) (d : Word) => BitVec.ofNat 120 (2 + 4 * d.toNat + 2 ^ 34 * a)
    exec (.tapInstruction { ir := 0x11, scan := some (scan (0x20 + k.val) w) }) s = .next (settle s { emit (.tdo 41 c.1) c.2 with
      dm.dmactive := true, dm.progbuf := upd s.dm.progbuf k (fun _ => w) }) ∧
    exec (.tapInstruction { ir := 0x11, scan := some (scan 0x10 0x9) }) s = .next (settle s { emit (.tdo 41 c.1) c.2 with
      dm.dmactive := true, dm.resetHalt := true }) ∧
    exec (.tapInstruction { ir := 0x11, scan := some (scan 0x10 0x5) }) s = .next (settle s { emit (.tdo 41 c.1) c.2 with
      dm.dmactive := true, dm.resetHalt := false })) ∧
  (∀ (s : State), tapOn s = true → exec .tapReset s = .next (settle s (setTap 0x02 { s with dm.boundary := 0 }))) ∧
  (∀ (s : State), tapOn s = true → limited s = false →
    exec .ndmreset s = .next (settle s (enterReset 9 0 { s with dm.dmactive := true }))) ∧
  (∀ (s : State), tapOn s = true →
    exec .dmactiveClear s = .next (settle s { s with dm := { ir := s.dm.ir, boundary := s.dm.boundary } })) ∧
  (∀ (x : SbAddress) (a : Nat) (s : State), tapOn s = true → originUp .debug s = true → sbaAt x s = a →
    a % 4 = 0 → a < 0x10000 → implemented a = true →
    let t : State := { s with dm.dmactive := true }
    exec (.sbaRead x 32) s = .next (settle s (sbaAdvance a (sbaAuto x) (bar0Read .debug a { t with
      dm.sberror := 0, dm.sbdata := bar0View .debug a t })))) ∧
  (∀ (x : SbAddress) (a : Nat) (v : Word) (s : State), tapOn s = true → originUp .debug s = true →
    sbaAt x s = a → a % 4 = 0 → a < 0x10000 → implemented a = true → limited s = false ∨ limitedWritable a = true →
    exec (.sbaWrite x 32 v) s = .next (settle s (sbaAdvance a (sbaAuto x)
      (bar0Write .debug a v { s with dm.dmactive := true, dm.sberror := 0 })))) ∧
  (∀ (x : SbAddress) (a : Nat) (v : Word) (s : State), tapOn s = true → originUp .debug s = true →
    sbaAt x s = a → inSram a = true → a % 4 = 0 → s.dbg.halted = true → limited s = false →
    exec (.sbaRead x 32) s = .next (settle s (sbaAdvance a (sbaAuto x) (readSram a { s with dm.dmactive := true }))) ∧
    exec (.sbaWrite x 32 v) s =
      .next (settle s (sbaAdvance a (sbaAuto x) (writeSram a v { s with dm.dmactive := true })))) ∧
  (∀ (x : SbAddress) (v : Word) (size : Nat) (e : BitVec 3) (s : State), tapOn s = true →
    originUp .debug s = true → sbaBad (sbaAt x s) size = some e →
    let t := sbaError e { s with dm.dmactive := true, dm.sbaddress := BitVec.ofNat 32 (sbaAt x s) }
    exec (.sbaRead x size) s = .next (settle s t) ∧ exec (.sbaWrite x size v) s = .next (settle s t)) ∧
  (∀ (lane errs : Nat) (s : State), (∃ t < 10, loopRuns t s = true ∧ lane ∈ loopLanes t) →
    exec (.prbsCheckerLock { lane := lane, errs := errs }) s = .next (settle s (count (0x9000 + 8 * lane) errs
      (if lane ∈ s.dbg.locked then s else { s with dbg.locked := s.dbg.locked ++ [lane] })))) ∧
  (∀ (pass : Bool) (t u : Nat) (s : State), katDue s = some (t, u) → supRuns s = true →
    exec (.diagKatDone pass) s = .next (settle s (completeTicket t rOk [w32 (b2n (!pass))] (
      if u < 16 then { s with cmp.engine := updN s.cmp.engine u (fun e => { e with off := !pass }) }
      else { s with cip.unit := updN s.cip.unit (u - 16) (fun e => { e with off := !pass }) }))))

/-- On a port that is up every frame counts its bytes, and one that finds the receive buffer full is discarded and counted. A
discarded frame counts itself. A request for an address of the port is answered with its MAC; an echo request to it, of
at most 1,472 bytes and within 1,000 a second, is echoed, and others are not. A reply for a known hop resolves it and
the QPs through it. A resolving hop is asked for again up to three times, then fails with its QPs (kind 0xA); a
resolved hop is confirmed by a new request. A finished detection lets its address answer. Frames go out on their
priority, or wait while it is paused (firmware's priority is log 183's). Nothing else changes but what follows from any
command. (R20; R343; R345; R346; R367; R368; R385; 08_ethernet_ingest.md, Tables 08-6 and 08-12) -/
def Obligations.EthernetFramesAndNeighboursComplete : Prop :=
  (∀ (p : Port) (bytes : Nat) (s : State), portUp p s = true →
    exec (.rxFrameDrop p bytes) s = .next (settle s (ethCount p 0x10 1 (ethCount p 0x00 bytes s)))) ∧
  (∀ (p : Port) (q : ArpReq) (s : State), portUp p s = true →
    let b := neighBytes (isV6 q.target) (tagged s.net.port[p])
    let t := ethCount p 0x00 b s
    exec (.arpRequest p q) s = .next (settle s (
      if rxLevel p t + b > 4194304 then ethCount p 0x10 1 t
      else if supRuns t = true ∧ ownAddress p q.target t = true then
        sendFirmware p b (.neighbourReply p q.sender (portMac p t)) t
      else t))) ∧
  (∀ (p : Port) (q : EchoReq) (s : State), portUp p s = true →
    let b := echoBytes (isV6 q.dst) (tagged s.net.port[p]) q.dataLen
    let t := ethCount p 0x00 b s
    let young := t.net.port[p].echoes.filter (fun x => decide (stampAge x t < 1000000000))
    exec (.echoRequest p q) s = .next (settle s (
      if rxLevel p t + b > 4194304 then ethCount p 0x10 1 t
      else if supRuns t = true ∧ ownAddress p q.dst t = true ∧ q.dataLen ≤ 1472 ∧ young.length < 1000 then
        sendFirmware p b (.echo p q.src q.dataLen) (modPort p (fun e => { e with echoes := now t :: young }) t)
      else t))) ∧
  (∀ (p : Port) (ip : Ip) (mac : BitVec 48) (s : State), portUp p s = true →
    let b := neighBytes (isV6 ip) (tagged s.net.port[p])
    let t := ethCount p 0x00 b s
    exec (.neighbourReply p ip mac) s = .next (settle s (
      if rxLevel p t + b > 4194304 then ethCount p 0x10 1 t
      else if supRuns t = true ∧ t.net.port[p].neigh.any (fun x => x.ip == ip) = true then
        resolveQps p ip (modPort p (fun e => { e with
          neigh := e.neigh.map (fun x => if x.ip = ip then { x with state := .resolved, mac := mac, tries := 0 } else x) }) t)
      else t))) ∧
  (∀ (p : Port) (k : Nat) (x : Neigh) (s : State), answers p s = true → s.net.port[p].neigh[k]? = some x →
    x.state = .resolving →
    exec (.neighbourRetry p k) s = .next (settle s (
      if x.tries < 3 then askHop p x.ip (modNeigh p k (fun x => { x with tries := x.tries + 1 }) s)
      else (qpsVia p x.ip s).foldl (fun s j => qpError p j 0xA 0 s)
        (modNeigh p k (fun x => { x with state := .failed }) s)))) ∧
  (∀ (p : Port) (k : Nat) (x : Neigh) (s : State), answers p s = true → s.net.port[p].neigh[k]? = some x →
    x.state = .resolved →
    exec (.neighbourConfirm p k) s = .next (settle s (askHop p x.ip
      (modNeigh p k (fun x => { x with state := .resolving, tries := 0 }) s)))) ∧
  (∀ (p : Port) (k : Nat) (s : State), portUp p s = true → (k = 0 ∨ (k = 1 ∧ s.net.port[p].ip6.isSome = true)) →
    exec (.dadDone p k) s = .next (settle s (modPort p (fun e => { e with dad := setBit e.dad k }) s))) ∧
  (∀ (p : Port) (prio bytes : Nat) (o : Out) (s : State), portRuns p s = true →
    sendFrame p prio bytes o s = if s.net.port[p].pausedRx.getLsbD prio
      then modPort p (fun e => { e with txq := e.txq ++ [(prio, bytes, o)] }) s else emit o (ethCount p 0x08 bytes s))

/-- An expected packet of a resolved QP in RTS, alone in the buffers with the pipe free, occupies the pipe and lands; waits
for ING where it closes a record; has no credit and is answered with RNR; or is a fault of Table 08-6 with its NAK. ING
takes a closing packet at the buffer's head once the pipe is free and the other buffer is not before it, unless a hold
stands. An ACK ends the messages up to its PSN; a sequence-error NAK does so up to the PSN before it and has the rest
sent again. A timeout sends everything from the oldest unacknowledged packet again, or after its last retry fails the
QP (kind 9); a remote NAK fails it (kind 0xC). A draining QP with no footprint and no message is gone: its partition is
free and its ticket completes. Nothing else changes but what follows from any command. (R347; R348; R352; R359; R364;
R365; R369; R370; R373; R376; R379; R390) -/
def Obligations.RocePacketsAndMessagesComplete : Prop :=
  (∀ (p : Port) (i : Fin 64) (q : Qp) (k : RocePkt) (s : State), portUp p s = true → s.net.port[p].rx = [] →
    s.net.port[otherPort p].rx = [] → s.net.pipe = 0 → qpOf p k = some i → getQp p i s = some q → k.ce = false →
    k.op ≠ .cnp → k.payload.length ≤ 4096 → q.resolved = true → q.state = .rts → k.psn = q.expPsn →
    let t := modPort p (fun e => { e with rx := [k] }) (ethCount p 0x00 (rxBytes p k s).1 s)
    let through := fun (u : State) => occupyPipe p k.payload.length (modPort p (fun e => { e with rx := [] }) u)
    exec (.inboundPacket p k) s = .next (settle s (
      match checkPkt q k with
      | .bad kind leaf nak => through (nakError p i k.psn kind leaf nak t)
      | .noCredit first => through (ethCount p 0x50 1 (sendNak p i first 3
          (modQp p i (fun q => { q with msg := none, expPsn := first }) t)))
      | .good m => if opCloses k.op then t else through (landPkt p i q k m t)))) ∧
  (∀ (p : Port) (i : Fin 64) (q : Qp) (k : RocePkt) (rest : List RocePkt) (m : InMsg) (s : State),
    s.net.port[p].rx = k :: rest → qpOf p k = some i → getQp p i s = some q → checkPkt q k = .good m →
    portRuns p s = true → opCloses k.op = true → q.state = .rts → canAccept s = true → refusalWaits q.stream s = false →
    (holdInForce s = true → exec (.closingPacketTaken p) s = .next (settle s s)) ∧
    (holdInForce s = false → s.net.pipe = 0 → (s.net.turn = p ∨ closingReady (otherPort p) s = none) →
      exec (.closingPacketTaken p) s = .next (settle s (occupyPipe p k.payload.length
        (takeClosing p i q k m (modPort p (fun e => { e with rx := e.rx.tail }) s)))))) ∧
  (∀ (p : Port) (i : Fin 64) (q : Qp) (psn : BitVec 24) (nak : Bool) (s : State), getQp p i s = some q →
    portUp p s = true →
    let b := frameBytes (isV6 q.remote) (tagged s.net.port[p]) 4
    let t := ethCount p 0x00 b s
    exec (.outboundAck p i { psn := psn, nak := nak }) s = .next (settle s (
      if rxLevel p t + b > 4194304 then ethCount p 0x10 1 t
      else if nak then retryAll p i (ackUpTo p i (psn - 1) t) else ackUpTo p i psn t)) ∧
    ackUpTo p i psn t = (q.outstanding.takeWhile (fun o => lastPsn o == psn || psnBehind (lastPsn o) psn)).foldl ackMsg
      (modQp p i (fun q => { q with outstanding := leftAfter psn q.outstanding }) t)) ∧
  (∀ (p : Port) (i : Fin 64) (q : Qp) (o : OutMsg) (rest : List OutMsg) (s : State), getQp p i s = some q →
    q.outstanding = o :: rest →
    exec (.ackTimeout p i) s = .next (settle s (
      if o.retries = 0 then qpError p i 9 3 s
      else (o :: rest).foldl (resend p i q)
        (modQp p i (fun q => { q with outstanding := { o with retries := o.retries - 1 } :: rest }) s)))) ∧
  (∀ (p : Port) (i : Fin 64) (q : Qp) (s : State), getQp p i s = some q → portUp p s = true → q.outstanding ≠ [] →
    let b := frameBytes (isV6 q.remote) (tagged s.net.port[p]) 4
    let t := ethCount p 0x00 b s
    exec (.remoteNak p i) s = .next (settle s (
      if rxLevel p t + b > 4194304 then ethCount p 0x10 1 t else qpError p i 0xC 0 t))) ∧
  (∀ (p : Port) (i : Fin 64) (q : Qp) (s : State), getQp p i s = some q → q.state = .draining → q.footprints = [] →
    q.outstanding = [] →
    let t := modPort p (fun e => { e with qp := upd e.qp i (fun _ => none) })
      (dropFrames true p i (freeExtents ((List.range q.mib).map (fun k => q.base + k)) s))
    exec (.qpDestroyDone p i) s = .next (settle s (match q.ticket with
      | some t' => completeTicket t' rOk [w32 q.discarded] t
      | none => t)))

/-- Once its receive buffer holds its XOFF level a port pauses its PFC priorities with quanta 65,535, repeats while it
pauses, and at its XON level sends quanta 0. Received quanta on enabled priorities pause or resume them, an expiry
resumes one, and waiting frames of resumed priorities go out. A pause of 100 ms latches ETH_p leaf 4. Alignment brings
the link up with its leaf and doorbell and completes the enabling; loss raises level-1 leaf 1 or 2 and starts the hold
time, whose end fails every QP in RTS (kind 0xB); an enabling that does not align ends with E_MEDIA. FEC counts
corrected codewords, and counts and latches uncorrectable ones. Nothing else changes but what follows from any command.
(R366; R368; R381; R382; R383; R385; R387; 08_ethernet_ingest.md, Tables 08-8 and 08-12) -/
def Obligations.EthernetPauseAndLinkEventsComplete : Prop :=
  (∀ (p : Port) (s : State), portUp p s = true → s.net.port[p].pausedTx = 0 → s.net.port[p].pfcEn ≠ 0 →
    s.net.port[p].xoff * 1024 ≤ rxLevel p s →
    exec (.xoff p) s = .next (settle s (emit (.pfc p s.net.port[p].pfcEn 65535)
      (ethCount p 0x28 1 (ethCount p 0x08 64 (modPort p (fun e => { e with pausedTx := e.pfcEn }) s)))))) ∧
  (∀ (p : Port) (s : State), portUp p s = true → s.net.port[p].pausedTx ≠ 0 →
    exec (.pfcRepeat p) s = .next (settle s (emit (.pfc p s.net.port[p].pfcEn 65535)
      (ethCount p 0x28 1 (ethCount p 0x08 64 s))))) ∧
  (∀ (p : Port) (s : State), portUp p s = true → s.net.port[p].pausedTx ≠ 0 → rxLevel p s ≤ s.net.port[p].xon * 1024 →
    exec (.xon p) s = .next (settle s (emit (.pfc p s.net.port[p].pfcEn 0)
      (ethCount p 0x28 1 (ethCount p 0x08 64 (modPort p (fun e => { e with pausedTx := 0, longTx := false }) s)))))) ∧
  (∀ (p : Port) (q : List (BitVec 16)) (en : Byte) (s : State), portUp p s = true →
    let e := s.net.port[p]
    exec (.pfcReceived p q en) s = .next (settle s (setPausedRx p (ofBits 8 (fun i =>
      if en.getLsbD i && e.pfcEn.getLsbD i then (q.getD i 0) != 0 else e.pausedRx.getLsbD i))
      (ethCount p 0x30 1 (ethCount p 0x00 64 s))))) ∧
  (∀ (p : Port) (prio : Fin 8) (s : State), s.net.port[p].pausedRx.getLsbD prio.val = true →
    exec (.receivedPauseExpiry p prio) s = .next (settle s (
      setPausedRx p (clrBit s.net.port[p].pausedRx prio.val) s))) ∧
  (∀ (p : Port) (s : State), portUp p s = true →
    (s.net.port[p].pausedRx ≠ 0 → exec (.pfcLong p true) s =
      .next (settle s (setLeaf (3 + p.val) 4 (modPort p (fun e => { e with longRx := true }) s)))) ∧
    (s.net.port[p].pausedTx ≠ 0 → exec (.pfcLong p false) s =
      .next (settle s (setLeaf (3 + p.val) 4 (modPort p (fun e => { e with longTx := true }) s))))) ∧
  (∀ (p : Port) (s : State), portRuns p s = true → (s.net.port[p].link = false ∨ s.net.port[p].aligned = false) →
    let t := modPort p (fun e => { e with link := true, aligned := true, holdRuns := false, dad := 0 }) s
    exec (.linkUp p) s = .next (settle s (completeWhere (fun w => w = .portEnable p) rOk []
      (ring 11 (setLeaf (3 + p.val) 0 { t with power.pll := setBit t.power.pll (2 + p.val) }))))) ∧
  (∀ (p : Port) (s : State), portRuns p s = true →
    (s.net.port[p].link = true → exec (.ethLinkDown p false) s = .next (settle s (raise1 (3 + p.val) (leafCode 0 1) 0 []
      (modPort p (fun e => { e with link := false, aligned := false, holdRuns := true }) s)))) ∧
    (s.net.port[p].aligned = true → exec (.ethLinkDown p true) s = .next (settle s (raise1 (3 + p.val) (leafCode 0 2) 0 []
      (modPort p (fun e => { e with aligned := false, holdRuns := true }) s))))) ∧
  (∀ (p : Port) (s : State), s.net.port[p].holdRuns = true →
    exec (.linkHoldExpiry p) s = .next (settle s ((List.finRange 64).foldl (fun s i => match getQp p i s with
      | some q => if q.state = .rts then qpError p i 0xB 0 s else s
      | none => s) (modPort p (fun e => { e with holdRuns := false }) s)))) ∧
  (∀ (p : Port) (s : State), s.net.port[p].aligned = false →
    exec (.portAlignTimeout p) s = .next (settle s (completeWhere (fun w => w = .portEnable p) rMedia [] s))) ∧
  (∀ (p : Port) (s : State), portUp p s = true →
    exec (.fecUncorr { port := p, corrected := true }) s = .next (settle s (ethCount p 0x18 1 s)) ∧
    exec (.fecUncorr { port := p, corrected := false }) s = .next (settle s (setLeaf (3 + p.val) 3 (ethCount p 0x20 1 s))))

/-- With the controller up, a trained link reports its speed, width and inverted lanes, with PCIE leaf 1 below 32.0 GT/s
or x16. A hot reset resets the controller, host channels and counters, detaches streams, ends restores to the host and
latches leaf 0. A configuration write changes its field (a size code that is not supported is not taken, log 179), and
the header reads its IDs, class and BARs; what paused for want of bus mastering, or in D3hot, goes on. A correctable
error counts and latches leaf 5; a fatal one raises the level-2 fault and halts the block. Nothing else changes but what
follows from any command. (R126; R127; R209; R291; R292; R293; R307; R318; R327; R334; R335; R337; R704;
07_pcie_and_dma.md, Table 07-11) -/
def Obligations.PcieLinkEventsComplete : Prop :=
  (∀ (speed width : Nat) (inv : BitVec 16) (s : State), hostUp s = true → 1 ≤ speed → speed ≤ 5 → width ∈ ([1, 2, 4, 8, 16] : List Nat) →
    let u := (List.range 16).foldl (fun s i => setInverted (112 + i) (inv.getLsbD i) s) s
    let t : State := { u with
      pcie.speed := BitVec.ofNat 4 speed, pcie.width := BitVec.ofNat 5 width, power.pll := setBit u.power.pll 1 }
    exec (.pcieLinkUp speed { width := width, inverted := inv }) s = .next (settle s (if speed < 5 ∨ width < 16 then setLeaf 1 1 t else t))) ∧
  (∀ (down : Bool) (s : State), hostUp s = true →
    exec (.hotReset down) s = .next (settle s (setLeaf 1 0 (pcieReset true s)))) ∧
  (∀ (s : State), (pcieReset true s).pcie = { cfgUp := true } ∧ (pcieReset true s).dma = { enabled := (pcieReset true s).dma.enabled, errInfo := 0 } ∧
    (pcieReset true s).irq.msixPending = false) ∧
  (∀ (b : Bool) (s : State), hostUp s = true →
    exec (.configSpaceWrite (.bme b)) s = .next (settle s (resumeStreams { s with pcie.bme := b })) ∧
    exec (.configSpaceWrite (.d3 b)) s = .next (settle s (resumeStreams { s with pcie.d3 := b }))) ∧
  (∀ (mps mrrs : BitVec 3) (ro ns tag10 : Bool) (s : State), hostUp s = true →
    exec (.configSpaceWrite (.devCtl mps mrrs ro ns tag10)) s = .next (settle s { s with
      pcie.mps := if mps.toNat ≤ 2 then mps else s.pcie.mps, pcie.mrrs := if mrrs.toNat ≤ 5 then mrrs else s.pcie.mrrs,
      pcie.roEn := ro, pcie.nsEn := ns, pcie.tag10 := tag10 })) ∧
  (∀ (en fn : Bool) (s : State), hostUp s = true →
    exec (.configSpaceWrite (.msix en fn)) s = .next (settle s { s with pcie.msixEnable := en, pcie.msixFnMask := fn })) ∧
  (∀ (v : Word) (s : State), hostUp s = true →
    exec (.configSpaceWrite (.bar 0x10 v)) s = .next (settle s { s with pcie.bar0 := v &&& 0xFFFF0000 }) ∧
    exec (.configSpaceWrite (.bar 0x1C v)) s =
      .next (settle s { s with pcie.bar2 := (v &&& 0xFFFFFFE0).setWidth 64 <<< 32 })) ∧
  (∀ (s : State), configHeader 0x00 s = some 0x48124E48 ∧ configHeader 0x08 s = some 0x01800020 ∧
    configHeader 0x10 s = some s.pcie.bar0 ∧ configHeader 0x14 s = some 0 ∧ configHeader 0x2C s = some 0x00014E48) ∧
  (∀ (s : State), hostUp s = true → exec .aerCorr s = .next (settle s (setLeaf 1 5 (count 0x8210 1 s)))) ∧
  (∀ (detail : BitVec 16) (s : State), hostUp s = true →
    exec (.aerFatal detail) s = .next (settle s (raise2 1 (leafCode 0 6) 1 0 s)))

/-- The entries of the SQ pull that is outstanding count their bytes, reserve their completions and join the stream's
pulls. A payload that came whole, no injector firing, is byte-swapped, lands and is drained in order. A landing writes
the last line and posts what may go out. A failing read of a descriptor or payload is UR, CA, poison or timeout, with
detail 1 to 4, its leaf and counter. A fetched descriptor is held or refused with its code; its end moves the bytes,
writes STATUS, moves HEAD and sets HDONE where asked. Nothing else changes but what follows from any command. (R300;
R302; R303; R306; R311; R312; R315; R328; R330; R331; R332; 07_pcie_and_dma.md, Tables 07-5, 07-8 and 07-21) -/
def Obligations.SubmissionAndHostChannelEventsComplete : Prop :=
  (∀ (i : Strm) (es : List (BitVec 512)) (s : State), pullComes i es.length s = true →
    let t := es.foldl (pullEntry i) (count 0x8200 (64 * es.length)
      (emit (.hostRead (sqPlace s.ing.stream[i]) (64 * es.length) false false) { s with dma.sqOut := none }))
    exec (.sqPull i es) s = .next (settle s (drainPulls i (2 * t.ing.stream[i].pulls.length) t))) ∧
  (∀ (i : Strm) (idx : Nat) (p : Pull) (payload : List Byte) (s : State), openPull i idx s = some p →
    payload.length = p.len → pcieAlive s = true → (s.dbg.armed.find? (fun a => a.code == 3)) = none →
    exec (.payloadPullDone i idx payload) s = .next (settle s (payloadIn i p payload s))) ∧
  (∀ (r : Nat) (v : Rec) (s : State), getRec r s = some v →
    let t := if v.landed then s else landRec r s
    exec (.landing r) s = .next (settle s (postStaged v.stream t.ing.stream[v.stream].order.length t))) ∧
  (∀ (t : ReadTarget) (s : State), readOpen t s = true →
    exec (.readCompletionError t .ur) s = .next (settle s (readFailed t 1 s)) ∧
    exec (.readCompletionError t .ca) s = .next (settle s (readFailed t 2 s)) ∧
    exec (.readCompletionError t .poison) s = .next (settle s (readFailed t 4 (raise1 1 (leafCode 0 3) 0 [] s))) ∧
    exec (.cplTimeout t) s = .next (settle s (readFailed t 3 (count 0x8218 1 (raise1 1 (leafCode 0 2) 0 [] s))))) ∧
  (∀ (c : Fin 8) (d : BitVec 256) (s : State), fetchComes c s = true →
    let t := count 0x8200 32 (modHost c (fun h => { h with fetching := false }) s)
    exec (.descriptorFetch c d) s = .next (settle s (
      match descRefused d t with
      | some (code, detail) => failDesc c code detail t
      | none => modHost c (fun h => { h with desc := some d, asked := false }) t))) ∧
  (∀ (c : Fin 8) (d : BitVec 256) (bs : List Byte) (s : State), s.dma.chan[c].desc = some d →
    (s.dbg.armed.find? (fun a => a.code == 3)) = none →
    (descDir d = false → s.dma.chan[c].asked = true → pcieAlive s = true → bs.length = descLen d →
      exec (.descriptorEnd c (.data bs)) s = .next (settle s (descIn c d bs s))) ∧
    (descDir d = true → pcieIssues s = true → s.dma.shareWr ≠ 0 → (descBarrier d = true → s.dma.shareRd ≠ 0) →
      exec (.descriptorEnd c (.data bs)) s = .next (settle s (descOut c d s))))

/-- A BAR2 read in reach sends its bytes, or all ones poisoned for a bad line; out of reach it is Unsupported Request. A
BAR2 write in reach writes whole lines and merges partial ones; in direct mode a narrow part refuses it whole; a
poisoned write is discarded with its level-1 fault. A narrow write from BAR2, a host channel or SUP enters the merge
buffer, or is refused in direct mode; one of a host channel outside its reach fails the descriptor. A write-back writes
the entry's line. The scrubber reads a valid line, its entry written back first, a pass counting at the last; a failing
stack raises the level-3 fault once. Nothing else changes but what follows from any command. (R316; R411; R414; R415;
R416; R417; R418; R419; R422; R428; R429; 09_staging_memory.md, Table 09-4) -/
def Obligations.StagingEventsComplete : Prop :=
  (∀ (off len : Nat) (u : Upset) (s : State), hostUp s = true → 0 < len →
    exec (.bar2Read off len u) s = .next (settle s (
      if hostReach false off len s then
        (match (readRange off len u s).2.1 with
          | .ok => emit (.bar2Read off (readRange off len u s).1 false) (readRange off len u s).2.2
          | .bad => emit (.bar2Read off (List.replicate len 0xFF) true) (afterRead .bad [] (readRange off len u s).2.2)
          | .control => afterRead .control [] (readRange off len u s).2.2)
      else emit (.unsupported off) (setLeaf 1 4 (count 0x8420 1 s))))) ∧
  (∀ (off : Nat) (data : List Byte) (s : State), hostUp s = true → data ≠ [] →
    exec (.bar2Write off data true) s = .next (settle s (raise1 1 (leafCode 0 3) 0 [] s)) ∧
    exec (.bar2Write off data false) s = .next (settle s (
      if hostReach true off data.length s = false then emit (.unsupported off) (setLeaf 1 4 (count 0x8420 1 s))
      else if (off % 64 ≠ 0 ∨ (off + data.length) % 64 ≠ 0) ∧ hostMerges s = false then urBar2 off (rejectNarrow s)
      else (writeMerged off data s).2))) ∧
  (∀ (off : Nat) (data : List Byte) (u : Upset) (s : State), isNarrow off data.length = true →
    (hostUp s = true → hostReach true off data.length s = true →
      exec (.narrowWrite .bar2 off data u) s = .next (settle s (
        if hostMerges s then (mergeWrite off data u s).2 else urBar2 off (rejectNarrow s)))) ∧
    (∀ (c : Fin 8) (d : BitVec 256), s.dma.chan[c].desc = some d → descDir d = false → s.dma.chan[c].asked = true →
      pcieAlive s = true → descStg d ≤ off → off + data.length ≤ descStg d + descLen d →
      exec (.narrowWrite (.dma c) off data u) s = .next (settle s (
        if hostReach true off data.length s = false then failDesc c rParam 0x07 s
        else if hostMerges s then
          (if (mergeWrite off data u s).1 = .aborted ∧ (mergeWrite off data u s).2.boot.phase = s.boot.phase then
            failDesc c rFault 0x05 (mergeWrite off data u s).2
          else (mergeWrite off data u s).2)
        else failDesc c rParam 0x06 (rejectNarrow s)))) ∧
    (supRuns s = true → s.stg.laidOut = true → off < 256 * extBytes →
      exec (.narrowWrite .sup off data u) s = .next (settle s (mergeWrite off data u s).2))) ∧
  (∀ (line : Nat) (s : State), exec (.mergeWriteBack line) s = .next (settle s (writeBack line s))) ∧
  (∀ (line : Nat) (u : Upset) (s : State), s.stg.scrubbing = true → lineValid line s = true →
    let r := readAny line u (writeBack line s)
    exec (.scrubLine line u) s = .next (settle s (afterRead r.1 [] (
      if lastScrubbed line r.2 then count 0x8428 1 r.2 else r.2)))) ∧
  (∀ (k : Fin 4) (s : State), s.stg.stackOk.getLsbD k.val = true →
    exec (.stackFail k) s = .next (settle s (raise3 6 (leafCode 0 6) 0 { s with stg.stackOk := clrBit s.stg.stackOk k.val })))

/-- With CMP running, a dispatch packs what it can, then gives the first free engine a waiting restore block, or, unless
the packer is stuck, the next block of the streams in turn. A block that left its engine with an agreeing self-check
is coded, counted and packed; one that disagreed, or met an armed injector, fails its record and takes the engine out
of service. SUP starts a due self-test, whose end returns the engine to service or leaves it out. Nothing else changes
but what follows from any command. (R427; R453; R455; R457; R458; R463; R465; 10_compression.md, Engines and
scheduling) -/
def Obligations.CompressionEventsComplete : Prop :=
  (∀ (e : Fin 16) (s : State), cmpOn s = true → (List.finRange 16).find? (fun e => engineFree e (packAll s)) = some e →
    let t := packAll s
    let give (j : CmpJob) (s : State) : State := { s with cmp.engine := upd s.cmp.engine e (fun x => { x with job := some j }) }
    (∀ r, decodeWaiting t = some r → exec .cmpDispatch s = .next (settle s (give (.decode r) t))) ∧
    (∀ (i : Strm) (r k : Nat), decodeWaiting t = none → packStuck t = false →
      (roundFrom t.cmp.turn).findSome? (fun i => (nextToCode i t).map (fun x => (i, x))) = some (i, r, k) →
      exec .cmpDispatch s = .next (settle s (give (.code r k) (modRec r (fun v => { v with holder := .cmp })
        (modBlk r k (fun b => { b with st := .inEngine }) { t with cmp.turn := i.val })))))) ∧
  (∀ (e : Fin 16) (r k : Nat) (s : State), cmpOn s = true → s.cmp.engine[e].job = some (.code r k) →
    (s.dbg.armed.find? (fun a => a.code == 4 && decide (a.p2.toNat = e.val))) = none →
    exec (.blockCoded e false) s = .next (settle s (selfCheckFailed e r s)) ∧
    (∀ (v : Rec) (orig : List Byte) (t : State), getRec r s = some v → v.verdict = none →
      readHeld r (blockRanges (profileOf v.stream s) v k) s = (some orig, t) →
      exec (.blockCoded e true) s = .next (settle s (blockCoded e r k orig v t)))) ∧
  (∀ (e : Fin 16) (s : State), cmpOn s = true → supRuns s = true → s.cmp.engine[e].katDue = true →
    exec (.engineKatStart e) s = .next (settle s { s with
      cmp.engine := upd s.cmp.engine e (fun x => { x with katDue := false, kat := true }) })) ∧
  (∀ (e : Fin 16) (pass : Bool) (s : State), cmpOn s = true → s.cmp.engine[e].kat = true →
    exec (.engineKatDone e pass) s = .next (settle s { s with
      cmp.engine := upd s.cmp.engine e (fun x => { x with kat := false, off := !pass }) }))

/-- The first free unit takes a waiting restore block, else a block to encrypt again, else the next packed block of the
streams in turn. A unit whose masks last encrypts its block under its slot's key and its IV, or encrypts it again. A
seed begins a new mask count; a core fault raises level 2; the entropy source fails once. A CLEARING slot that binds
no record is emptied. An unlock window that ends programs nothing and is tried again twice, then E_BUSY; a row that is
through is committed with its value and CRC and its command answers. Nothing else changes but what follows from any
command. (R474; R478; R485; R489; R492; R494; R498; R499; R502; R506; R509; 11_cipher_and_keys.md, Table 11-3) -/
def Obligations.CipherKeyAndFuseEventsComplete : Prop :=
  (∀ (u : Fin 8) (s : State), cipOn s = true → (List.finRange 8).find? (fun u => unitFree u s) = some u →
    (∀ q, nextRestore s = some q → exec .cipDispatch s = .next (settle s (dispatchRestore u q s))) ∧
    (∀ (r k : Nat) (v : Rec), nextRestore s = none → againWaiting s = some (r, k, v) →
      exec .cipDispatch s = .next (settle s (dispatchBlock u r k v (.again r k) .encrypted s))) ∧
    (∀ (i : Strm) (r k : Nat) (v : Rec), nextRestore s = none → againWaiting s = none →
      (roundFrom s.cip.turn).findSome? (fun i => (nextToEncrypt i s).map (fun x => (i, x))) = some (i, r, k, v) →
      exec .cipDispatch s =
        .next (settle s (dispatchBlock u r k v (.encrypt r k) .inUnit { s with cip.turn := i.val })))) ∧
  (∀ (u : Fin 8) (r k : Nat) (v : Rec) (p : List Byte) (s t : State), cipOn s = true →
    s.cip.unit[u].job = some (.encrypt r k) → liveRec r s = some v →
    masksLast u (aesBlocks (v.blocks.getD k {}).len) s = true →
    let b := v.blocks.getD k {}
    let w := freeUnit u (spendMasks u (aesBlocks b.len) s)
    slotLive (v.slot.getD 16) w = true → readHeld r (subRanges b.segs 16 b.len) w = (some p, t) →
    exec (.blockEncrypted u) s = .next (settle s (blockEncrypted r k (count 0x8600 1 (writeRanges b.segs
      (encryptedBlock (slotKey (v.slot.getD 16) t) (envelopeOf v t) k b.iv p) t))))) ∧
  (∀ (u : Fin 8) (r k : Nat) (v : Rec) (s : State), cipOn s = true →
    (List.finRange 8).findSome? (fun u => match s.cip.unit[u].job with
      | some (.again r k) => some (u, r, k)
      | _ => none) = some (u, r, k) → liveRec r s = some v →
    masksLast u (2 * aesBlocks (v.blocks.getD k {}).len) s = true →
    exec .reencryptBlock s = .next (settle s (encryptAgain r k v
      (freeUnit u (spendMasks u (2 * aesBlocks (v.blocks.getD k {}).len) s))))) ∧
  (∀ (u : Fin 8) (s : State), domOn 6 s = true → s.cip.entropyOk = true → haltedSrc 8 s = false →
    exec (.maskReseed u) s =
      .next (settle s { s with cip.unit := upd s.cip.unit u (fun x => { x with aes := 0, seedAt := now s }) })) ∧
  (∀ (u : Fin 8) (s : State), cipOn s = true → s.cip.unit[u].off = false →
    exec (.coreFault u) s = .next (settle s (raise2 8 (leafCode 0 4) 8 0 s))) ∧
  (∀ (s : State), keyOn s = true → s.cip.entropyOk = true → (s.dbg.armed.find? (fun a => a.code == 9)) = none →
    exec .entropyFail s =
      .next (settle s (raise2 9 (leafCode 0 5) 9 0 (count 0x8628 1 { s with cip.entropyOk := false })))) ∧
  (∀ (k : Fin 16) (s : State), s.cip.slot[k].state = .clearing → recsBound k.val s = 0 → domOn 6 s = true →
    let t := (recsWhere (fun v => v.slot == some k.val) s).foldl (fun s r => modRec r (fun v => { v with slot := none }) s) s
    exec (.keySlotEmptied k) s =
      .next (settle s (finishClears { t with cip.slot := upd t.cip.slot k (fun _ => {}) }))) ∧
  (∀ (op : NvOp) (s : State), s.nv.phase = .unlocked op →
    let t := setLeaf 9 4 { s with nv.phase := .idle }
    exec .unlockWindowExpiry s = .next (settle s (
      if op.tries ≥ 2 then nvKick (endNv op rBusy [] t)
      else nvKick { t with nv.queue := { op with tries := op.tries + 1 } :: t.nv.queue }))) ∧
  (∀ (op : NvOp) (row : Nat) (s t : State),
    (s.nv.phase = .row op row ∧ t = s) ∨
      (s.nv.phase = .unlocked op ∧ supRuns s = true ∧ s.aon.nvInhibit = false ∧
        (((s.nv.rows[op.item]?).getD []).zipIdx.find? (fun r => !r.1.started)).map (·.2) = some row ∧
        t = modRow op.item row (fun r => { r with started := true }) { s with nv.phase := .row op row }) →
    let w := endNv op rOk (rowWords op row) { modRow op.item row (fun r => { r with
      value := op.value, crc := rowCrc op.item op.value, commit := true }) t with nv.phase := .idle }
    exec .nvRowDone s = .next (settle s (nvKick (bootOn (if op.item = 0 then finishClears (retireKeys w) else w)))))

/-- On a starting port HELLO of version 1 is kept with the serial number, and another version, or none within 5 ms, ends
the start with W2 5; a lane that does not lock ends it with 1. Identity words from all ten inbound lanes set the lanes'
inversion; those that agree are noted, and a wrong lane or transport, a lane that is not aligned or a LOFF beyond 199
ends the start with W2 2, 3 or 4. With HELLO, identities and 16,384 credits on both lanes the port is UP and the
command answers OK. Until HELLO, LINK_START goes out again. Each failure idles the port and raises its leaf of
TRN_n_LINK_CAUSE at level 1. Nothing else changes but what follows from any command. (R91; R565; R567; R573; R575;
R589; 13_transports_and_head_links.md, Tables 13-5, 13-9 and 13-10) -/
def Obligations.LinkStartEventsComplete : Prop :=
  (∀ (n : Trn) (m : HelloMsg) (s : State), Heard n s → s.trn[n].port = .starting →
    exec (.hello n m) s = .next (settle s (
      if m.version = 1 then modTrn n (fun p => { p with hello := true, serial := m.serial }) s
      else linkFailed n 5 6 s))) ∧
  (∀ (n : Trn) (s : State), s.trn[n].port = .starting → s.trn[n].hello = false →
    exec (.helloTimeout n) s = .next (settle s (linkFailed n 5 6 s)) ∧
    exec (.linkStartResend n) s = .next (settle s (sendCtl n 0x01 (n.val + 0x100) [] s))) ∧
  (∀ (n : Trn) (lane : Fin 14) (s : State), s.trn[n].port = .starting → s.trn[n].identified = false → lane.val < 10 →
    exec (.laneLockTimeout n lane) s = .next (settle s (linkFailed n 1 0 s))) ∧
  (∀ (n : Trn) (ids : List LaneId) (s : State), s.trn[n].port = .starting →
    (∀ l : Fin 10, ∃ i ∈ ids, i.lane.val = l.val) →
    let t := ids.foldl (fun s i => setInverted (14 * n.val + i.lane.val) i.inverted s) s
    exec (.identityCheck n ids) s = .next (settle s (
      if ∃ i ∈ ids, field i.word 44 4 ≠ i.lane.val then linkFailed n 2 3 t
      else if ∃ i ∈ ids, field i.word 41 3 ≠ n.val then linkFailed n 3 3 t
      else if ∃ i ∈ ids, i.aligned = false ∨ 200 ≤ field i.word 33 8 then linkFailed n 4 4 t
      else modTrn n (fun p => { p with identified := true }) t))) ∧
  (∀ (n : Trn) (s : State), s.trn[n].port = .starting → s.trn[n].hello = true → s.trn[n].identified = true →
    s.trn[n].credit0 = 16384 → s.trn[n].credit1 = 16384 →
    exec (.portUp n) s = .next (settle s (checkStreams (completeWhere (fun w => w = .linkStart n) rOk [] (ring 14
      (modTrn n (fun p => { p with port := .up, linkTicket := none }) s)))))) ∧
  (∀ (n : Trn) (w2 bit : Nat) (s : State), linkFailed n w2 bit s = raise1 (11 + n.val) (leafCode 1 bit) 0 [] (ring 14
    (completeWhere (fun w => w = .linkStart n) rMedia [BitVec.ofNat 32 w2]
      (modTrn n (fun p => { p with port := .idle, linkTicket := none }) (idleDownlinks n s)))))

/-- CREDIT adds to a starting port's credits, saturating, and to an up port's, where more than 16,384 loses the transport.
MOTION_STAT is kept; a report of standstill ends what waited for it. CARTRIDGE is kept with a notice on change; it
ends a threading, or an unload with the bytes written. POWER with HOLDUP is a loss of supply. LANE_STAT gives a newly
lost role to the spare, else the transport is lost. SENSOR is kept; REG_DATA ends the far access; FAULT 1 to 3 loses
the transport. A spoiled message only counts. A KEEPALIVE goes out when due. Nothing else changes but what follows
from any command. (R571; R573; R574; R578; R579; R580; R586; R590; R591; R596; R653; 13_transports_and_head_links.md,
Tables 13-6 and 13-8) -/
def Obligations.StatusMessagesComplete : Prop :=
  (∀ (n : Trn) (a b : Nat) (s : State), Heard n s →
    (s.trn[n].port = .starting → exec (.credit n a b) s = .next (settle s (checkStreams (modTrn n (fun p => { p with
      credit0 := min 16384 (p.credit0 + a), credit1 := min 16384 (p.credit1 + b) }) s)))) ∧
    (s.trn[n].port = .up → exec (.credit n a b) s = .next (settle s (checkStreams (
      if s.trn[n].credit0 + a > 16384 ∨ s.trn[n].credit1 + b > 16384 then loseWith n (leafCode 1 5) rMedia s
      else spendCredits n (modTrn n (fun p => { p with credit0 := p.credit0 + a, credit1 := p.credit1 + b }) s)))))) ∧
  (∀ (n : Trn) (m : MotionMsg) (s : State), Heard n s →
    let t := modTrn n (fun p => { p with motion := m.state, speed := m.speed }) s
    exec (.motionStat n m) s = .next (settle s (checkStreams (
      if m.state = 0 then tapeStopped n (s.trn[n].motion != 0) t else t)))) ∧
  (∀ (n : Trn) (m : CartMsg) (s : State), Heard n s →
    let p := s.trn[n]
    let t := modTrn n (fun p => { p with
      cart := m.state, wp := m.wp, notXt1 := m.notXt1, cartId := m.id.getD 0, lengthMm := m.lengthMm.toNat }) s
    let u := if p.cart ≠ m.state ∨ p.wp ≠ m.wp ∨ p.notXt1 ≠ m.notXt1 then notice (11 + n.val) (leafCode 0 3) t else t
    (p.loading = none → (∀ k, p.unloading ≠ some (k, true)) →
      exec (.cartridge n m) s = .next (settle s (checkStreams u))) ∧
    (∀ l, p.loading = some l → l.phase = .threading → m.state = 2 →
      exec (.cartridge n m) s = .next (settle s (checkStreams (
        if m.notXt1 = true ∨ m.id = none then failLoad n rMedia u
        else loadLocate n (modTrn n (fun p => { p with loading := some { l with phase := .waiting } }) u))))) ∧
    (∀ k, p.loading = none → p.unloading = some (k, true) → m.state = 0 ∨ m.state = 1 →
      exec (.cartridge n m) s = .next (settle s (checkStreams (ring 14 (completeTicket k rOk
        [BitVec.ofNat 32 u.fmt.trn[n].written]
        (modGov n (fun g => { g with state := .parked, parked := false, locating := false })
        (modTrn n (fun p => { p with loaded := .nothing, unloading := none })
        (modFmt n (fun f => { f with full := false, written := 0 })
        (freeExtents u.rst.trn[n].extents (modRst n (fun r => { r with index := none, extents := [] }) u))))))))))) ∧
  (∀ (n : Trn) (m : PowerMsg) (s : State), Heard n s →
    let t := if m.holdup = true ∧ s.trn[n].port = .up ∧ s.trn[n].holdup = false then powerLoss n s else s
    exec (.power n m) s = .next (settle s (checkStreams (
      if m.restored then modTrn n (fun p => { p with restored := true }) t else t)))) ∧
  (∀ (n : Trn) (bits : Word) (s : State), Heard n s → s.trn[n].port = .up →
    let t := modTrn n (fun p => { p with lostRoles := BitVec.ofNat 4 bits.toNat }) s
    ((∀ k < 4, bits.getLsbD k = true → s.trn[n].lostRoles.getLsbD k = true) →
      exec (.laneStat n bits) s = .next (settle s (checkStreams t))) ∧
    (∀ r < 3, (∀ k < 4, (bits.getLsbD k && !s.trn[n].lostRoles.getLsbD k) = decide (k = r)) →
      exec (.laneStat n bits) s = .next (settle s (checkStreams (
        if s.trn[n].spareInUse = false ∧ bits.getLsbD 3 = false then takeOver n r (setTrnLeaf n 1 1 t)
        else loseWith n (leafCode 1 6) rMedia (setTrnLeaf n 1 1 t)))))) ∧
  (∀ (n : Trn) (temp : BitVec 16) (s : State), Heard n s →
    exec (.sensor n temp) s = .next (settle s (modTrn n (fun p => { p with headTemp := temp }) s)) ∧
    exec (.keepalive n) s = .next (settle s s)) ∧
  (∀ (n : Trn) (addr v : Word) (err : Bool) (q : FarReq) (rest : List FarReq) (s : State), Heard n s →
    s.trn[n].far = q :: rest → q.addr % 0x1000000 = addr.toNat % 0x1000000 →
    exec (.regData n addr v err) s = .next (settle s (
      if q.write then
        if err then farError q.origin 5 (popFar q.addr s)
        else modWin q.origin (fun w => { w with busy := false, far := .idle }) (farApply q.addr q.value (popFar q.addr s))
      else if q.live = false then popFar q.addr s
      else if err then farError q.origin 5 (popFar q.addr s)
      else farWord q.origin (farValue q.addr v (popFar q.addr s)) (popFar q.addr s)))) ∧
  (∀ (n : Trn) (kind : Byte) (s : State), Heard n s → s.trn[n].port = .up → 1 ≤ kind.toNat → kind.toNat ≤ 3 →
    exec (.fault n kind) s = .next (settle s (checkStreams (loseWith n (leafCode 0 5) rMedia s)))) ∧
  (∀ (n : Trn) (a : Injector) (s : State), rxUp n s = true →
    s.dbg.armed.find? (fun a => a.code == 7 && decide (a.p2.toNat = n.val)) = some a →
    let t := count (0x8718 + 0x40 * n.val) 1 { s with dbg.armed := s.dbg.armed.filter (fun a => a.code != 7) }
    (∀ m, exec (.hello n m) s = .next (settle s t)) ∧ (∀ x, exec (.sensor n x) s = .next (settle s t)) ∧
    (∀ x y e, exec (.regData n x y e) s = .next (settle s t)) ∧ exec (.keepalive n) s = .next (settle s t) ∧
    (∀ x y, exec (.credit n x y) s = .next (settle s (checkStreams t))) ∧
    (∀ m, exec (.motionStat n m) s = .next (settle s (checkStreams t))) ∧
    (∀ m, exec (.cartridge n m) s = .next (settle s (checkStreams t))) ∧
    (∀ m, exec (.power n m) s = .next (settle s (checkStreams t))) ∧
    (∀ x, exec (.laneStat n x) s = .next (settle s (checkStreams t))) ∧
    (∀ x, exec (.fault n x) s = .next (settle s (checkStreams t)))) ∧
  (∀ (n : Trn) (s : State), rxUp n s = true →
    exec (.statusMessageDiscard n) s = .next (settle s (count (0x8718 + 0x40 * n.val) 1 s))) ∧
  (∀ (n : Trn) (s : State), exec (.keepaliveDue n) s = .next (settle s (sendCtl n 0x7F 0 [] s)))

/-- On an up port a dead link, an inbound lane out of lock, a SYSREF error and, at speed, a speed error each lose the
transport with E_MEDIA and their leaf; a CRC-12 error only counts. A load that runs out of time fails with E_MEDIA. The
eighth invalid servo frame in a row loses the transport; a valid one sends ACTUATOR and, moving, WRITE_RATE, keeps the
position, and drops the gate off track or counts towards its return. A ramp fault of a stopping, restarting, turning,
locating or accelerating member counts and loses the transport at level 1 of GOV. Nothing else changes but what follows
from any command. (R576; R577; R579; R590; R631; R667; 13_transports_and_head_links.md, Table 13-8) -/
def Obligations.TransportLossEventsComplete : Prop :=
  (∀ (n : Trn) (s : State), s.trn[n].port = .up →
    exec (.linkDown n) s = .next (settle s (checkStreams (loseWith n (leafCode 1 6) rMedia s))) ∧
    exec (.sysrefErr n) s = .next (settle s (checkStreams (loseWith n (leafCode 1 4) rMedia s))) ∧
    (s.trn[n].motion = 2 → exec (.speedErr n) s = .next (settle s (checkStreams (loseWith n (leafCode 2 2) rMedia s))))) ∧
  (∀ (n : Trn) (lane : Fin 14) (s : State), s.trn[n].port = .up → lane.val < 10 →
    exec (.losIn n lane) s = .next (settle s (checkStreams (loseWith n (leafCode 1 0) rMedia s))) ∧
    exec (.jesdCrcError n lane) s = .next (settle s (count (0x8720 + 0x40 * n.val) 1 s))) ∧
  (∀ (n : Trn) (s : State), exec (.loadTimeout n) s = .next (settle s (failLoad n rMedia s))) ∧
  (∀ (n : Trn) (f : ServoFrame) (s : State), s.trn[n].port = .up → f.valid = false →
    exec (.servoFrame n f) s = .next (settle s (checkStreams (
      if s.trn[n].servoBad + 1 ≥ 8 then
        loseWith n (leafCode 2 1) rMedia (modTrn n (fun p => { p with servoBad := 0 })
          (modTrn n (fun p => { p with servoBad := p.servoBad + 1, servoGood := 0 }) s))
      else modTrn n (fun p => { p with servoBad := p.servoBad + 1, servoGood := 0 }) s)))) ∧
  (∀ (n : Trn) (f : ServoFrame) (s : State), s.trn[n].port = .up → f.valid = true →
    let t := sendCtl n 0x10 ((freeValue s).1.toNat % 65536) [] (freeValue s).2
    let u := if t.trn[n].motion = 0 then t else sendCtl n 0x11 (writeRate f.speed) [] t
    exec (.servoFrame n f) s = .next (settle s (checkStreams (onFrame n f
      (modTrn n (fun p => { p with servoBad := 0, lpos := f.lpos, pes := BitVec.ofInt 16 f.pes }) u))))) ∧
  (∀ (n : Trn) (s : State), govOn s = true →
    s.gov.mem[n].state ∈ ([.stopping, .restarting, .turning] : List GovState) ∨ s.gov.mem[n].locating = true ∨
      (s.gov.mem[n].state = .running ∧ s.trn[n].motion = 1) →
    exec (.rampFault n) s = .next (settle s (checkStreams (count 0x8A18 1 (raise1 20 (leafCode 0 4) 0
      (loseTransport n rMedia s).1 (loseTransport n rMedia s).2)))))

/-- At a boundary of a writing session whose member is ready, the next data set is chosen and, if there is one, writing
starts. A row with credits is built, padded at its flush timer. A row of 64 codewords is ruled by what the read channel
makes of each: it passes where each verifies and no injector fires; decodes are queued and counted, leaves noted. A
ruling that does not come raises level 1 and fails the row. A deep decode leaves the queue, a failed one counted. A
session whose items are all ruled is ended on tape, the member stopped, and a waiting unload sent. Nothing else changes
but what follows from any command. (R550; R599; R602; R604; R607; R608; R617; R625; R677; R678; R717;
16_read_channel_and_restore.md, Table 16-10) -/
def Obligations.WritingAndVerifyEventsComplete : Prop :=
  (∀ (n : Trn) (lpos : Nat) (s : State), fmtOn s = true → s.trn[n].loaded = .writing →
    s.fmt.trn[n].session.isSome = true → readyToWrite n s = true → atBoundary n s = true →
    let t := boundary n lpos (modGov n (fun g => { g with state := .running }) s)
    exec (.dataSetBoundary n lpos) s =
      .next (settle s (checkStreams (if t.fmt.trn[n].cur.isSome then startWriting n t else t)))) ∧
  (∀ (n : Trn) (s : State), fmtOn s = true → s.trn[n].gate = true → s.trn[n].credit0 ≥ rowBlocks →
    s.trn[n].credit1 ≥ rowBlocks →
    exec (.rowBuild n) s = .next (settle s (buildRow n false s)) ∧
    (s.fmt.trn[n].rowOpen = true → exec (.rowFlushTimer n) s = .next (settle s (buildRow n true s)))) ∧
  (∀ (n : Trn) (reads : List CwRead) (s : State), vrfOn n s = true → s.fmt.trn[n].unruled ≠ [] → reads.length = 64 →
    (s.dbg.armed.find? (fun a => a.code == 5 && decide (a.p2.toNat = n.val))) = none →
    let y := rowVerdicts n reads s
    let t := noteDecodes n y.1 y.2
    let u := if (∀ c ∈ y.1, c.verifies = true) ∧ (∃ c ∈ y.1, c.result.differ > 32) then setTrnLeaf n 3 1 t else t
    let w := if ∃ c ∈ y.1, c.verifies = false ∧ c.result.erased > 1024 then setTrnLeaf n 3 2 u else u
    exec (.rowRuled n reads) s = .next (settle s (checkStreams (ruleRow n (y.1.all (·.verifies)) w)))) ∧
  (∀ (n : Trn) (reads : List CwRead) (a : Injector) (s : State), vrfOn n s = true → s.fmt.trn[n].unruled ≠ [] →
    reads.length = 64 → s.dbg.armed.find? (fun a => a.code == 5 && decide (a.p2.toNat = n.val)) = some a →
    let y := rowVerdicts n reads { s with dbg.armed := s.dbg.armed.filter (fun a => a.code != 5) }
    (∀ c ∈ y.1, c.verifies = true) →
    exec (.rowRuled n reads) s = .next (settle s (checkStreams (ruleRow n false (noteDecodes n y.1 y.2))))) ∧
  (∀ (n : Trn) (s : State), vrfOn n s = true → s.fmt.trn[n].unruled ≠ [] →
    exec (.rulingTimeout n) s = .next (settle s (checkStreams (ruleRow n false (raise1 19 (leafCode 0 1) 0 [] s))))) ∧
  (∀ (n : Trn) (s : State), vrfOn n s = true → s.fmt.trn[n].deep ≠ 0 →
    exec (.deepDecodeDone n true) s = .next (settle s (modFmt n (fun f => { f with deep := f.deep - 1 }) s)) ∧
    exec (.deepDecodeDone n false) s =
      .next (settle s (count 0x8B08 1 (modFmt n (fun f => { f with deep := f.deep - 1 }) s)))) ∧
  (∀ (n : Trn) (x : Session) (s : State), s.fmt.trn[n].session = some x → x.ending = true → fmtOn s = true →
    s.fmt.trn[n].cur = none → itemsPending n s = false → readyToWrite n s = true → stopNow n s = false →
    let t := modTrn n (fun t => { t with loaded := .nothing }) (leadOutStop n (writeSessionEnd n (startWriting n s)))
    exec (.sessionEnd n) s = .next (settle s (checkStreams (match t.trn[n].unloading with
      | some (k, false) => modTrn n (fun p => { p with unloading := some (k, true) }) (sendCtl n 0x31 0 [] t)
      | _ => t))))

/-- A record whose completion no fault owes gets its final completion in its stream's order. Every flush whose records are
final answers with the last record number. A CLOSING stream with nothing left is CLOSED, its context and rings gone,
and its close answers with the records accepted. An evaluation takes parameters in force, moves the rate windows,
forms, holds, points, restarts and commands each group, and the external start counts no more; the hold's end clears
it. At a wrap's end a running member with no data set in hand writes the lead-out and turns. Nothing else
changes but what follows from any command. (R46; R557; R612; R637; R638; R646; R650; R655; R657; R658; R659; R666) -/
def Obligations.FinalCompletionsAndGovernorEventsComplete : Prop :=
  (∀ (r : Nat) (s : State), owedToFault r s = false →
    exec (.finalCompletionPosted r) s = .next (settle s (tryFinal r s))) ∧
  (∀ (i : Strm) (s : State), supRuns s = true →
    let met := s.ing.stream[i].flushes.filter (fun f => flushMet i f.2 s)
    exec (.streamFlushDone i) s = .next (settle s (met.foldl (fun s f =>
      completeTicket f.1 rOk (numberWords (f.2.getD noRecord)) s)
      (modStream i (fun m => { m with flushes := m.flushes.filter (fun f => !met.contains f) }) s)))) ∧
  (∀ (i : Strm) (t : Nat) (s : State), supRuns s = true → s.ing.stream[i].closeTicket = some t →
    s.ing.stream[i].state = .closing → s.ing.stream[i].order = [] → s.ing.stream[i].pulls = [] →
    s.ing.stream[i].held = [] → s.ing.stream[i].flushes = [] →
    let u := modStream i (fun m => { m with state := .closed, closeTicket := none, rings := none, reserved := 0,
                                            outExt := none, openDs := none, noTransport := false }) s
    exec (.streamCloseDone i) s = .next (settle s (checkStreams (completeTicket t rOk
      [BitVec.ofNat 32 s.ing.stream[i].accepted.toNat]
      (collect ((s.ing.stream[i].outExt.map (fun x => [x.1])).getD [])
        { u with cip.ctx := upd u.cip.ctx i (fun _ => none) }))))) ∧
  (∀ (s : State), govOn s = true →
    let t := evalRates (takeParams s)
    let gs := allGroups t
    let u := allTrn.foldl (fun s n => if gs.all (fun g => !g.getLsbD n.val) then
      modGov n (fun m => { m with
        group := 0, setPoint := 0, kReq := 0, below := 0, mode := 0, fixed := 0, restartDue := false }) s else s) t
    let v := gs.foldl (fun s g =>
      let r := formGroup g s
      let s := restartGroup g (groupPoint r.1 g ((groupMembers g).foldl (fun s n => holdMember n s) r.2))
      (groupMembers g).foldl (fun s n => commandMember n s) s) u
    let w := allTrn.foldl (fun s n => restartEnding n s) v
    exec .govEvaluation s = .next (settle s { w with gov.extEvent := false })) ∧
  (∀ (s : State), exec .extHoldExpiry s = .next (settle s { s with gov.extHold := false })) ∧
  (∀ (n : Trn) (s : State), govOn s = true → fmtOn s = true → s.gov.mem[n].state = .running →
    s.fmt.trn[n].session.isSome = true → s.fmt.trn[n].cur = none → s.fmt.trn[n].inWrap ≥ perWrap n s →
    s.trn[n].wrap < 191 →
    exec (.wrapTurn n) s = .next (settle s (modGov n (fun g => { g with state := .turning }) (leadOutStop n s))))

/-- A data set passes under the head of a transport that can be read, for its load or for restore: the ladder has it. A
decrypted block of a request has its version and index checked, its unit freed and its tag compared; a wrong header ends
the request's blocks there. A decoded block frees its engine and is delivered. A request whose result is out with
nothing unacknowledged answers its code and words. An index that is over answers NOTFOUND on an empty tape, else its
sessions, entries and flags, NORES where it overflowed; a rebuild answers entries, losses and the floor, and commits
where it must. Nothing else changes but what follows from any command. (R456; R458; R486; R499; R682; R683; R689; R690;
R691; R695; R696; R711) -/
def Obligations.RestoreEventsComplete : Prop :=
  (∀ (n : Trn) (d : DataSetRead) (s : State), canRead n s = true →
    (∀ l, s.trn[n].loading = some l → l.phase = .reading →
      exec (.restoreDataSetRead n d) s = .next (settle s (restoreReads n d s))) ∧
    (s.trn[n].loading = none → s.rst.trn[n].reading = true →
      exec (.restoreDataSetRead n d) s = .next (settle s (restoreReads n d s)))) ∧
  (∀ (t : Nat) (u : Fin 8) (q : Request) (e : Envelope) (bs : List Byte) (s w : State), cipOn s = true →
    unitFor t s = some u → findReq t s = some q → q.env = some e →
    masksLast u (aesBlocks (blockLen q e (reqKey q s) q.pos s - 32)) s = true →
    readRun q q.pos (blockLen q e (reqKey q s) q.pos s)
      (freeUnit u (spendMasks u (aesBlocks (blockLen q e (reqKey q s) q.pos s - 32)) s)) = (some bs, w) →
    exec (.restoreBlockDecrypted t) s = .next (settle s (
      if leAt bs 0 1 ≠ 1 ∨ leAt bs 1 1 ≠ q.index then
        settleReq t (modReq t (fun q => { q with broken := true, todo := [], got := q.pos }) w)
      else decrypted q e bs w))) ∧
  (∀ (t : Nat) (g : Fin 16) (q : Request) (e : Envelope) (p : List Byte) (tag : Bool) (rest : List (List Byte × Bool))
    (s : State), cmpOn s = true → engineFor t s = some g → findReq t s = some q → q.env = some e →
    q.plain = (p, tag) :: rest → outReady q s = true →
    exec (.restoreBlockDecoded t) s = .next (settle s (settleReq t (decoded q e p tag (freeEngine g s))))) ∧
  (∀ (t c : Nat) (q : Request) (s : State), supRuns s = true →
    let u := feedCached t 17 (settleReq t (pumpRaw t s))
    findReq t u = some q → q.code = some c → q.told = true → q.unacked = 0 →
    exec (.restoreRecordDone t) s = .next (settle s (completeTicket t c (reqWords q) (removeReq t u)))) ∧
  (∀ (n : Trn) (x : Scan) (s : State), supRuns s = true → s.rst.trn[n].scan = some x → x.phase = .ended →
    x.purpose = .index →
    (x.wraps = 0 → exec (.restoreIndexDone n) s = .next (settle s (nextScan n
      (completeTicket x.ticket rNotfound [] (modRst n (fun r => { r with index := none }) s))))) ∧
    (∀ i, x.wraps ≠ 0 → s.rst.trn[n].index = some i →
      exec (.restoreIndexDone n) s = .next (settle s (nextScan n (completeTicket x.ticket
        (if i.overflow then rNores else rOk)
        [BitVec.ofNat 32 i.sessions.length, BitVec.ofNat 32 ((i.sessions.map (fun x => x.pieces.length)).sum),
          pack [(0, b2n x.endDsi.isNone), (1, b2n i.manifestCrc)]]
        (modRst n (fun r => { r with index := some { i with noEnd := x.endDsi.isNone } }) s)))))) ∧
  (∀ (n : Trn) (x : Scan) (commit : Bool) (s t : State), supRuns s = true → s.rst.trn[n].scan = some x →
    x.phase = .ended → x.purpose = .rebuild commit →
    let new := foundAll s.trn[n].cartId.toNat x
    let f := rebuiltSession s.trn[n].cartId.toNat x
    fitIndex n (modRst n (fun r => { r with
      index := some { (r.index.getD {}) with sessions := new ++ (r.index.getD {}).sessions } }) s) = some t →
    (commit = false ∨ x.last = none →
      exec (.restoreRebuildDone n) s = .next (settle s (nextScan n (completeTicket x.ticket rOk
        [BitVec.ofNat 32 ((new.map (fun f => f.pieces.length)).sum), BitVec.ofNat 32 x.lost, 0, 0] t)))) ∧
    (∀ d, commit = true → x.last = some d →
      (∀ e m, x.endDsi = some e → x.newest = some m → m.no ≠ e.sessionNo) →
      exec (.restoreRebuildDone n) s = .next (settle s (nextScan n (completeTicket x.ticket rOk
        [BitVec.ofNat 32 ((new.map (fun f => f.pieces.length)).sum), BitVec.ofNat 32 x.lost,
          BitVec.ofNat 32 f.floor, BitVec.ofNat 32 (f.floor / 2 ^ 32)] (commitRebuild n d x f t))))))

/-- While a FOLLOW export runs and PCIe issues, its images and lines go out and then its header line; a line it reads that is
uncorrectable raises CTRL_UE at level 4. With the core running an anchor is started when due and a CHECK entry logged;
the ANCHOR entry makes the anchor complete, of a free image, and a FOLLOW export takes the image. The stamp wraps with
CCLK running: the epoch count rises, the leaf sets and the EPOCH entry is logged. A RING or FREEZE_BUF export that went
out answers its length, first stamp and place and counts; a failed write ends any export with E_FAULT and its detail,
and the leaf sets. Nothing else changes but what follows from any command. (R396; R742; R747; R748; R751; R752; R756;
R757; R761; R762; R765) -/
def Obligations.TetherEventsComplete : Prop :=
  (∀ (e : Export) (s : State), s.tether.exporting = some e → e.source = 2 → pcieIssues s = true →
    let x := exportReads (e.units / 4) (e.owed.map (·.1)) s
    let r := followAll e x.2
    exec .followHeader s = .next (settle s (
      if x.1 then raise4 6 (leafCode 0 7) x.2
      else { exportWrite e.addr (exportHeader 2 r.1.anchors.toNat (r.1.done % 2 ^ 64) r.1.first r.1.last r.2) r.2 with
        tether.exporting := some r.1 }))) ∧
  (∀ (s : State), coreRuns s = true → exec .anchorStart s = .next (settle s (startAnchor s))) ∧
  (∀ (k : Fin 2) (s : State), s.tether.anchoring = some k →
    let image := (freeValue s).2.free
    let t : State := { (freeValue s).2 with free := image + imageLength / 8 }
    let u := logEntry 0x03 (k.val + 256 * ((freeValue s).1.toNat % 2 ^ 56)) [(crc64 (imageBytes image)).toNat] t
    exec .anchorDone s = .next (settle s (followImage k image (storeAnchor k.val { u with
      tether.anchoring := none,
      tether.anchor := upd u.tether.anchor k (fun _ =>
        some { epoch := t.tether.epoch.toNat, stamp := now t, image := image }) })))) ∧
  (∀ (pc instret crc : BitVec 64) (s : State), coreRuns s = true →
    exec (.check pc instret crc) s = .next (settle s (
      logEntry 0x06 instret.toNat [pc.toNat % 2 ^ 40 + 2 ^ 64 * crc.toNat] s))) ∧
  (∀ (s : State), s.power.cclk = true →
    let t : State := { s with tether.stamp := 0, tether.epoch := s.tether.epoch + 1 }
    exec .epoch s = .next (settle s (setLeaf 24 3 (logEntry 0x02 t.tether.epoch.toNat [] t)))) ∧
  (∀ (e : Export) (s : State), s.tether.exporting = some e → e.source ≠ 2 → e.lent.isSome ∨ pcieIssues s = true →
    let x := if e.source = 0 then exportReads 0 ((List.finRange 2).filter (fun k => s.tether.anchor[k].isSome)) s
      else (false, s)
    let i := exportImage e x.2
    let off := (e.lent.map (fun l => l.1 * extBytes)).getD 0
    exec (.tetherExportDone 0) s = .next (settle s (
      if x.1 then raise4 6 (leafCode 0 7) x.2
      else setLeaf 24 1 (completeTicket e.ticket rOk
        [w32 i.1.length, w32 (i.1.length / 2 ^ 32), w32 i.2, w32 off, 0]
        (count 0x8D18 i.1.length { placeImage e i.1 x.2 with tether.exporting := none }))))) ∧
  (∀ (e : Export) (detail : Nat) (s : State), s.tether.exporting = some e → detail ≠ 0 →
    e.lent.isSome ∨ pcieIssues s = true →
    let off := (e.lent.map (fun l => l.1 * extBytes)).getD 0
    exec (.tetherExportDone detail) s = .next (settle s (setLeaf 24 1 (completeTicket e.ticket rFault
      [w32 e.done, w32 (e.done / 2 ^ 32), w32 ((e.first.map (·.2)).getD 0), w32 off, w32 detail]
      { s with
        tether.exporting := none,
        rst.lent := s.rst.lent.map (fun l => if l.2.2 = some e.ticket then (l.1, l.2.1, none) else l) }))))
end

