-- ==== Sys2Proof/Laws/Done.lean ====
section
/-!
SUPPORT. How a command's outcome is shown from its effect, without looking into what follows from any command.
-/
namespace Sys2Proof.Machine
open Sys2Proof Sys2Proof.Claims

/-- A command whose effect is `t` answers the next state `settle s t`. -/
theorem done_eq {f : State → State} {s t : State} (h : f s = t) : done f s = .next (settle s t) := by rw [done, h]

/-- The same where streams without a transport are looked at as well. -/
theorem doneS_eq {f : State → State} {s t : State} (h : f s = t) : doneS f s = .next (settle s (checkStreams t)) := by
  rw [doneS, done, h]

/-- A command with one condition, where the condition holds. -/
theorem done_if {p : Prop} [Decidable p] {s t u : State} (h : p) :
    done (fun _ => if p then t else u) s = .next (settle s t) := by rw [done, if_pos h]

end Sys2Proof.Machine
end

