-- ==== Sys2Proof/Laws/Maps.lean ====
section
/-!
SUPPORT. Finite maps: reading after writing, the canonical form that every operation keeps, and folds.
-/
namespace Sys2Proof.Machine
open Sys2Proof

theorem spGet_spPut {β : Type} (d : β) (m : List (Nat × β)) (j k : Nat) (x : β) :
    spGet d (spPut j x m) k = if k = j then x else spGet d m k := by
  induction m with
  | nil =>
    by_cases h : j = k
    · simp [spPut, spGet, h]
    · simp [spPut, spGet, h, Ne.symm h]
  | cons e t ih =>
    obtain ⟨a, v⟩ := e
    simp only [spPut]
    split
    · rename_i h
      by_cases hk : k = j
      · simp [spGet, hk]
      · simp [spGet, hk, Ne.symm hk]
    · split
      · rename_i h h'
        subst h'
        by_cases hk : k = j
        · simp [spGet, hk]
        · simp [spGet, hk, Ne.symm hk]
      · rename_i h h'
        simp only [spGet, ih]
        by_cases ha : a = k
        · subst ha; simp [Ne.symm h']
        · simp [ha]

theorem spGet_spDrop {β : Type} (d : β) (p : Nat → Bool) (m : List (Nat × β)) (k : Nat) :
    spGet d (spDrop p m) k = if p k = true then d else spGet d m k := by
  induction m with
  | nil => simp [spDrop, spGet]
  | cons e t ih =>
    obtain ⟨a, v⟩ := e
    simp only [spDrop, List.filter_cons] at ih ⊢
    by_cases ha : a = k
    · subst ha
      by_cases hp : p a = true <;> simp [hp, spGet] at ih ⊢
      exact ih
    · by_cases hp : p a = true <;> simp [hp, spGet, ha, ih]

/-- Reading after writing one key. -/
@[simp] theorem spGet_spSet {β : Type} [DecidableEq β] (d : β) (m : List (Nat × β)) (j k : Nat) (x : β) :
    spGet d (spSet d m j x) k = if k = j then x else spGet d m k := by
  unfold spSet
  split
  · rename_i h
    rw [spGet_spDrop]
    by_cases hk : k = j <;> simp [hk, h]
  · exact spGet_spPut d m j k x

/-- A canonical map without its first entry is canonical. -/
theorem spWf_tail {β : Type} [DecidableEq β] {d : β} {e : Nat × β} {t : List (Nat × β)} (h : spWf d (e :: t) = true) :
    spWf d t = true := by
  cases t with
  | nil => rfl
  | cons f t => simp only [spWf, Bool.and_eq_true] at h; exact h.2

/-- Canonical form in one line: no default is listed, and keys rise strictly. -/
theorem spWf_iff {β : Type} [DecidableEq β] (d : β) (m : List (Nat × β)) :
    spWf d m = true ↔ (∀ e ∈ m, e.2 ≠ d) ∧ m.Pairwise (fun a b => a.1 < b.1) := by
  induction m with
  | nil => simp [spWf]
  | cons e t ih =>
    cases t with
    | nil => simp [spWf]
    | cons f t =>
      simp only [spWf, Bool.and_eq_true, decide_eq_true_eq, ih]
      constructor
      · rintro ⟨⟨h1, h2⟩, h3, h4⟩
        refine ⟨fun x hx => ?_, ?_⟩
        · cases hx with
          | head => exact h1
          | tail _ hx => exact h3 x hx
        · refine List.pairwise_cons.mpr ⟨fun x hx => ?_, h4⟩
          cases hx with
          | head => exact h2
          | tail _ hx => exact Nat.lt_trans h2 ((List.pairwise_cons.mp h4).1 x hx)
      · rintro ⟨h1, h2⟩
        have h2 := List.pairwise_cons.mp h2
        exact ⟨⟨h1 e (by simp), h2.1 f (by simp)⟩, fun x hx => h1 x (List.mem_cons_of_mem _ hx), h2.2⟩

/-- Dropping keys keeps the canonical form. -/
theorem spWf_spDrop {β : Type} [DecidableEq β] {d : β} (p : Nat → Bool) {m : List (Nat × β)} (h : spWf d m = true) :
    spWf d (spDrop p m) = true := by
  rw [spWf_iff] at h ⊢
  exact ⟨fun e he => h.1 e (List.mem_filter.mp he).1, h.2.filter _⟩

theorem spPut_mem {β : Type} (j : Nat) (x : β) (m : List (Nat × β)) (e : Nat × β) (h : e ∈ spPut j x m) :
    e = (j, x) ∨ e ∈ m := by
  induction m with
  | nil => simpa [spPut] using h
  | cons f t ih =>
    simp only [spPut] at h
    split at h
    · simpa using h
    · split at h
      · simp only [List.mem_cons] at h ⊢
        rcases h with h | h
        · exact .inl h
        · exact .inr (.inr h)
      · simp only [List.mem_cons] at h ⊢
        rcases h with h | h
        · exact .inr (.inl h)
        · rcases ih h with h | h
          · exact .inl h
          · exact .inr (.inr h)

theorem spWf_spPut {β : Type} [DecidableEq β] {d : β} (j : Nat) (x : β) {m : List (Nat × β)} (hx : x ≠ d)
    (h : spWf d m = true) : spWf d (spPut j x m) = true := by
  rw [spWf_iff] at h ⊢
  refine ⟨fun e he => ?_, ?_⟩
  · rcases spPut_mem j x m e he with rfl | h'
    · exact hx
    · exact h.1 e h'
  · obtain ⟨-, h⟩ := h
    induction m with
    | nil => simp [spPut]
    | cons f t ih =>
      have hf := List.pairwise_cons.mp h
      simp only [spPut]
      split
      · rename_i hj
        refine List.pairwise_cons.mpr ⟨fun e he => ?_, h⟩
        cases he with
        | head => exact hj
        | tail _ he => exact Nat.lt_trans hj (hf.1 e he)
      · split
        · rename_i hj
          exact List.pairwise_cons.mpr ⟨fun e he => hj ▸ hf.1 e he, hf.2⟩
        · rename_i h1 h2
          refine List.pairwise_cons.mpr ⟨fun e he => ?_, ih hf.2⟩
          rcases spPut_mem j x t e he with rfl | h'
          · show f.1 < j
            omega
          · exact hf.1 e h'

/-- Writing a key keeps the canonical form. -/
theorem spWf_spSet {β : Type} [DecidableEq β] {d : β} (j : Nat) (x : β) {m : List (Nat × β)} (h : spWf d m = true) :
    spWf d (spSet d m j x) = true := by
  unfold spSet
  split
  · exact spWf_spDrop _ h
  · exact spWf_spPut j x ‹_› h

/-- What every step of a fold keeps, the fold keeps. -/
theorem foldl_keeps {α σ : Type} (P : σ → Prop) (f : σ → α → σ) (hf : ∀ s a, P s → P (f s a)) (as : List α) (s : σ)
    (h : P s) : P (as.foldl f s) := by
  induction as generalizing s with
  | nil => exact h
  | cons a as ih => exact ih _ (hf _ _ h)

end Sys2Proof.Machine
end

