-- ==== Sys2Proof/Laws/State.lean ====
section
/-!
SUPPORT. What each small update of the state changes: one line for each field, true by unfolding.
-/
namespace Sys2Proof.Machine
open Sys2Proof

/-! ### `emit` -/

@[simp] theorem emit_pending (o : Out) (s : State) : (emit o s).pending = s.pending := rfl
@[simp] theorem emit_regs (o : Out) (s : State) : (emit o s).regs = s.regs := rfl
@[simp] theorem emit_i2c (o : Out) (s : State) : (emit o s).i2c = s.i2c := rfl
@[simp] theorem emit_irq (o : Out) (s : State) : (emit o s).irq = s.irq := rfl
@[simp] theorem emit_faults (o : Out) (s : State) : (emit o s).faults = s.faults := rfl
@[simp] theorem emit_mbx (o : Out) (s : State) : (emit o s).mbx = s.mbx := rfl
@[simp] theorem emit_aon (o : Out) (s : State) : (emit o s).aon = s.aon := rfl
@[simp] theorem emit_power (o : Out) (s : State) : (emit o s).power = s.power := rfl
@[simp] theorem emit_boot (o : Out) (s : State) : (emit o s).boot = s.boot := rfl
@[simp] theorem emit_aux (o : Out) (s : State) : (emit o s).aux = s.aux := rfl
@[simp] theorem emit_pcie (o : Out) (s : State) : (emit o s).pcie = s.pcie := rfl
@[simp] theorem emit_dma (o : Out) (s : State) : (emit o s).dma = s.dma := rfl
@[simp] theorem emit_net (o : Out) (s : State) : (emit o s).net = s.net := rfl
@[simp] theorem emit_stg (o : Out) (s : State) : (emit o s).stg = s.stg := rfl
@[simp] theorem emit_cmp (o : Out) (s : State) : (emit o s).cmp = s.cmp := rfl
@[simp] theorem emit_cip (o : Out) (s : State) : (emit o s).cip = s.cip := rfl
@[simp] theorem emit_nv (o : Out) (s : State) : (emit o s).nv = s.nv := rfl
@[simp] theorem emit_ing (o : Out) (s : State) : (emit o s).ing = s.ing := rfl
@[simp] theorem emit_trn (o : Out) (s : State) : (emit o s).trn = s.trn := rfl
@[simp] theorem emit_fmt (o : Out) (s : State) : (emit o s).fmt = s.fmt := rfl
@[simp] theorem emit_gov (o : Out) (s : State) : (emit o s).gov = s.gov := rfl
@[simp] theorem emit_rst (o : Out) (s : State) : (emit o s).rst = s.rst := rfl
@[simp] theorem emit_therm (o : Out) (s : State) : (emit o s).therm = s.therm := rfl
@[simp] theorem emit_tether (o : Out) (s : State) : (emit o s).tether = s.tether := rfl
@[simp] theorem emit_dm (o : Out) (s : State) : (emit o s).dm = s.dm := rfl
@[simp] theorem emit_dbg (o : Out) (s : State) : (emit o s).dbg = s.dbg := rfl
@[simp] theorem emit_out (o : Out) (s : State) : (emit o s).out = o :: s.out := rfl
@[simp] theorem emit_free (o : Out) (s : State) : (emit o s).free = s.free := rfl
@[simp] theorem emit_rateRoom (o : Out) (s : State) : (emit o s).rateRoom = s.rateRoom := rfl

/-! ### `count` -/

@[simp] theorem count_pending (off k : Nat) (s : State) : (count off k s).pending = s.pending := rfl
@[simp] theorem count_regs (off k : Nat) (s : State) :
    (count off k s).regs = { s.regs with
      counters := if counterRuns off s = true then
        spSet 0 s.regs.counters off (spGet 0 s.regs.counters off + BitVec.ofNat 48 k)
      else s.regs.counters } := rfl
@[simp] theorem count_i2c (off k : Nat) (s : State) : (count off k s).i2c = s.i2c := rfl
@[simp] theorem count_irq (off k : Nat) (s : State) : (count off k s).irq = s.irq := rfl
@[simp] theorem count_faults (off k : Nat) (s : State) : (count off k s).faults = s.faults := rfl
@[simp] theorem count_mbx (off k : Nat) (s : State) : (count off k s).mbx = s.mbx := rfl
@[simp] theorem count_aon (off k : Nat) (s : State) : (count off k s).aon = s.aon := rfl
@[simp] theorem count_power (off k : Nat) (s : State) : (count off k s).power = s.power := rfl
@[simp] theorem count_boot (off k : Nat) (s : State) : (count off k s).boot = s.boot := rfl
@[simp] theorem count_aux (off k : Nat) (s : State) : (count off k s).aux = s.aux := rfl
@[simp] theorem count_pcie (off k : Nat) (s : State) : (count off k s).pcie = s.pcie := rfl
@[simp] theorem count_dma (off k : Nat) (s : State) : (count off k s).dma = s.dma := rfl
@[simp] theorem count_net (off k : Nat) (s : State) : (count off k s).net = s.net := rfl
@[simp] theorem count_stg (off k : Nat) (s : State) : (count off k s).stg = s.stg := rfl
@[simp] theorem count_cmp (off k : Nat) (s : State) : (count off k s).cmp = s.cmp := rfl
@[simp] theorem count_cip (off k : Nat) (s : State) : (count off k s).cip = s.cip := rfl
@[simp] theorem count_nv (off k : Nat) (s : State) : (count off k s).nv = s.nv := rfl
@[simp] theorem count_ing (off k : Nat) (s : State) : (count off k s).ing = s.ing := rfl
@[simp] theorem count_trn (off k : Nat) (s : State) : (count off k s).trn = s.trn := rfl
@[simp] theorem count_fmt (off k : Nat) (s : State) : (count off k s).fmt = s.fmt := rfl
@[simp] theorem count_gov (off k : Nat) (s : State) : (count off k s).gov = s.gov := rfl
@[simp] theorem count_rst (off k : Nat) (s : State) : (count off k s).rst = s.rst := rfl
@[simp] theorem count_therm (off k : Nat) (s : State) : (count off k s).therm = s.therm := rfl
@[simp] theorem count_tether (off k : Nat) (s : State) : (count off k s).tether = s.tether := rfl
@[simp] theorem count_dm (off k : Nat) (s : State) : (count off k s).dm = s.dm := rfl
@[simp] theorem count_dbg (off k : Nat) (s : State) : (count off k s).dbg = s.dbg := rfl
@[simp] theorem count_out (off k : Nat) (s : State) : (count off k s).out = s.out := rfl
@[simp] theorem count_free (off k : Nat) (s : State) : (count off k s).free = s.free := rfl
@[simp] theorem count_rateRoom (off k : Nat) (s : State) : (count off k s).rateRoom = s.rateRoom := rfl

/-! ### `setLeaf` -/

@[simp] theorem setLeaf_pending (src bit : Nat) (s : State) : (setLeaf src bit s).pending = s.pending := rfl
@[simp] theorem setLeaf_regs (src bit : Nat) (s : State) : (setLeaf src bit s).regs = s.regs := rfl
@[simp] theorem setLeaf_i2c (src bit : Nat) (s : State) : (setLeaf src bit s).i2c = s.i2c := rfl
@[simp] theorem setLeaf_irq (src bit : Nat) (s : State) :
    (setLeaf src bit s).irq =
      { s.irq with cause := updN s.irq.cause src (fun w => if srcOn src s then setBit w bit else w) } := rfl
@[simp] theorem setLeaf_faults (src bit : Nat) (s : State) : (setLeaf src bit s).faults = s.faults := rfl
@[simp] theorem setLeaf_mbx (src bit : Nat) (s : State) : (setLeaf src bit s).mbx = s.mbx := rfl
@[simp] theorem setLeaf_aon (src bit : Nat) (s : State) : (setLeaf src bit s).aon = s.aon := rfl
@[simp] theorem setLeaf_power (src bit : Nat) (s : State) : (setLeaf src bit s).power = s.power := rfl
@[simp] theorem setLeaf_boot (src bit : Nat) (s : State) : (setLeaf src bit s).boot = s.boot := rfl
@[simp] theorem setLeaf_aux (src bit : Nat) (s : State) : (setLeaf src bit s).aux = s.aux := rfl
@[simp] theorem setLeaf_pcie (src bit : Nat) (s : State) : (setLeaf src bit s).pcie = s.pcie := rfl
@[simp] theorem setLeaf_dma (src bit : Nat) (s : State) : (setLeaf src bit s).dma = s.dma := rfl
@[simp] theorem setLeaf_net (src bit : Nat) (s : State) : (setLeaf src bit s).net = s.net := rfl
@[simp] theorem setLeaf_stg (src bit : Nat) (s : State) : (setLeaf src bit s).stg = s.stg := rfl
@[simp] theorem setLeaf_cmp (src bit : Nat) (s : State) : (setLeaf src bit s).cmp = s.cmp := rfl
@[simp] theorem setLeaf_cip (src bit : Nat) (s : State) : (setLeaf src bit s).cip = s.cip := rfl
@[simp] theorem setLeaf_nv (src bit : Nat) (s : State) : (setLeaf src bit s).nv = s.nv := rfl
@[simp] theorem setLeaf_ing (src bit : Nat) (s : State) : (setLeaf src bit s).ing = s.ing := rfl
@[simp] theorem setLeaf_trn (src bit : Nat) (s : State) : (setLeaf src bit s).trn = s.trn := rfl
@[simp] theorem setLeaf_fmt (src bit : Nat) (s : State) : (setLeaf src bit s).fmt = s.fmt := rfl
@[simp] theorem setLeaf_gov (src bit : Nat) (s : State) : (setLeaf src bit s).gov = s.gov := rfl
@[simp] theorem setLeaf_rst (src bit : Nat) (s : State) : (setLeaf src bit s).rst = s.rst := rfl
@[simp] theorem setLeaf_therm (src bit : Nat) (s : State) : (setLeaf src bit s).therm = s.therm := rfl
@[simp] theorem setLeaf_tether (src bit : Nat) (s : State) : (setLeaf src bit s).tether = s.tether := rfl
@[simp] theorem setLeaf_dm (src bit : Nat) (s : State) : (setLeaf src bit s).dm = s.dm := rfl
@[simp] theorem setLeaf_dbg (src bit : Nat) (s : State) : (setLeaf src bit s).dbg = s.dbg := rfl
@[simp] theorem setLeaf_out (src bit : Nat) (s : State) : (setLeaf src bit s).out = s.out := rfl
@[simp] theorem setLeaf_free (src bit : Nat) (s : State) : (setLeaf src bit s).free = s.free := rfl
@[simp] theorem setLeaf_rateRoom (src bit : Nat) (s : State) : (setLeaf src bit s).rateRoom = s.rateRoom := rfl

/-! ### `ring` -/

@[simp] theorem ring_pending (b : Nat) (s : State) : (ring b s).pending = s.pending := rfl
@[simp] theorem ring_regs (b : Nat) (s : State) : (ring b s).regs = s.regs := rfl
@[simp] theorem ring_i2c (b : Nat) (s : State) : (ring b s).i2c = s.i2c := rfl
@[simp] theorem ring_irq (b : Nat) (s : State) : (ring b s).irq = s.irq := rfl
@[simp] theorem ring_faults (b : Nat) (s : State) : (ring b s).faults = s.faults := rfl
@[simp] theorem ring_mbx (b : Nat) (s : State) :
    (ring b s).mbx = { s.mbx with dbStat := setBit s.mbx.dbStat b } := rfl
@[simp] theorem ring_aon (b : Nat) (s : State) : (ring b s).aon = s.aon := rfl
@[simp] theorem ring_power (b : Nat) (s : State) : (ring b s).power = s.power := rfl
@[simp] theorem ring_boot (b : Nat) (s : State) : (ring b s).boot = s.boot := rfl
@[simp] theorem ring_aux (b : Nat) (s : State) : (ring b s).aux = s.aux := rfl
@[simp] theorem ring_pcie (b : Nat) (s : State) : (ring b s).pcie = s.pcie := rfl
@[simp] theorem ring_dma (b : Nat) (s : State) : (ring b s).dma = s.dma := rfl
@[simp] theorem ring_net (b : Nat) (s : State) : (ring b s).net = s.net := rfl
@[simp] theorem ring_stg (b : Nat) (s : State) : (ring b s).stg = s.stg := rfl
@[simp] theorem ring_cmp (b : Nat) (s : State) : (ring b s).cmp = s.cmp := rfl
@[simp] theorem ring_cip (b : Nat) (s : State) : (ring b s).cip = s.cip := rfl
@[simp] theorem ring_nv (b : Nat) (s : State) : (ring b s).nv = s.nv := rfl
@[simp] theorem ring_ing (b : Nat) (s : State) : (ring b s).ing = s.ing := rfl
@[simp] theorem ring_trn (b : Nat) (s : State) : (ring b s).trn = s.trn := rfl
@[simp] theorem ring_fmt (b : Nat) (s : State) : (ring b s).fmt = s.fmt := rfl
@[simp] theorem ring_gov (b : Nat) (s : State) : (ring b s).gov = s.gov := rfl
@[simp] theorem ring_rst (b : Nat) (s : State) : (ring b s).rst = s.rst := rfl
@[simp] theorem ring_therm (b : Nat) (s : State) : (ring b s).therm = s.therm := rfl
@[simp] theorem ring_tether (b : Nat) (s : State) : (ring b s).tether = s.tether := rfl
@[simp] theorem ring_dm (b : Nat) (s : State) : (ring b s).dm = s.dm := rfl
@[simp] theorem ring_dbg (b : Nat) (s : State) : (ring b s).dbg = s.dbg := rfl
@[simp] theorem ring_out (b : Nat) (s : State) : (ring b s).out = s.out := rfl
@[simp] theorem ring_free (b : Nat) (s : State) : (ring b s).free = s.free := rfl
@[simp] theorem ring_rateRoom (b : Nat) (s : State) : (ring b s).rateRoom = s.rateRoom := rfl

/-! ### `modTrn` -/

@[simp] theorem modTrn_pending (n : Trn) (f : TrnPort → TrnPort) (s : State) :
    (modTrn n f s).pending = s.pending := rfl
@[simp] theorem modTrn_regs (n : Trn) (f : TrnPort → TrnPort) (s : State) : (modTrn n f s).regs = s.regs := rfl
@[simp] theorem modTrn_i2c (n : Trn) (f : TrnPort → TrnPort) (s : State) : (modTrn n f s).i2c = s.i2c := rfl
@[simp] theorem modTrn_irq (n : Trn) (f : TrnPort → TrnPort) (s : State) : (modTrn n f s).irq = s.irq := rfl
@[simp] theorem modTrn_faults (n : Trn) (f : TrnPort → TrnPort) (s : State) : (modTrn n f s).faults = s.faults := rfl
@[simp] theorem modTrn_mbx (n : Trn) (f : TrnPort → TrnPort) (s : State) : (modTrn n f s).mbx = s.mbx := rfl
@[simp] theorem modTrn_aon (n : Trn) (f : TrnPort → TrnPort) (s : State) : (modTrn n f s).aon = s.aon := rfl
@[simp] theorem modTrn_power (n : Trn) (f : TrnPort → TrnPort) (s : State) : (modTrn n f s).power = s.power := rfl
@[simp] theorem modTrn_boot (n : Trn) (f : TrnPort → TrnPort) (s : State) : (modTrn n f s).boot = s.boot := rfl
@[simp] theorem modTrn_aux (n : Trn) (f : TrnPort → TrnPort) (s : State) : (modTrn n f s).aux = s.aux := rfl
@[simp] theorem modTrn_pcie (n : Trn) (f : TrnPort → TrnPort) (s : State) : (modTrn n f s).pcie = s.pcie := rfl
@[simp] theorem modTrn_dma (n : Trn) (f : TrnPort → TrnPort) (s : State) : (modTrn n f s).dma = s.dma := rfl
@[simp] theorem modTrn_net (n : Trn) (f : TrnPort → TrnPort) (s : State) : (modTrn n f s).net = s.net := rfl
@[simp] theorem modTrn_stg (n : Trn) (f : TrnPort → TrnPort) (s : State) : (modTrn n f s).stg = s.stg := rfl
@[simp] theorem modTrn_cmp (n : Trn) (f : TrnPort → TrnPort) (s : State) : (modTrn n f s).cmp = s.cmp := rfl
@[simp] theorem modTrn_cip (n : Trn) (f : TrnPort → TrnPort) (s : State) : (modTrn n f s).cip = s.cip := rfl
@[simp] theorem modTrn_nv (n : Trn) (f : TrnPort → TrnPort) (s : State) : (modTrn n f s).nv = s.nv := rfl
@[simp] theorem modTrn_ing (n : Trn) (f : TrnPort → TrnPort) (s : State) : (modTrn n f s).ing = s.ing := rfl
@[simp] theorem modTrn_trn (n : Trn) (f : TrnPort → TrnPort) (s : State) : (modTrn n f s).trn = upd s.trn n f := rfl
@[simp] theorem modTrn_fmt (n : Trn) (f : TrnPort → TrnPort) (s : State) : (modTrn n f s).fmt = s.fmt := rfl
@[simp] theorem modTrn_gov (n : Trn) (f : TrnPort → TrnPort) (s : State) : (modTrn n f s).gov = s.gov := rfl
@[simp] theorem modTrn_rst (n : Trn) (f : TrnPort → TrnPort) (s : State) : (modTrn n f s).rst = s.rst := rfl
@[simp] theorem modTrn_therm (n : Trn) (f : TrnPort → TrnPort) (s : State) : (modTrn n f s).therm = s.therm := rfl
@[simp] theorem modTrn_tether (n : Trn) (f : TrnPort → TrnPort) (s : State) : (modTrn n f s).tether = s.tether := rfl
@[simp] theorem modTrn_dm (n : Trn) (f : TrnPort → TrnPort) (s : State) : (modTrn n f s).dm = s.dm := rfl
@[simp] theorem modTrn_dbg (n : Trn) (f : TrnPort → TrnPort) (s : State) : (modTrn n f s).dbg = s.dbg := rfl
@[simp] theorem modTrn_out (n : Trn) (f : TrnPort → TrnPort) (s : State) : (modTrn n f s).out = s.out := rfl
@[simp] theorem modTrn_free (n : Trn) (f : TrnPort → TrnPort) (s : State) : (modTrn n f s).free = s.free := rfl
@[simp] theorem modTrn_rateRoom (n : Trn) (f : TrnPort → TrnPort) (s : State) : (modTrn n f s).rateRoom = s.rateRoom := rfl

/-! ### `modFmt` -/

@[simp] theorem modFmt_pending (n : Trn) (f : FmtTrn → FmtTrn) (s : State) : (modFmt n f s).pending = s.pending := rfl
@[simp] theorem modFmt_regs (n : Trn) (f : FmtTrn → FmtTrn) (s : State) : (modFmt n f s).regs = s.regs := rfl
@[simp] theorem modFmt_i2c (n : Trn) (f : FmtTrn → FmtTrn) (s : State) : (modFmt n f s).i2c = s.i2c := rfl
@[simp] theorem modFmt_irq (n : Trn) (f : FmtTrn → FmtTrn) (s : State) : (modFmt n f s).irq = s.irq := rfl
@[simp] theorem modFmt_faults (n : Trn) (f : FmtTrn → FmtTrn) (s : State) : (modFmt n f s).faults = s.faults := rfl
@[simp] theorem modFmt_mbx (n : Trn) (f : FmtTrn → FmtTrn) (s : State) : (modFmt n f s).mbx = s.mbx := rfl
@[simp] theorem modFmt_aon (n : Trn) (f : FmtTrn → FmtTrn) (s : State) : (modFmt n f s).aon = s.aon := rfl
@[simp] theorem modFmt_power (n : Trn) (f : FmtTrn → FmtTrn) (s : State) : (modFmt n f s).power = s.power := rfl
@[simp] theorem modFmt_boot (n : Trn) (f : FmtTrn → FmtTrn) (s : State) : (modFmt n f s).boot = s.boot := rfl
@[simp] theorem modFmt_aux (n : Trn) (f : FmtTrn → FmtTrn) (s : State) : (modFmt n f s).aux = s.aux := rfl
@[simp] theorem modFmt_pcie (n : Trn) (f : FmtTrn → FmtTrn) (s : State) : (modFmt n f s).pcie = s.pcie := rfl
@[simp] theorem modFmt_dma (n : Trn) (f : FmtTrn → FmtTrn) (s : State) : (modFmt n f s).dma = s.dma := rfl
@[simp] theorem modFmt_net (n : Trn) (f : FmtTrn → FmtTrn) (s : State) : (modFmt n f s).net = s.net := rfl
@[simp] theorem modFmt_stg (n : Trn) (f : FmtTrn → FmtTrn) (s : State) : (modFmt n f s).stg = s.stg := rfl
@[simp] theorem modFmt_cmp (n : Trn) (f : FmtTrn → FmtTrn) (s : State) : (modFmt n f s).cmp = s.cmp := rfl
@[simp] theorem modFmt_cip (n : Trn) (f : FmtTrn → FmtTrn) (s : State) : (modFmt n f s).cip = s.cip := rfl
@[simp] theorem modFmt_nv (n : Trn) (f : FmtTrn → FmtTrn) (s : State) : (modFmt n f s).nv = s.nv := rfl
@[simp] theorem modFmt_ing (n : Trn) (f : FmtTrn → FmtTrn) (s : State) : (modFmt n f s).ing = s.ing := rfl
@[simp] theorem modFmt_trn (n : Trn) (f : FmtTrn → FmtTrn) (s : State) : (modFmt n f s).trn = s.trn := rfl
@[simp] theorem modFmt_fmt (n : Trn) (f : FmtTrn → FmtTrn) (s : State) :
    (modFmt n f s).fmt = { s.fmt with trn := upd s.fmt.trn n f } := rfl
@[simp] theorem modFmt_gov (n : Trn) (f : FmtTrn → FmtTrn) (s : State) : (modFmt n f s).gov = s.gov := rfl
@[simp] theorem modFmt_rst (n : Trn) (f : FmtTrn → FmtTrn) (s : State) : (modFmt n f s).rst = s.rst := rfl
@[simp] theorem modFmt_therm (n : Trn) (f : FmtTrn → FmtTrn) (s : State) : (modFmt n f s).therm = s.therm := rfl
@[simp] theorem modFmt_tether (n : Trn) (f : FmtTrn → FmtTrn) (s : State) : (modFmt n f s).tether = s.tether := rfl
@[simp] theorem modFmt_dm (n : Trn) (f : FmtTrn → FmtTrn) (s : State) : (modFmt n f s).dm = s.dm := rfl
@[simp] theorem modFmt_dbg (n : Trn) (f : FmtTrn → FmtTrn) (s : State) : (modFmt n f s).dbg = s.dbg := rfl
@[simp] theorem modFmt_out (n : Trn) (f : FmtTrn → FmtTrn) (s : State) : (modFmt n f s).out = s.out := rfl
@[simp] theorem modFmt_free (n : Trn) (f : FmtTrn → FmtTrn) (s : State) : (modFmt n f s).free = s.free := rfl
@[simp] theorem modFmt_rateRoom (n : Trn) (f : FmtTrn → FmtTrn) (s : State) : (modFmt n f s).rateRoom = s.rateRoom := rfl

/-! ### `modGov` -/

@[simp] theorem modGov_pending (n : Trn) (f : GovMember → GovMember) (s : State) :
    (modGov n f s).pending = s.pending := rfl
@[simp] theorem modGov_regs (n : Trn) (f : GovMember → GovMember) (s : State) : (modGov n f s).regs = s.regs := rfl
@[simp] theorem modGov_i2c (n : Trn) (f : GovMember → GovMember) (s : State) : (modGov n f s).i2c = s.i2c := rfl
@[simp] theorem modGov_irq (n : Trn) (f : GovMember → GovMember) (s : State) : (modGov n f s).irq = s.irq := rfl
@[simp] theorem modGov_faults (n : Trn) (f : GovMember → GovMember) (s : State) :
    (modGov n f s).faults = s.faults := rfl
@[simp] theorem modGov_mbx (n : Trn) (f : GovMember → GovMember) (s : State) : (modGov n f s).mbx = s.mbx := rfl
@[simp] theorem modGov_aon (n : Trn) (f : GovMember → GovMember) (s : State) : (modGov n f s).aon = s.aon := rfl
@[simp] theorem modGov_power (n : Trn) (f : GovMember → GovMember) (s : State) : (modGov n f s).power = s.power := rfl
@[simp] theorem modGov_boot (n : Trn) (f : GovMember → GovMember) (s : State) : (modGov n f s).boot = s.boot := rfl
@[simp] theorem modGov_aux (n : Trn) (f : GovMember → GovMember) (s : State) : (modGov n f s).aux = s.aux := rfl
@[simp] theorem modGov_pcie (n : Trn) (f : GovMember → GovMember) (s : State) : (modGov n f s).pcie = s.pcie := rfl
@[simp] theorem modGov_dma (n : Trn) (f : GovMember → GovMember) (s : State) : (modGov n f s).dma = s.dma := rfl
@[simp] theorem modGov_net (n : Trn) (f : GovMember → GovMember) (s : State) : (modGov n f s).net = s.net := rfl
@[simp] theorem modGov_stg (n : Trn) (f : GovMember → GovMember) (s : State) : (modGov n f s).stg = s.stg := rfl
@[simp] theorem modGov_cmp (n : Trn) (f : GovMember → GovMember) (s : State) : (modGov n f s).cmp = s.cmp := rfl
@[simp] theorem modGov_cip (n : Trn) (f : GovMember → GovMember) (s : State) : (modGov n f s).cip = s.cip := rfl
@[simp] theorem modGov_nv (n : Trn) (f : GovMember → GovMember) (s : State) : (modGov n f s).nv = s.nv := rfl
@[simp] theorem modGov_ing (n : Trn) (f : GovMember → GovMember) (s : State) : (modGov n f s).ing = s.ing := rfl
@[simp] theorem modGov_trn (n : Trn) (f : GovMember → GovMember) (s : State) : (modGov n f s).trn = s.trn := rfl
@[simp] theorem modGov_fmt (n : Trn) (f : GovMember → GovMember) (s : State) : (modGov n f s).fmt = s.fmt := rfl
@[simp] theorem modGov_gov (n : Trn) (f : GovMember → GovMember) (s : State) :
    (modGov n f s).gov = { s.gov with mem := upd s.gov.mem n f } := rfl
@[simp] theorem modGov_rst (n : Trn) (f : GovMember → GovMember) (s : State) : (modGov n f s).rst = s.rst := rfl
@[simp] theorem modGov_therm (n : Trn) (f : GovMember → GovMember) (s : State) : (modGov n f s).therm = s.therm := rfl
@[simp] theorem modGov_tether (n : Trn) (f : GovMember → GovMember) (s : State) :
    (modGov n f s).tether = s.tether := rfl
@[simp] theorem modGov_dm (n : Trn) (f : GovMember → GovMember) (s : State) : (modGov n f s).dm = s.dm := rfl
@[simp] theorem modGov_dbg (n : Trn) (f : GovMember → GovMember) (s : State) : (modGov n f s).dbg = s.dbg := rfl
@[simp] theorem modGov_out (n : Trn) (f : GovMember → GovMember) (s : State) : (modGov n f s).out = s.out := rfl
@[simp] theorem modGov_free (n : Trn) (f : GovMember → GovMember) (s : State) : (modGov n f s).free = s.free := rfl
@[simp] theorem modGov_rateRoom (n : Trn) (f : GovMember → GovMember) (s : State) : (modGov n f s).rateRoom = s.rateRoom := rfl

/-! ### `modRst` -/

@[simp] theorem modRst_pending (n : Trn) (f : RestTrn → RestTrn) (s : State) :
    (modRst n f s).pending = s.pending := rfl
@[simp] theorem modRst_regs (n : Trn) (f : RestTrn → RestTrn) (s : State) : (modRst n f s).regs = s.regs := rfl
@[simp] theorem modRst_i2c (n : Trn) (f : RestTrn → RestTrn) (s : State) : (modRst n f s).i2c = s.i2c := rfl
@[simp] theorem modRst_irq (n : Trn) (f : RestTrn → RestTrn) (s : State) : (modRst n f s).irq = s.irq := rfl
@[simp] theorem modRst_faults (n : Trn) (f : RestTrn → RestTrn) (s : State) : (modRst n f s).faults = s.faults := rfl
@[simp] theorem modRst_mbx (n : Trn) (f : RestTrn → RestTrn) (s : State) : (modRst n f s).mbx = s.mbx := rfl
@[simp] theorem modRst_aon (n : Trn) (f : RestTrn → RestTrn) (s : State) : (modRst n f s).aon = s.aon := rfl
@[simp] theorem modRst_power (n : Trn) (f : RestTrn → RestTrn) (s : State) : (modRst n f s).power = s.power := rfl
@[simp] theorem modRst_boot (n : Trn) (f : RestTrn → RestTrn) (s : State) : (modRst n f s).boot = s.boot := rfl
@[simp] theorem modRst_aux (n : Trn) (f : RestTrn → RestTrn) (s : State) : (modRst n f s).aux = s.aux := rfl
@[simp] theorem modRst_pcie (n : Trn) (f : RestTrn → RestTrn) (s : State) : (modRst n f s).pcie = s.pcie := rfl
@[simp] theorem modRst_dma (n : Trn) (f : RestTrn → RestTrn) (s : State) : (modRst n f s).dma = s.dma := rfl
@[simp] theorem modRst_net (n : Trn) (f : RestTrn → RestTrn) (s : State) : (modRst n f s).net = s.net := rfl
@[simp] theorem modRst_stg (n : Trn) (f : RestTrn → RestTrn) (s : State) : (modRst n f s).stg = s.stg := rfl
@[simp] theorem modRst_cmp (n : Trn) (f : RestTrn → RestTrn) (s : State) : (modRst n f s).cmp = s.cmp := rfl
@[simp] theorem modRst_cip (n : Trn) (f : RestTrn → RestTrn) (s : State) : (modRst n f s).cip = s.cip := rfl
@[simp] theorem modRst_nv (n : Trn) (f : RestTrn → RestTrn) (s : State) : (modRst n f s).nv = s.nv := rfl
@[simp] theorem modRst_ing (n : Trn) (f : RestTrn → RestTrn) (s : State) : (modRst n f s).ing = s.ing := rfl
@[simp] theorem modRst_trn (n : Trn) (f : RestTrn → RestTrn) (s : State) : (modRst n f s).trn = s.trn := rfl
@[simp] theorem modRst_fmt (n : Trn) (f : RestTrn → RestTrn) (s : State) : (modRst n f s).fmt = s.fmt := rfl
@[simp] theorem modRst_gov (n : Trn) (f : RestTrn → RestTrn) (s : State) : (modRst n f s).gov = s.gov := rfl
@[simp] theorem modRst_rst (n : Trn) (f : RestTrn → RestTrn) (s : State) :
    (modRst n f s).rst = { s.rst with trn := upd s.rst.trn n f } := rfl
@[simp] theorem modRst_therm (n : Trn) (f : RestTrn → RestTrn) (s : State) : (modRst n f s).therm = s.therm := rfl
@[simp] theorem modRst_tether (n : Trn) (f : RestTrn → RestTrn) (s : State) : (modRst n f s).tether = s.tether := rfl
@[simp] theorem modRst_dm (n : Trn) (f : RestTrn → RestTrn) (s : State) : (modRst n f s).dm = s.dm := rfl
@[simp] theorem modRst_dbg (n : Trn) (f : RestTrn → RestTrn) (s : State) : (modRst n f s).dbg = s.dbg := rfl
@[simp] theorem modRst_out (n : Trn) (f : RestTrn → RestTrn) (s : State) : (modRst n f s).out = s.out := rfl
@[simp] theorem modRst_free (n : Trn) (f : RestTrn → RestTrn) (s : State) : (modRst n f s).free = s.free := rfl
@[simp] theorem modRst_rateRoom (n : Trn) (f : RestTrn → RestTrn) (s : State) : (modRst n f s).rateRoom = s.rateRoom := rfl

/-! ### `modStream` -/

@[simp] theorem modStream_pending (i : Strm) (f : Stream → Stream) (s : State) :
    (modStream i f s).pending = s.pending := rfl
@[simp] theorem modStream_regs (i : Strm) (f : Stream → Stream) (s : State) : (modStream i f s).regs = s.regs := rfl
@[simp] theorem modStream_i2c (i : Strm) (f : Stream → Stream) (s : State) : (modStream i f s).i2c = s.i2c := rfl
@[simp] theorem modStream_irq (i : Strm) (f : Stream → Stream) (s : State) : (modStream i f s).irq = s.irq := rfl
@[simp] theorem modStream_faults (i : Strm) (f : Stream → Stream) (s : State) :
    (modStream i f s).faults = s.faults := rfl
@[simp] theorem modStream_mbx (i : Strm) (f : Stream → Stream) (s : State) : (modStream i f s).mbx = s.mbx := rfl
@[simp] theorem modStream_aon (i : Strm) (f : Stream → Stream) (s : State) : (modStream i f s).aon = s.aon := rfl
@[simp] theorem modStream_power (i : Strm) (f : Stream → Stream) (s : State) :
    (modStream i f s).power = s.power := rfl
@[simp] theorem modStream_boot (i : Strm) (f : Stream → Stream) (s : State) : (modStream i f s).boot = s.boot := rfl
@[simp] theorem modStream_aux (i : Strm) (f : Stream → Stream) (s : State) : (modStream i f s).aux = s.aux := rfl
@[simp] theorem modStream_pcie (i : Strm) (f : Stream → Stream) (s : State) : (modStream i f s).pcie = s.pcie := rfl
@[simp] theorem modStream_dma (i : Strm) (f : Stream → Stream) (s : State) : (modStream i f s).dma = s.dma := rfl
@[simp] theorem modStream_net (i : Strm) (f : Stream → Stream) (s : State) : (modStream i f s).net = s.net := rfl
@[simp] theorem modStream_stg (i : Strm) (f : Stream → Stream) (s : State) : (modStream i f s).stg = s.stg := rfl
@[simp] theorem modStream_cmp (i : Strm) (f : Stream → Stream) (s : State) : (modStream i f s).cmp = s.cmp := rfl
@[simp] theorem modStream_cip (i : Strm) (f : Stream → Stream) (s : State) : (modStream i f s).cip = s.cip := rfl
@[simp] theorem modStream_nv (i : Strm) (f : Stream → Stream) (s : State) : (modStream i f s).nv = s.nv := rfl
@[simp] theorem modStream_ing (i : Strm) (f : Stream → Stream) (s : State) :
    (modStream i f s).ing = { s.ing with stream := upd s.ing.stream i f } := rfl
@[simp] theorem modStream_trn (i : Strm) (f : Stream → Stream) (s : State) : (modStream i f s).trn = s.trn := rfl
@[simp] theorem modStream_fmt (i : Strm) (f : Stream → Stream) (s : State) : (modStream i f s).fmt = s.fmt := rfl
@[simp] theorem modStream_gov (i : Strm) (f : Stream → Stream) (s : State) : (modStream i f s).gov = s.gov := rfl
@[simp] theorem modStream_rst (i : Strm) (f : Stream → Stream) (s : State) : (modStream i f s).rst = s.rst := rfl
@[simp] theorem modStream_therm (i : Strm) (f : Stream → Stream) (s : State) :
    (modStream i f s).therm = s.therm := rfl
@[simp] theorem modStream_tether (i : Strm) (f : Stream → Stream) (s : State) :
    (modStream i f s).tether = s.tether := rfl
@[simp] theorem modStream_dm (i : Strm) (f : Stream → Stream) (s : State) : (modStream i f s).dm = s.dm := rfl
@[simp] theorem modStream_dbg (i : Strm) (f : Stream → Stream) (s : State) : (modStream i f s).dbg = s.dbg := rfl
@[simp] theorem modStream_out (i : Strm) (f : Stream → Stream) (s : State) : (modStream i f s).out = s.out := rfl
@[simp] theorem modStream_free (i : Strm) (f : Stream → Stream) (s : State) : (modStream i f s).free = s.free := rfl
@[simp] theorem modStream_rateRoom (i : Strm) (f : Stream → Stream) (s : State) : (modStream i f s).rateRoom = s.rateRoom := rfl

/-! ### `modPort` -/

@[simp] theorem modPort_pending (p : Port) (f : EthPort → EthPort) (s : State) :
    (modPort p f s).pending = s.pending := rfl
@[simp] theorem modPort_regs (p : Port) (f : EthPort → EthPort) (s : State) : (modPort p f s).regs = s.regs := rfl
@[simp] theorem modPort_i2c (p : Port) (f : EthPort → EthPort) (s : State) : (modPort p f s).i2c = s.i2c := rfl
@[simp] theorem modPort_irq (p : Port) (f : EthPort → EthPort) (s : State) : (modPort p f s).irq = s.irq := rfl
@[simp] theorem modPort_faults (p : Port) (f : EthPort → EthPort) (s : State) :
    (modPort p f s).faults = s.faults := rfl
@[simp] theorem modPort_mbx (p : Port) (f : EthPort → EthPort) (s : State) : (modPort p f s).mbx = s.mbx := rfl
@[simp] theorem modPort_aon (p : Port) (f : EthPort → EthPort) (s : State) : (modPort p f s).aon = s.aon := rfl
@[simp] theorem modPort_power (p : Port) (f : EthPort → EthPort) (s : State) : (modPort p f s).power = s.power := rfl
@[simp] theorem modPort_boot (p : Port) (f : EthPort → EthPort) (s : State) : (modPort p f s).boot = s.boot := rfl
@[simp] theorem modPort_aux (p : Port) (f : EthPort → EthPort) (s : State) : (modPort p f s).aux = s.aux := rfl
@[simp] theorem modPort_pcie (p : Port) (f : EthPort → EthPort) (s : State) : (modPort p f s).pcie = s.pcie := rfl
@[simp] theorem modPort_dma (p : Port) (f : EthPort → EthPort) (s : State) : (modPort p f s).dma = s.dma := rfl
@[simp] theorem modPort_net (p : Port) (f : EthPort → EthPort) (s : State) :
    (modPort p f s).net = { s.net with port := upd s.net.port p f } := rfl
@[simp] theorem modPort_stg (p : Port) (f : EthPort → EthPort) (s : State) : (modPort p f s).stg = s.stg := rfl
@[simp] theorem modPort_cmp (p : Port) (f : EthPort → EthPort) (s : State) : (modPort p f s).cmp = s.cmp := rfl
@[simp] theorem modPort_cip (p : Port) (f : EthPort → EthPort) (s : State) : (modPort p f s).cip = s.cip := rfl
@[simp] theorem modPort_nv (p : Port) (f : EthPort → EthPort) (s : State) : (modPort p f s).nv = s.nv := rfl
@[simp] theorem modPort_ing (p : Port) (f : EthPort → EthPort) (s : State) : (modPort p f s).ing = s.ing := rfl
@[simp] theorem modPort_trn (p : Port) (f : EthPort → EthPort) (s : State) : (modPort p f s).trn = s.trn := rfl
@[simp] theorem modPort_fmt (p : Port) (f : EthPort → EthPort) (s : State) : (modPort p f s).fmt = s.fmt := rfl
@[simp] theorem modPort_gov (p : Port) (f : EthPort → EthPort) (s : State) : (modPort p f s).gov = s.gov := rfl
@[simp] theorem modPort_rst (p : Port) (f : EthPort → EthPort) (s : State) : (modPort p f s).rst = s.rst := rfl
@[simp] theorem modPort_therm (p : Port) (f : EthPort → EthPort) (s : State) : (modPort p f s).therm = s.therm := rfl
@[simp] theorem modPort_tether (p : Port) (f : EthPort → EthPort) (s : State) :
    (modPort p f s).tether = s.tether := rfl
@[simp] theorem modPort_dm (p : Port) (f : EthPort → EthPort) (s : State) : (modPort p f s).dm = s.dm := rfl
@[simp] theorem modPort_dbg (p : Port) (f : EthPort → EthPort) (s : State) : (modPort p f s).dbg = s.dbg := rfl
@[simp] theorem modPort_out (p : Port) (f : EthPort → EthPort) (s : State) : (modPort p f s).out = s.out := rfl
@[simp] theorem modPort_free (p : Port) (f : EthPort → EthPort) (s : State) : (modPort p f s).free = s.free := rfl
@[simp] theorem modPort_rateRoom (p : Port) (f : EthPort → EthPort) (s : State) : (modPort p f s).rateRoom = s.rateRoom := rfl

/-! ### `modTicket` -/

@[simp] theorem modTicket_pending (t : Nat) (f : Ticket → Ticket) (s : State) :
    (modTicket t f s).pending = s.pending := rfl
@[simp] theorem modTicket_regs (t : Nat) (f : Ticket → Ticket) (s : State) : (modTicket t f s).regs = s.regs := rfl
@[simp] theorem modTicket_i2c (t : Nat) (f : Ticket → Ticket) (s : State) : (modTicket t f s).i2c = s.i2c := rfl
@[simp] theorem modTicket_irq (t : Nat) (f : Ticket → Ticket) (s : State) : (modTicket t f s).irq = s.irq := rfl
@[simp] theorem modTicket_faults (t : Nat) (f : Ticket → Ticket) (s : State) :
    (modTicket t f s).faults = s.faults := rfl
@[simp] theorem modTicket_mbx (t : Nat) (f : Ticket → Ticket) (s : State) :
    (modTicket t f s).mbx = { s.mbx with ticket := updN s.mbx.ticket t f } := rfl
@[simp] theorem modTicket_aon (t : Nat) (f : Ticket → Ticket) (s : State) : (modTicket t f s).aon = s.aon := rfl
@[simp] theorem modTicket_power (t : Nat) (f : Ticket → Ticket) (s : State) : (modTicket t f s).power = s.power := rfl
@[simp] theorem modTicket_boot (t : Nat) (f : Ticket → Ticket) (s : State) : (modTicket t f s).boot = s.boot := rfl
@[simp] theorem modTicket_aux (t : Nat) (f : Ticket → Ticket) (s : State) : (modTicket t f s).aux = s.aux := rfl
@[simp] theorem modTicket_pcie (t : Nat) (f : Ticket → Ticket) (s : State) : (modTicket t f s).pcie = s.pcie := rfl
@[simp] theorem modTicket_dma (t : Nat) (f : Ticket → Ticket) (s : State) : (modTicket t f s).dma = s.dma := rfl
@[simp] theorem modTicket_net (t : Nat) (f : Ticket → Ticket) (s : State) : (modTicket t f s).net = s.net := rfl
@[simp] theorem modTicket_stg (t : Nat) (f : Ticket → Ticket) (s : State) : (modTicket t f s).stg = s.stg := rfl
@[simp] theorem modTicket_cmp (t : Nat) (f : Ticket → Ticket) (s : State) : (modTicket t f s).cmp = s.cmp := rfl
@[simp] theorem modTicket_cip (t : Nat) (f : Ticket → Ticket) (s : State) : (modTicket t f s).cip = s.cip := rfl
@[simp] theorem modTicket_nv (t : Nat) (f : Ticket → Ticket) (s : State) : (modTicket t f s).nv = s.nv := rfl
@[simp] theorem modTicket_ing (t : Nat) (f : Ticket → Ticket) (s : State) : (modTicket t f s).ing = s.ing := rfl
@[simp] theorem modTicket_trn (t : Nat) (f : Ticket → Ticket) (s : State) : (modTicket t f s).trn = s.trn := rfl
@[simp] theorem modTicket_fmt (t : Nat) (f : Ticket → Ticket) (s : State) : (modTicket t f s).fmt = s.fmt := rfl
@[simp] theorem modTicket_gov (t : Nat) (f : Ticket → Ticket) (s : State) : (modTicket t f s).gov = s.gov := rfl
@[simp] theorem modTicket_rst (t : Nat) (f : Ticket → Ticket) (s : State) : (modTicket t f s).rst = s.rst := rfl
@[simp] theorem modTicket_therm (t : Nat) (f : Ticket → Ticket) (s : State) : (modTicket t f s).therm = s.therm := rfl
@[simp] theorem modTicket_tether (t : Nat) (f : Ticket → Ticket) (s : State) :
    (modTicket t f s).tether = s.tether := rfl
@[simp] theorem modTicket_dm (t : Nat) (f : Ticket → Ticket) (s : State) : (modTicket t f s).dm = s.dm := rfl
@[simp] theorem modTicket_dbg (t : Nat) (f : Ticket → Ticket) (s : State) : (modTicket t f s).dbg = s.dbg := rfl
@[simp] theorem modTicket_out (t : Nat) (f : Ticket → Ticket) (s : State) : (modTicket t f s).out = s.out := rfl
@[simp] theorem modTicket_free (t : Nat) (f : Ticket → Ticket) (s : State) : (modTicket t f s).free = s.free := rfl
@[simp] theorem modTicket_rateRoom (t : Nat) (f : Ticket → Ticket) (s : State) : (modTicket t f s).rateRoom = s.rateRoom := rfl

/-! ### `modChan` -/

@[simp] theorem modChan_pending (c : Chan) (f : Channel → Channel) (s : State) :
    (modChan c f s).pending = s.pending := rfl
@[simp] theorem modChan_regs (c : Chan) (f : Channel → Channel) (s : State) : (modChan c f s).regs = s.regs := rfl
@[simp] theorem modChan_i2c (c : Chan) (f : Channel → Channel) (s : State) : (modChan c f s).i2c = s.i2c := rfl
@[simp] theorem modChan_irq (c : Chan) (f : Channel → Channel) (s : State) : (modChan c f s).irq = s.irq := rfl
@[simp] theorem modChan_faults (c : Chan) (f : Channel → Channel) (s : State) :
    (modChan c f s).faults = s.faults := rfl
@[simp] theorem modChan_mbx (c : Chan) (f : Channel → Channel) (s : State) :
    (modChan c f s).mbx = { s.mbx with chan := upd s.mbx.chan c f } := rfl
@[simp] theorem modChan_aon (c : Chan) (f : Channel → Channel) (s : State) : (modChan c f s).aon = s.aon := rfl
@[simp] theorem modChan_power (c : Chan) (f : Channel → Channel) (s : State) : (modChan c f s).power = s.power := rfl
@[simp] theorem modChan_boot (c : Chan) (f : Channel → Channel) (s : State) : (modChan c f s).boot = s.boot := rfl
@[simp] theorem modChan_aux (c : Chan) (f : Channel → Channel) (s : State) : (modChan c f s).aux = s.aux := rfl
@[simp] theorem modChan_pcie (c : Chan) (f : Channel → Channel) (s : State) : (modChan c f s).pcie = s.pcie := rfl
@[simp] theorem modChan_dma (c : Chan) (f : Channel → Channel) (s : State) : (modChan c f s).dma = s.dma := rfl
@[simp] theorem modChan_net (c : Chan) (f : Channel → Channel) (s : State) : (modChan c f s).net = s.net := rfl
@[simp] theorem modChan_stg (c : Chan) (f : Channel → Channel) (s : State) : (modChan c f s).stg = s.stg := rfl
@[simp] theorem modChan_cmp (c : Chan) (f : Channel → Channel) (s : State) : (modChan c f s).cmp = s.cmp := rfl
@[simp] theorem modChan_cip (c : Chan) (f : Channel → Channel) (s : State) : (modChan c f s).cip = s.cip := rfl
@[simp] theorem modChan_nv (c : Chan) (f : Channel → Channel) (s : State) : (modChan c f s).nv = s.nv := rfl
@[simp] theorem modChan_ing (c : Chan) (f : Channel → Channel) (s : State) : (modChan c f s).ing = s.ing := rfl
@[simp] theorem modChan_trn (c : Chan) (f : Channel → Channel) (s : State) : (modChan c f s).trn = s.trn := rfl
@[simp] theorem modChan_fmt (c : Chan) (f : Channel → Channel) (s : State) : (modChan c f s).fmt = s.fmt := rfl
@[simp] theorem modChan_gov (c : Chan) (f : Channel → Channel) (s : State) : (modChan c f s).gov = s.gov := rfl
@[simp] theorem modChan_rst (c : Chan) (f : Channel → Channel) (s : State) : (modChan c f s).rst = s.rst := rfl
@[simp] theorem modChan_therm (c : Chan) (f : Channel → Channel) (s : State) : (modChan c f s).therm = s.therm := rfl
@[simp] theorem modChan_tether (c : Chan) (f : Channel → Channel) (s : State) :
    (modChan c f s).tether = s.tether := rfl
@[simp] theorem modChan_dm (c : Chan) (f : Channel → Channel) (s : State) : (modChan c f s).dm = s.dm := rfl
@[simp] theorem modChan_dbg (c : Chan) (f : Channel → Channel) (s : State) : (modChan c f s).dbg = s.dbg := rfl
@[simp] theorem modChan_out (c : Chan) (f : Channel → Channel) (s : State) : (modChan c f s).out = s.out := rfl
@[simp] theorem modChan_free (c : Chan) (f : Channel → Channel) (s : State) : (modChan c f s).free = s.free := rfl
@[simp] theorem modChan_rateRoom (c : Chan) (f : Channel → Channel) (s : State) : (modChan c f s).rateRoom = s.rateRoom := rfl

/-! ### `modPin` -/

@[simp] theorem modPin_pending (k : Fin 24) (f : AuxPin → AuxPin) (s : State) :
    (modPin k f s).pending = s.pending := rfl
@[simp] theorem modPin_regs (k : Fin 24) (f : AuxPin → AuxPin) (s : State) : (modPin k f s).regs = s.regs := rfl
@[simp] theorem modPin_i2c (k : Fin 24) (f : AuxPin → AuxPin) (s : State) : (modPin k f s).i2c = s.i2c := rfl
@[simp] theorem modPin_irq (k : Fin 24) (f : AuxPin → AuxPin) (s : State) : (modPin k f s).irq = s.irq := rfl
@[simp] theorem modPin_faults (k : Fin 24) (f : AuxPin → AuxPin) (s : State) : (modPin k f s).faults = s.faults := rfl
@[simp] theorem modPin_mbx (k : Fin 24) (f : AuxPin → AuxPin) (s : State) : (modPin k f s).mbx = s.mbx := rfl
@[simp] theorem modPin_aon (k : Fin 24) (f : AuxPin → AuxPin) (s : State) : (modPin k f s).aon = s.aon := rfl
@[simp] theorem modPin_power (k : Fin 24) (f : AuxPin → AuxPin) (s : State) : (modPin k f s).power = s.power := rfl
@[simp] theorem modPin_boot (k : Fin 24) (f : AuxPin → AuxPin) (s : State) : (modPin k f s).boot = s.boot := rfl
@[simp] theorem modPin_aux (k : Fin 24) (f : AuxPin → AuxPin) (s : State) :
    (modPin k f s).aux = { s.aux with pin := upd s.aux.pin k f } := rfl
@[simp] theorem modPin_pcie (k : Fin 24) (f : AuxPin → AuxPin) (s : State) : (modPin k f s).pcie = s.pcie := rfl
@[simp] theorem modPin_dma (k : Fin 24) (f : AuxPin → AuxPin) (s : State) : (modPin k f s).dma = s.dma := rfl
@[simp] theorem modPin_net (k : Fin 24) (f : AuxPin → AuxPin) (s : State) : (modPin k f s).net = s.net := rfl
@[simp] theorem modPin_stg (k : Fin 24) (f : AuxPin → AuxPin) (s : State) : (modPin k f s).stg = s.stg := rfl
@[simp] theorem modPin_cmp (k : Fin 24) (f : AuxPin → AuxPin) (s : State) : (modPin k f s).cmp = s.cmp := rfl
@[simp] theorem modPin_cip (k : Fin 24) (f : AuxPin → AuxPin) (s : State) : (modPin k f s).cip = s.cip := rfl
@[simp] theorem modPin_nv (k : Fin 24) (f : AuxPin → AuxPin) (s : State) : (modPin k f s).nv = s.nv := rfl
@[simp] theorem modPin_ing (k : Fin 24) (f : AuxPin → AuxPin) (s : State) : (modPin k f s).ing = s.ing := rfl
@[simp] theorem modPin_trn (k : Fin 24) (f : AuxPin → AuxPin) (s : State) : (modPin k f s).trn = s.trn := rfl
@[simp] theorem modPin_fmt (k : Fin 24) (f : AuxPin → AuxPin) (s : State) : (modPin k f s).fmt = s.fmt := rfl
@[simp] theorem modPin_gov (k : Fin 24) (f : AuxPin → AuxPin) (s : State) : (modPin k f s).gov = s.gov := rfl
@[simp] theorem modPin_rst (k : Fin 24) (f : AuxPin → AuxPin) (s : State) : (modPin k f s).rst = s.rst := rfl
@[simp] theorem modPin_therm (k : Fin 24) (f : AuxPin → AuxPin) (s : State) : (modPin k f s).therm = s.therm := rfl
@[simp] theorem modPin_tether (k : Fin 24) (f : AuxPin → AuxPin) (s : State) : (modPin k f s).tether = s.tether := rfl
@[simp] theorem modPin_dm (k : Fin 24) (f : AuxPin → AuxPin) (s : State) : (modPin k f s).dm = s.dm := rfl
@[simp] theorem modPin_dbg (k : Fin 24) (f : AuxPin → AuxPin) (s : State) : (modPin k f s).dbg = s.dbg := rfl
@[simp] theorem modPin_out (k : Fin 24) (f : AuxPin → AuxPin) (s : State) : (modPin k f s).out = s.out := rfl
@[simp] theorem modPin_free (k : Fin 24) (f : AuxPin → AuxPin) (s : State) : (modPin k f s).free = s.free := rfl
@[simp] theorem modPin_rateRoom (k : Fin 24) (f : AuxPin → AuxPin) (s : State) : (modPin k f s).rateRoom = s.rateRoom := rfl

/-! ### `modHost` -/

@[simp] theorem modHost_pending (c : Fin 8) (f : HostChan → HostChan) (s : State) :
    (modHost c f s).pending = s.pending := rfl
@[simp] theorem modHost_regs (c : Fin 8) (f : HostChan → HostChan) (s : State) : (modHost c f s).regs = s.regs := rfl
@[simp] theorem modHost_i2c (c : Fin 8) (f : HostChan → HostChan) (s : State) : (modHost c f s).i2c = s.i2c := rfl
@[simp] theorem modHost_irq (c : Fin 8) (f : HostChan → HostChan) (s : State) : (modHost c f s).irq = s.irq := rfl
@[simp] theorem modHost_faults (c : Fin 8) (f : HostChan → HostChan) (s : State) :
    (modHost c f s).faults = s.faults := rfl
@[simp] theorem modHost_mbx (c : Fin 8) (f : HostChan → HostChan) (s : State) : (modHost c f s).mbx = s.mbx := rfl
@[simp] theorem modHost_aon (c : Fin 8) (f : HostChan → HostChan) (s : State) : (modHost c f s).aon = s.aon := rfl
@[simp] theorem modHost_power (c : Fin 8) (f : HostChan → HostChan) (s : State) :
    (modHost c f s).power = s.power := rfl
@[simp] theorem modHost_boot (c : Fin 8) (f : HostChan → HostChan) (s : State) : (modHost c f s).boot = s.boot := rfl
@[simp] theorem modHost_aux (c : Fin 8) (f : HostChan → HostChan) (s : State) : (modHost c f s).aux = s.aux := rfl
@[simp] theorem modHost_pcie (c : Fin 8) (f : HostChan → HostChan) (s : State) : (modHost c f s).pcie = s.pcie := rfl
@[simp] theorem modHost_dma (c : Fin 8) (f : HostChan → HostChan) (s : State) :
    (modHost c f s).dma = { s.dma with chan := upd s.dma.chan c f } := rfl
@[simp] theorem modHost_net (c : Fin 8) (f : HostChan → HostChan) (s : State) : (modHost c f s).net = s.net := rfl
@[simp] theorem modHost_stg (c : Fin 8) (f : HostChan → HostChan) (s : State) : (modHost c f s).stg = s.stg := rfl
@[simp] theorem modHost_cmp (c : Fin 8) (f : HostChan → HostChan) (s : State) : (modHost c f s).cmp = s.cmp := rfl
@[simp] theorem modHost_cip (c : Fin 8) (f : HostChan → HostChan) (s : State) : (modHost c f s).cip = s.cip := rfl
@[simp] theorem modHost_nv (c : Fin 8) (f : HostChan → HostChan) (s : State) : (modHost c f s).nv = s.nv := rfl
@[simp] theorem modHost_ing (c : Fin 8) (f : HostChan → HostChan) (s : State) : (modHost c f s).ing = s.ing := rfl
@[simp] theorem modHost_trn (c : Fin 8) (f : HostChan → HostChan) (s : State) : (modHost c f s).trn = s.trn := rfl
@[simp] theorem modHost_fmt (c : Fin 8) (f : HostChan → HostChan) (s : State) : (modHost c f s).fmt = s.fmt := rfl
@[simp] theorem modHost_gov (c : Fin 8) (f : HostChan → HostChan) (s : State) : (modHost c f s).gov = s.gov := rfl
@[simp] theorem modHost_rst (c : Fin 8) (f : HostChan → HostChan) (s : State) : (modHost c f s).rst = s.rst := rfl
@[simp] theorem modHost_therm (c : Fin 8) (f : HostChan → HostChan) (s : State) :
    (modHost c f s).therm = s.therm := rfl
@[simp] theorem modHost_tether (c : Fin 8) (f : HostChan → HostChan) (s : State) :
    (modHost c f s).tether = s.tether := rfl
@[simp] theorem modHost_dm (c : Fin 8) (f : HostChan → HostChan) (s : State) : (modHost c f s).dm = s.dm := rfl
@[simp] theorem modHost_dbg (c : Fin 8) (f : HostChan → HostChan) (s : State) : (modHost c f s).dbg = s.dbg := rfl
@[simp] theorem modHost_out (c : Fin 8) (f : HostChan → HostChan) (s : State) : (modHost c f s).out = s.out := rfl
@[simp] theorem modHost_free (c : Fin 8) (f : HostChan → HostChan) (s : State) : (modHost c f s).free = s.free := rfl
@[simp] theorem modHost_rateRoom (c : Fin 8) (f : HostChan → HostChan) (s : State) : (modHost c f s).rateRoom = s.rateRoom := rfl

/-! ### `setRec` -/

@[simp] theorem setRec_pending (r : Nat) (v : Option Rec) (s : State) : (setRec r v s).pending = s.pending := rfl
@[simp] theorem setRec_regs (r : Nat) (v : Option Rec) (s : State) : (setRec r v s).regs = s.regs := rfl
@[simp] theorem setRec_i2c (r : Nat) (v : Option Rec) (s : State) : (setRec r v s).i2c = s.i2c := rfl
@[simp] theorem setRec_irq (r : Nat) (v : Option Rec) (s : State) : (setRec r v s).irq = s.irq := rfl
@[simp] theorem setRec_faults (r : Nat) (v : Option Rec) (s : State) : (setRec r v s).faults = s.faults := rfl
@[simp] theorem setRec_mbx (r : Nat) (v : Option Rec) (s : State) : (setRec r v s).mbx = s.mbx := rfl
@[simp] theorem setRec_aon (r : Nat) (v : Option Rec) (s : State) : (setRec r v s).aon = s.aon := rfl
@[simp] theorem setRec_power (r : Nat) (v : Option Rec) (s : State) : (setRec r v s).power = s.power := rfl
@[simp] theorem setRec_boot (r : Nat) (v : Option Rec) (s : State) : (setRec r v s).boot = s.boot := rfl
@[simp] theorem setRec_aux (r : Nat) (v : Option Rec) (s : State) : (setRec r v s).aux = s.aux := rfl
@[simp] theorem setRec_pcie (r : Nat) (v : Option Rec) (s : State) : (setRec r v s).pcie = s.pcie := rfl
@[simp] theorem setRec_dma (r : Nat) (v : Option Rec) (s : State) : (setRec r v s).dma = s.dma := rfl
@[simp] theorem setRec_net (r : Nat) (v : Option Rec) (s : State) : (setRec r v s).net = s.net := rfl
@[simp] theorem setRec_stg (r : Nat) (v : Option Rec) (s : State) : (setRec r v s).stg = s.stg := rfl
@[simp] theorem setRec_cmp (r : Nat) (v : Option Rec) (s : State) : (setRec r v s).cmp = s.cmp := rfl
@[simp] theorem setRec_cip (r : Nat) (v : Option Rec) (s : State) : (setRec r v s).cip = s.cip := rfl
@[simp] theorem setRec_nv (r : Nat) (v : Option Rec) (s : State) : (setRec r v s).nv = s.nv := rfl
@[simp] theorem setRec_ing (r : Nat) (v : Option Rec) (s : State) :
    (setRec r v s).ing = { s.ing with recs := spSet none s.ing.recs r v } := rfl
@[simp] theorem setRec_trn (r : Nat) (v : Option Rec) (s : State) : (setRec r v s).trn = s.trn := rfl
@[simp] theorem setRec_fmt (r : Nat) (v : Option Rec) (s : State) : (setRec r v s).fmt = s.fmt := rfl
@[simp] theorem setRec_gov (r : Nat) (v : Option Rec) (s : State) : (setRec r v s).gov = s.gov := rfl
@[simp] theorem setRec_rst (r : Nat) (v : Option Rec) (s : State) : (setRec r v s).rst = s.rst := rfl
@[simp] theorem setRec_therm (r : Nat) (v : Option Rec) (s : State) : (setRec r v s).therm = s.therm := rfl
@[simp] theorem setRec_tether (r : Nat) (v : Option Rec) (s : State) : (setRec r v s).tether = s.tether := rfl
@[simp] theorem setRec_dm (r : Nat) (v : Option Rec) (s : State) : (setRec r v s).dm = s.dm := rfl
@[simp] theorem setRec_dbg (r : Nat) (v : Option Rec) (s : State) : (setRec r v s).dbg = s.dbg := rfl
@[simp] theorem setRec_out (r : Nat) (v : Option Rec) (s : State) : (setRec r v s).out = s.out := rfl
@[simp] theorem setRec_free (r : Nat) (v : Option Rec) (s : State) : (setRec r v s).free = s.free := rfl
@[simp] theorem setRec_rateRoom (r : Nat) (v : Option Rec) (s : State) : (setRec r v s).rateRoom = s.rateRoom := rfl

/-! ### `setOwner` -/

@[simp] theorem setOwner_pending (e : Nat) (o : Owner) (s : State) : (setOwner e o s).pending = s.pending := rfl
@[simp] theorem setOwner_regs (e : Nat) (o : Owner) (s : State) : (setOwner e o s).regs = s.regs := rfl
@[simp] theorem setOwner_i2c (e : Nat) (o : Owner) (s : State) : (setOwner e o s).i2c = s.i2c := rfl
@[simp] theorem setOwner_irq (e : Nat) (o : Owner) (s : State) : (setOwner e o s).irq = s.irq := rfl
@[simp] theorem setOwner_faults (e : Nat) (o : Owner) (s : State) : (setOwner e o s).faults = s.faults := rfl
@[simp] theorem setOwner_mbx (e : Nat) (o : Owner) (s : State) : (setOwner e o s).mbx = s.mbx := rfl
@[simp] theorem setOwner_aon (e : Nat) (o : Owner) (s : State) : (setOwner e o s).aon = s.aon := rfl
@[simp] theorem setOwner_power (e : Nat) (o : Owner) (s : State) : (setOwner e o s).power = s.power := rfl
@[simp] theorem setOwner_boot (e : Nat) (o : Owner) (s : State) : (setOwner e o s).boot = s.boot := rfl
@[simp] theorem setOwner_aux (e : Nat) (o : Owner) (s : State) : (setOwner e o s).aux = s.aux := rfl
@[simp] theorem setOwner_pcie (e : Nat) (o : Owner) (s : State) : (setOwner e o s).pcie = s.pcie := rfl
@[simp] theorem setOwner_dma (e : Nat) (o : Owner) (s : State) : (setOwner e o s).dma = s.dma := rfl
@[simp] theorem setOwner_net (e : Nat) (o : Owner) (s : State) : (setOwner e o s).net = s.net := rfl
@[simp] theorem setOwner_stg (e : Nat) (o : Owner) (s : State) :
    (setOwner e o s).stg = { s.stg with
      owner := spSet .free s.stg.owner e o, moving := e :: s.stg.moving.filter (fun k => decide (k ≠ e)) } := rfl
@[simp] theorem setOwner_cmp (e : Nat) (o : Owner) (s : State) : (setOwner e o s).cmp = s.cmp := rfl
@[simp] theorem setOwner_cip (e : Nat) (o : Owner) (s : State) : (setOwner e o s).cip = s.cip := rfl
@[simp] theorem setOwner_nv (e : Nat) (o : Owner) (s : State) : (setOwner e o s).nv = s.nv := rfl
@[simp] theorem setOwner_ing (e : Nat) (o : Owner) (s : State) : (setOwner e o s).ing = s.ing := rfl
@[simp] theorem setOwner_trn (e : Nat) (o : Owner) (s : State) : (setOwner e o s).trn = s.trn := rfl
@[simp] theorem setOwner_fmt (e : Nat) (o : Owner) (s : State) : (setOwner e o s).fmt = s.fmt := rfl
@[simp] theorem setOwner_gov (e : Nat) (o : Owner) (s : State) : (setOwner e o s).gov = s.gov := rfl
@[simp] theorem setOwner_rst (e : Nat) (o : Owner) (s : State) : (setOwner e o s).rst = s.rst := rfl
@[simp] theorem setOwner_therm (e : Nat) (o : Owner) (s : State) : (setOwner e o s).therm = s.therm := rfl
@[simp] theorem setOwner_tether (e : Nat) (o : Owner) (s : State) : (setOwner e o s).tether = s.tether := rfl
@[simp] theorem setOwner_dm (e : Nat) (o : Owner) (s : State) : (setOwner e o s).dm = s.dm := rfl
@[simp] theorem setOwner_dbg (e : Nat) (o : Owner) (s : State) : (setOwner e o s).dbg = s.dbg := rfl
@[simp] theorem setOwner_out (e : Nat) (o : Owner) (s : State) : (setOwner e o s).out = s.out := rfl
@[simp] theorem setOwner_free (e : Nat) (o : Owner) (s : State) : (setOwner e o s).free = s.free := rfl
@[simp] theorem setOwner_rateRoom (e : Nat) (o : Owner) (s : State) : (setOwner e o s).rateRoom = s.rateRoom := rfl

/-! ### `setBytes` -/

@[simp] theorem setBytes_pending (a : Nat) (bs : List Byte) (s : State) : (setBytes a bs s).pending = s.pending := rfl
@[simp] theorem setBytes_regs (a : Nat) (bs : List Byte) (s : State) : (setBytes a bs s).regs = s.regs := rfl
@[simp] theorem setBytes_i2c (a : Nat) (bs : List Byte) (s : State) : (setBytes a bs s).i2c = s.i2c := rfl
@[simp] theorem setBytes_irq (a : Nat) (bs : List Byte) (s : State) : (setBytes a bs s).irq = s.irq := rfl
@[simp] theorem setBytes_faults (a : Nat) (bs : List Byte) (s : State) : (setBytes a bs s).faults = s.faults := rfl
@[simp] theorem setBytes_mbx (a : Nat) (bs : List Byte) (s : State) : (setBytes a bs s).mbx = s.mbx := rfl
@[simp] theorem setBytes_aon (a : Nat) (bs : List Byte) (s : State) : (setBytes a bs s).aon = s.aon := rfl
@[simp] theorem setBytes_power (a : Nat) (bs : List Byte) (s : State) : (setBytes a bs s).power = s.power := rfl
@[simp] theorem setBytes_boot (a : Nat) (bs : List Byte) (s : State) : (setBytes a bs s).boot = s.boot := rfl
@[simp] theorem setBytes_aux (a : Nat) (bs : List Byte) (s : State) : (setBytes a bs s).aux = s.aux := rfl
@[simp] theorem setBytes_pcie (a : Nat) (bs : List Byte) (s : State) : (setBytes a bs s).pcie = s.pcie := rfl
@[simp] theorem setBytes_dma (a : Nat) (bs : List Byte) (s : State) : (setBytes a bs s).dma = s.dma := rfl
@[simp] theorem setBytes_net (a : Nat) (bs : List Byte) (s : State) : (setBytes a bs s).net = s.net := rfl
@[simp] theorem setBytes_stg (a : Nat) (bs : List Byte) (s : State) :
    (setBytes a bs s).stg = { s.stg with mem := (bs.zipIdx).foldl (fun m b => spSet 0 m (a + b.2) b.1) s.stg.mem } := rfl
@[simp] theorem setBytes_cmp (a : Nat) (bs : List Byte) (s : State) : (setBytes a bs s).cmp = s.cmp := rfl
@[simp] theorem setBytes_cip (a : Nat) (bs : List Byte) (s : State) : (setBytes a bs s).cip = s.cip := rfl
@[simp] theorem setBytes_nv (a : Nat) (bs : List Byte) (s : State) : (setBytes a bs s).nv = s.nv := rfl
@[simp] theorem setBytes_ing (a : Nat) (bs : List Byte) (s : State) : (setBytes a bs s).ing = s.ing := rfl
@[simp] theorem setBytes_trn (a : Nat) (bs : List Byte) (s : State) : (setBytes a bs s).trn = s.trn := rfl
@[simp] theorem setBytes_fmt (a : Nat) (bs : List Byte) (s : State) : (setBytes a bs s).fmt = s.fmt := rfl
@[simp] theorem setBytes_gov (a : Nat) (bs : List Byte) (s : State) : (setBytes a bs s).gov = s.gov := rfl
@[simp] theorem setBytes_rst (a : Nat) (bs : List Byte) (s : State) : (setBytes a bs s).rst = s.rst := rfl
@[simp] theorem setBytes_therm (a : Nat) (bs : List Byte) (s : State) : (setBytes a bs s).therm = s.therm := rfl
@[simp] theorem setBytes_tether (a : Nat) (bs : List Byte) (s : State) : (setBytes a bs s).tether = s.tether := rfl
@[simp] theorem setBytes_dm (a : Nat) (bs : List Byte) (s : State) : (setBytes a bs s).dm = s.dm := rfl
@[simp] theorem setBytes_dbg (a : Nat) (bs : List Byte) (s : State) : (setBytes a bs s).dbg = s.dbg := rfl
@[simp] theorem setBytes_out (a : Nat) (bs : List Byte) (s : State) : (setBytes a bs s).out = s.out := rfl
@[simp] theorem setBytes_free (a : Nat) (bs : List Byte) (s : State) : (setBytes a bs s).free = s.free := rfl
@[simp] theorem setBytes_rateRoom (a : Nat) (bs : List Byte) (s : State) : (setBytes a bs s).rateRoom = s.rateRoom := rfl

/-! ### `disarm` -/

@[simp] theorem disarm_pending (p : Injector → Bool) (s : State) : (disarm p s).pending = s.pending := rfl
@[simp] theorem disarm_regs (p : Injector → Bool) (s : State) : (disarm p s).regs = s.regs := rfl
@[simp] theorem disarm_i2c (p : Injector → Bool) (s : State) : (disarm p s).i2c = s.i2c := rfl
@[simp] theorem disarm_irq (p : Injector → Bool) (s : State) : (disarm p s).irq = s.irq := rfl
@[simp] theorem disarm_faults (p : Injector → Bool) (s : State) : (disarm p s).faults = s.faults := rfl
@[simp] theorem disarm_mbx (p : Injector → Bool) (s : State) : (disarm p s).mbx = s.mbx := rfl
@[simp] theorem disarm_aon (p : Injector → Bool) (s : State) : (disarm p s).aon = s.aon := rfl
@[simp] theorem disarm_power (p : Injector → Bool) (s : State) : (disarm p s).power = s.power := rfl
@[simp] theorem disarm_boot (p : Injector → Bool) (s : State) : (disarm p s).boot = s.boot := rfl
@[simp] theorem disarm_aux (p : Injector → Bool) (s : State) : (disarm p s).aux = s.aux := rfl
@[simp] theorem disarm_pcie (p : Injector → Bool) (s : State) : (disarm p s).pcie = s.pcie := rfl
@[simp] theorem disarm_dma (p : Injector → Bool) (s : State) : (disarm p s).dma = s.dma := rfl
@[simp] theorem disarm_net (p : Injector → Bool) (s : State) : (disarm p s).net = s.net := rfl
@[simp] theorem disarm_stg (p : Injector → Bool) (s : State) : (disarm p s).stg = s.stg := rfl
@[simp] theorem disarm_cmp (p : Injector → Bool) (s : State) : (disarm p s).cmp = s.cmp := rfl
@[simp] theorem disarm_cip (p : Injector → Bool) (s : State) : (disarm p s).cip = s.cip := rfl
@[simp] theorem disarm_nv (p : Injector → Bool) (s : State) : (disarm p s).nv = s.nv := rfl
@[simp] theorem disarm_ing (p : Injector → Bool) (s : State) : (disarm p s).ing = s.ing := rfl
@[simp] theorem disarm_trn (p : Injector → Bool) (s : State) : (disarm p s).trn = s.trn := rfl
@[simp] theorem disarm_fmt (p : Injector → Bool) (s : State) : (disarm p s).fmt = s.fmt := rfl
@[simp] theorem disarm_gov (p : Injector → Bool) (s : State) : (disarm p s).gov = s.gov := rfl
@[simp] theorem disarm_rst (p : Injector → Bool) (s : State) : (disarm p s).rst = s.rst := rfl
@[simp] theorem disarm_therm (p : Injector → Bool) (s : State) : (disarm p s).therm = s.therm := rfl
@[simp] theorem disarm_tether (p : Injector → Bool) (s : State) : (disarm p s).tether = s.tether := rfl
@[simp] theorem disarm_dm (p : Injector → Bool) (s : State) : (disarm p s).dm = s.dm := rfl
@[simp] theorem disarm_dbg (p : Injector → Bool) (s : State) :
    (disarm p s).dbg = { s.dbg with armed := s.dbg.armed.filter (fun a => !p a) } := rfl
@[simp] theorem disarm_out (p : Injector → Bool) (s : State) : (disarm p s).out = s.out := rfl
@[simp] theorem disarm_free (p : Injector → Bool) (s : State) : (disarm p s).free = s.free := rfl
@[simp] theorem disarm_rateRoom (p : Injector → Bool) (s : State) : (disarm p s).rateRoom = s.rateRoom := rfl

end Sys2Proof.Machine
end

