-- ==== Sys2Proof/Laws/Follow.lean ====
section
/-!
SUPPORT. What follows from any command: which parts of the state `settle` can change, part by part, and that every command
ends in it.
-/
namespace Sys2Proof.Machine
open Sys2Proof

/-! ### Wide-value generations -/

/-- A state changed in the generations of wide-value items only. -/
def sameButGen (s t : State) : Prop := t = { s with regs.wv.gen := t.regs.wv.gen }

theorem sameButGen_refl (s : State) : sameButGen s s := rfl

theorem sameButGen_trans {s t u : State} (h : sameButGen s t) (k : sameButGen t u) : sameButGen s u := by
  unfold sameButGen at *
  rw [k, h]

/-- Only generations change. -/
theorem settleWide_gen (s t : State) : sameButGen t (settleWide s t) := by
  unfold settleWide
  split
  · rfl
  · generalize [0x01, 0x02, 0x10, 0x11, 0x20] = l
    suffices ∀ u, sameButGen t u → sameButGen t (l.foldl (fun t i => if itemChanged i s t then
        { t with regs.wv.gen := spSet 0 t.regs.wv.gen i (spGet 0 t.regs.wv.gen i + 1) } else t) u) from this t rfl
    induction l with
    | nil => exact fun u h => h
    | cons i l ih =>
      intro u h
      refine ih _ (sameButGen_trans h ?_)
      dsimp only
      split <;> rfl

/-- A state changed in generations only agrees in every other part. -/
theorem sameButGen_parts {s t : State} (h : sameButGen s t) :
    t.pending = s.pending ∧ t.irq = s.irq ∧ t.net = s.net ∧ t.ing = s.ing ∧ t.stg = s.stg ∧ t.mbx = s.mbx ∧
    t.out = s.out ∧ t.free = s.free ∧ t.pcie = s.pcie ∧ t.faults = s.faults := by
  rw [h]; exact ⟨rfl, rfl, rfl, rfl, rfl, rfl, rfl, rfl, rfl, rfl⟩

/-! ### Messages -/

/-- A message called for: Pending, due at the hold-off's end, or sent. -/
theorem callMsix_cases (s : State) :
    (msixAllowed s = false ∧ callMsix s = { s with irq.msixPending := true }) ∨
    (msixAllowed s = true ∧ s.irq.holdoffRuns = true ∧ callMsix s = { s with irq.msixDue := true }) ∨
    (msixAllowed s = true ∧ s.irq.holdoffRuns = false ∧
      callMsix s = emit .msix { s with irq.holdoffRuns := s.irq.holdoff != 0 }) := by
  unfold callMsix
  cases h : msixAllowed s with
  | false => exact .inl ⟨rfl, rfl⟩
  | true =>
    cases k : s.irq.holdoffRuns with
    | true => exact .inr (.inl ⟨rfl, rfl, rfl⟩)
    | false => exact .inr (.inr ⟨rfl, rfl, rfl⟩)

/-! ### The RoCE hold -/

/-- A port changed in the credits of its queue pairs only. -/
def portSame (e e' : EthPort) : Prop :=
  { e' with qp := e.qp } = e ∧
  ∀ i : Fin 64, e'.qp[i].map (fun q => { q with credits := 0 }) = e.qp[i].map (fun q => { q with credits := 0 })

theorem portSame_refl (e : EthPort) : portSame e e := ⟨rfl, fun _ => rfl⟩

theorem portSame_trans {a b c : EthPort} (h : portSame a b) (k : portSame b c) : portSame a c :=
  ⟨by rw [← h.1, ← k.1], fun i => (k.2 i).trans (h.2 i)⟩

/-- A stream changed in its reservations only. -/
def streamSame (m m' : Stream) : Prop := { m' with reserved := 0 } = { m with reserved := 0 }

/-- A queue pair's buffers posted leave the state but for its credits and the completions they reserve. -/
def sameButCredits (s t : State) : Prop :=
  t = { s with net.port := t.net.port, ing.stream := t.ing.stream } ∧
  (∀ p : Port, portSame s.net.port[p] t.net.port[p]) ∧ ∀ i : Strm, streamSame s.ing.stream[i] t.ing.stream[i]

theorem sameButCredits_refl (s : State) : sameButCredits s s := ⟨rfl, fun _ => portSame_refl _, fun _ => rfl⟩

theorem sameButCredits_trans {s t u : State} (h : sameButCredits s t) (k : sameButCredits t u) : sameButCredits s u := by
  obtain ⟨h1, h2, h3⟩ := h
  obtain ⟨k1, k2, k3⟩ := k
  refine ⟨?_, fun p => portSame_trans (h2 p) (k2 p), fun i => Eq.trans (k3 i) (h3 i)⟩
  rw [k1, h1]

/-- One array element changed. -/
theorem upd_get {α : Type} {n : Nat} (v : Vector α n) (i j : Fin n) (f : α → α) :
    (upd v i f)[j] = if i = j then f v[j] else v[j] := by
  simp only [upd, Fin.getElem_fin, Vector.getElem_set]
  by_cases h : i = j
  · subst h; simp
  · have : ¬ i.val = j.val := fun e => h (Fin.ext e)
    simp [h, this]

theorem credit_step (p : Port) (i : Fin 64) (k : Strm) (n : Nat) (s : State) :
    sameButCredits s (modStream k (fun m => { m with reserved := m.reserved + n })
      (modPort p (fun e => { e with qp := upd e.qp i (fun o => o.map (fun q => { q with credits := q.credits + 1 })) }) s)) := by
  refine ⟨rfl, fun p' => ?_, fun i' => ?_⟩
  · simp only [modStream_net, modPort_net, upd_get]
    split
    · refine ⟨rfl, fun j => ?_⟩
      simp only [upd_get]
      split
      · cases s.net.port[p'].qp[j] <;> rfl
      · rfl
    · exact portSame_refl _
  · simp only [modStream_ing, modPort_ing, upd_get]
    split <;> rfl

theorem postBuffersQp_frame (p : Port) (i : Fin 64) (n : Nat) (s : State) : sameButCredits s (postBuffersQp p i n s) := by
  induction n generalizing s with
  | zero => exact sameButCredits_refl s
  | succ n ih =>
    unfold postBuffersQp
    split
    · exact sameButCredits_refl s
    · dsimp only
      split
      · exact sameButCredits_trans (credit_step p i _ _ s) (ih _)
      · exact sameButCredits_refl s

/-- Posting buffers changes credits and reservations only. -/
theorem postBuffers_frame (s : State) : sameButCredits s (postBuffers s) := by
  unfold postBuffers
  refine foldl_keeps (fun t => sameButCredits s t) _ (fun t p h => ?_) _ s (sameButCredits_refl s)
  refine foldl_keeps (fun t => sameButCredits s t) _ (fun t i h => ?_) _ t h
  split
  · exact h
  · exact sameButCredits_trans h (postBuffersQp_frame p i _ t)

/-! ### Every command -/

/-- Every command ends in `settle`. -/
theorem exec_settles (i : Instr) (s : State) : ∃ t, exec i s = .next (settle s t) := by
  cases i <;> exact ⟨_, rfl⟩

end Sys2Proof.Machine
end

