-- ==== Sys2Proof/Laws/Mailbox.lean ====
section
/-!
SUPPORT. What the command protocol does with a message, once for every command.
-/
namespace Sys2Proof.Machine
open Sys2Proof Sys2Proof.Claims

/-- A message that is no command of this form, or cannot be taken, changes nothing. -/
theorem runCommand_other (k : Cmd) (c : Chan) (s : State)
    (h : takes c s = false ∨ (msgOf c s).opcode ≠ k.opcode ∨ k.mine (msgOf c s) = false) : runCommand k c s = s := by
  unfold runCommand; simp only [h, if_true]

/-- A repeat of the remembered SEQ is answered as R249 and R250 say. -/
theorem runCommand_replayed (k : Cmd) (c : Chan) (s s' : State) (ht : takes c s = true)
    (ho : (msgOf c s).opcode = k.opcode) (hm : k.mine (msgOf c s) = true)
    (hr : replayed (msgOf c s) (loaded c s) = some s') :
    runCommand k c s = s' := by
  unfold runCommand; simp [ht, ho, hm, hr]

/-- A refused command is answered with its code and changes nothing else. -/
theorem runCommand_refused (k : Cmd) (c : Chan) (s : State) (h : Taken k c s)
    (hr : refuse k (msgOf c s) (loaded c s) ≠ 0) :
    runCommand k c s = answered c (refuse k (msgOf c s) (loaded c s)) [] s (loaded c s) := by
  obtain ⟨ht, ho, hm, hn⟩ := h
  unfold runCommand
  simp only [ht, ho, hm, hn]
  generalize refuse k (msgOf c s) (loaded c s) = r at hr
  cases r with
  | zero => exact absurd rfl hr
  | succ n => simp [answered]

/-- An accepted short command does its effect and answers. -/
theorem runCommand_short (k : Cmd) (c : Chan) (s : State) (h : Accepted k c s) (hl : k.long (msgOf c s) = none) :
    runCommand k c s = answered c (k.act (msgOf c s) (loaded c s)).1 (k.act (msgOf c s) (loaded c s)).2.1 s
      (k.act (msgOf c s) (loaded c s)).2.2 := by
  obtain ⟨⟨ht, ho, hm, hn⟩, hr⟩ := h
  unfold runCommand
  simp only [ht, ho, hm, hn, hr, hl]
  simp [answered]

/-- An accepted long command takes its ticket, answers ACCEPTED, and begins. -/
theorem runCommand_long (k : Cmd) (c : Chan) (s : State) (t : Nat) (w : LongOp) (h : Accepted k c s)
    (hl : k.long (msgOf c s) = some w) (hf : freeTicket c (loaded c s) = some t) :
    runCommand k c s = k.start (msgOf c s) t (begun c w t s) := by
  obtain ⟨⟨ht, ho, hm, hn⟩, hr⟩ := h
  unfold runCommand
  simp only [ht, ho, hm, hn, hr, hl, hf]
  simp [begun]

/-- A long command that no refusal meets has a ticket to take (R252, R262). -/
theorem refuse_long_ticket (k : Cmd) (m : Msg) (s : State) (hr : refuse k m s = 0) (hl : (k.long m).isSome = true) :
    (freeTicket m.chan s).isSome = true := by
  unfold refuse at hr
  by_cases hf : (freeTicket m.chan s).isSome = true
  · exact hf
  · simp only [hl, Bool.true_and] at hr
    simp only [Option.not_isSome_iff_eq_none] at hf
    simp only [hf, Option.isNone_none, Bool.or_true, if_true] at hr
    simp [rFault, rAuth, rLength, rParam, rState, rThermal, rLimit] at hr
    repeat (split at hr <;> try contradiction)

end Sys2Proof.Machine
end

