-- ==== Sys2Proof/Laws/Staging.lean ====
section
/-!
SUPPORT. Staging memory: every operation keeps its canonical form; bytes read after bytes written.
-/
namespace Sys2Proof.Machine
open Sys2Proof

/-! ### Bytes -/

/-- The bytes of `bs`, counted from `n`, over a map. -/
theorem spGet_bytes (off k : Nat) (bs : List Byte) (n : Nat) (m : List Host.Cell) :
    spGet 0 ((bs.zipIdx n).foldl (fun m b => spSet 0 m (off + b.2) b.1) m) k =
      if off + n ≤ k ∧ k < off + n + bs.length then bs.getD (k - (off + n)) 0 else spGet 0 m k := by
  induction bs generalizing n m with
  | nil => simp only [List.zipIdx_nil, List.foldl_nil, List.length_nil]; rw [if_neg]; omega
  | cons b bs ih =>
    simp only [List.zipIdx_cons, List.foldl_cons, List.length_cons, ih, spGet_spSet]
    by_cases h1 : off + n = k
    · subst h1
      rw [if_neg (by omega), if_pos rfl, if_pos (by omega), Nat.sub_self]; rfl
    · by_cases h2 : off + (n + 1) ≤ k ∧ k < off + (n + 1) + bs.length
      · have e : k - (off + n) = (k - (off + (n + 1))) + 1 := by omega
        simp only [if_pos h2, e, List.getD_cons_succ]
        rw [if_pos (by omega)]
      · rw [if_neg h2, if_neg (by omega), if_neg (by omega)]

/-- What a byte of staging holds after bytes were stored. -/
theorem setBytes_get (off k : Nat) (bs : List Byte) (s : State) :
    spGet 0 (setBytes off bs s).stg.mem k =
      if off ≤ k ∧ k < off + bs.length then bs.getD (k - off) 0 else spGet 0 s.stg.mem k := by
  simpa using spGet_bytes off k bs 0 s.stg.mem

/-- A byte outside those stored is unchanged. -/
theorem setBytes_get_other (off k : Nat) (bs : List Byte) (s : State) (h : k < off ∨ off + bs.length ≤ k) :
    spGet 0 (setBytes off bs s).stg.mem k = spGet 0 s.stg.mem k := by
  rw [setBytes_get, if_neg (by omega)]

/-! ### The canonical form -/

theorem setBytes_wf (off : Nat) (bs : List Byte) (s : State) (h : Memory.wf s.stg.mem = true) :
    Memory.wf (setBytes off bs s).stg.mem = true := by
  have go : ∀ (bs : List Byte) (n : Nat) (m : List Host.Cell), spWf 0 m = true →
      spWf 0 ((bs.zipIdx n).foldl (fun m b => spSet 0 m (off + b.2) b.1) m) = true := by
    intro bs
    induction bs with
    | nil => intro n m h; simpa using h
    | cons b bs ih => intro n m h; simpa [List.zipIdx_cons] using ih (n + 1) _ (spWf_spSet _ _ h)
  exact go bs 0 _ h

@[simp] theorem storeLine_mem (l : Nat) (bs : List Byte) (s : State) :
    (storeLine l bs s).stg.mem = (setBytes (64 * l) bs s).stg.mem := rfl

@[simp] theorem poisonLine_mem (l : Nat) (s : State) :
    (poisonLine l s).stg.mem = (setBytes (64 * l) (List.replicate 64 0) s).stg.mem := by
  simp only [poisonLine, storeLine_mem]

theorem storeLine_wf (l : Nat) (bs : List Byte) (s : State) (h : Memory.wf s.stg.mem = true) :
    Memory.wf (storeLine l bs s).stg.mem = true := by
  rw [storeLine_mem]; exact setBytes_wf _ bs s h

theorem poisonLine_wf (l : Nat) (s : State) (h : Memory.wf s.stg.mem = true) :
    Memory.wf (poisonLine l s).stg.mem = true := by
  rw [poisonLine_mem]; exact setBytes_wf _ _ s h

/-- The flip mask touches parity, the mask itself and the errors of a line. -/
theorem fireFlip_eq (l : Nat) (s : State) : ∃ c e b r, fireFlip l s = { s with
    stg.flipCtrl := c, stg.errs := e, regs.badParity := b, regs.parityReported := r } := by
  unfold fireFlip
  generalize (s.stg.flipHi.toNat % 32) * 2 ^ 26 + s.stg.flipLo.toNat / 64 = k
  dsimp only
  split
  · split <;> exact ⟨_, _, _, _, rfl⟩
  · exact ⟨_, _, _, _, rfl⟩

@[simp] theorem fireFlip_mem (l : Nat) (s : State) : (fireFlip l s).stg.mem = s.stg.mem := by
  obtain ⟨_, _, _, _, h⟩ := fireFlip_eq l s
  rw [h]

@[simp] theorem storeWhole_mem (l : Nat) (bs : List Byte) (s : State) :
    (storeWhole l bs s).stg.mem = (setBytes (64 * l) bs s).stg.mem := by
  rw [storeWhole, fireFlip_mem, storeLine_mem]

theorem storeWhole_wf (l : Nat) (bs : List Byte) (s : State) (h : Memory.wf s.stg.mem = true) :
    Memory.wf (storeWhole l bs s).stg.mem = true := by
  rw [storeWhole_mem]; exact setBytes_wf _ bs s h

/-- No entry of the merge buffer for the line: nothing is written back. -/
theorem writeBack_none (l : Nat) (s : State) (h : s.stg.merge.find? (fun m => m.line = l) = none) :
    writeBack l s = s := by
  rw [writeBack, h]

theorem writeBack_wf (l : Nat) (s : State) (h : Memory.wf s.stg.mem = true) :
    Memory.wf (writeBack l s).stg.mem = true := by
  unfold writeBack
  split
  · exact h
  · rw [count_stg]; exact storeWhole_wf _ _ _ h

theorem writeLine_wf (l : Nat) (bs : List Byte) (s : State) (h : Memory.wf s.stg.mem = true) :
    Memory.wf (writeLine l bs s).stg.mem = true := storeWhole_wf _ _ _ (writeBack_wf _ _ h)

theorem patchLine_wf (l at' : Nat) (bs : List Byte) (s : State) (h : Memory.wf s.stg.mem = true) :
    Memory.wf (patchLine l at' bs s).stg.mem = true := by
  have hb := writeBack_wf l s h
  unfold patchLine
  dsimp only
  split
  · rw [fireFlip_mem]; exact setBytes_wf _ _ _ hb
  · exact storeWhole_wf _ _ _ hb

theorem writeInLine_wf (off : Nat) (bs : List Byte) (s : State) (h : Memory.wf s.stg.mem = true) :
    Memory.wf (writeInLine off bs s).stg.mem = true := writeLine_wf _ _ _ h

theorem writeLines_wf (off : Nat) (bs : List Byte) (s : State) (h : Memory.wf s.stg.mem = true) :
    Memory.wf (writeLines off bs s).stg.mem = true :=
  foldl_keeps (fun s => Memory.wf s.stg.mem = true) _ (fun s _ h => writeLine_wf _ _ s h) _ s h

theorem writeOwn_wf (off : Nat) (bs : List Byte) (s : State) (h : Memory.wf s.stg.mem = true) :
    Memory.wf (writeOwn off bs s).stg.mem = true :=
  foldl_keeps (fun s => Memory.wf s.stg.mem = true) _ (fun s _ h => by
    dsimp only
    split
    · exact writeLine_wf _ _ s h
    · exact patchLine_wf _ _ _ s h) _ s h

theorem writeRanges_wf (rs : List (Nat × Nat)) (bs : List Byte) (s : State) (h : Memory.wf s.stg.mem = true) :
    Memory.wf (writeRanges rs bs s).stg.mem = true := by
  induction rs generalizing bs s with
  | nil => exact h
  | cons r rs ih => exact ih _ _ (writeOwn_wf _ _ s h)

/-- What freeing an extent does to memory: its merge-buffer entries are written back, and its bytes drop. -/
theorem freeExtent_mem (e : Nat) (s : State) :
    (freeExtent e s).stg.mem = spDrop (fun k => decide (k * 1 / extBytes = e))
      ((s.stg.merge.filter (fun m => decide (m.line * 64 / extBytes = e))).foldl
        (fun s m => writeBack m.line s) s).stg.mem := rfl

theorem freeExtent_wf (e : Nat) (s : State) (h : Memory.wf s.stg.mem = true) :
    Memory.wf (freeExtent e s).stg.mem = true := by
  rw [freeExtent_mem]
  have k := foldl_keeps (fun s : State => Memory.wf s.stg.mem = true) (fun s (m : MergeLine) => writeBack m.line s)
    (fun s m h => writeBack_wf _ s h) (s.stg.merge.filter (fun m => decide (m.line * 64 / extBytes = e))) s h
  exact spWf_spDrop _ k

theorem writeOver_wf (rs : List (Nat × Nat)) (bs : List Byte) (s : State) (h : Memory.wf s.stg.mem = true) :
    Memory.wf (writeOver rs bs s).stg.mem = true := by
  induction rs generalizing bs s with
  | nil => exact h
  | cons r rs ih => exact ih _ _ (writeLines_wf _ _ s h)

theorem writePayload_wf (es : List Nat) (bs : List Byte) (s : State) (h : Memory.wf s.stg.mem = true) :
    Memory.wf (writePayload es bs s).stg.mem = true := writeOver_wf _ _ s h

theorem freeExtents_wf (es : List Nat) (s : State) (h : Memory.wf s.stg.mem = true) :
    Memory.wf (freeExtents es s).stg.mem = true :=
  foldl_keeps (fun s => Memory.wf s.stg.mem = true) _ (fun s e h => freeExtent_wf e s h) es s h

/-! ### The tether log -/

/-- A log entry touches the log, its counter, parity, and the lines of the ring: no byte that `mem` holds, no item of the
wide-value port. -/
def LogStep (s t : State) : Prop :=
  ∃ tether regs stg, t = { s with tether := tether, regs := regs, stg := stg } ∧ stg.mem = s.stg.mem ∧ regs.wv = s.regs.wv

theorem LogStep.refl (s : State) : LogStep s s := ⟨_, _, _, rfl, rfl, rfl⟩

theorem LogStep.trans {s t u : State} (h : LogStep s t) (k : LogStep t u) : LogStep s u := by
  obtain ⟨_, _, _, rfl, h1, h2⟩ := h
  obtain ⟨_, _, _, rfl, k1, k2⟩ := k
  exact ⟨_, _, _, rfl, k1.trans h1, k2.trans h2⟩

theorem storeRing_step (s : State) (k : Nat) : LogStep s (storeRing s k) := by
  obtain ⟨_, _, _, _, h⟩ := fireFlip_eq (ringBase + k % ringLines s) { s with
    stg.valid := spSet false s.stg.valid ((ringBase + k % ringLines s) / 64) true
    stg.errs := spSet [] s.stg.errs (ringBase + k % ringLines s) []
    stg.poison := spSet 0 s.stg.poison (ringBase + k % ringLines s) 0 }
  rw [storeRing, h]
  exact ⟨_, _, _, rfl, rfl, rfl⟩

theorem pushUnits_step (us : List (BitVec 128)) (s : State) : LogStep s (pushUnits us s) := by
  have h : LogStep s (count 0x8D08 us.length { s with
      tether.ring := (us ++ s.tether.ring).take (ringUnits s), tether.ringPos := s.tether.ringPos + us.length }) :=
    ⟨_, _, _, rfl, rfl, rfl⟩
  unfold pushUnits
  dsimp only
  split
  · exact foldl_keeps (fun t => LogStep s t) _ (fun t i k => k.trans (storeRing_step t _)) _ _ h
  · exact h

/-- All that a log entry can change. -/
theorem logEntry_step (kind data : Nat) (conts : List Nat) (s : State) : LogStep s (logEntry kind data conts s) := by
  unfold logEntry
  split
  · exact LogStep.refl s
  · refine LogStep.trans ⟨_, _, _, rfl, ?_, ?_⟩ (pushUnits_step _ _) <;> rfl

theorem logEntry_eq (kind data : Nat) (conts : List Nat) (s : State) :
    ∃ tether regs stg, logEntry kind data conts s = { s with tether := tether, regs := regs, stg := stg } :=
  let ⟨t, r, g, h, _⟩ := logEntry_step kind data conts s
  ⟨t, r, g, h⟩

@[simp] theorem logEntry_wv (kind data : Nat) (conts : List Nat) (s : State) :
    (logEntry kind data conts s).regs.wv = s.regs.wv := by
  obtain ⟨_, _, _, h, -, hw⟩ := logEntry_step kind data conts s
  rw [h]; exact hw

@[simp] theorem logEntry_mem (kind data : Nat) (conts : List Nat) (s : State) :
    (logEntry kind data conts s).stg.mem = s.stg.mem := by
  obtain ⟨_, _, _, h, hm, -⟩ := logEntry_step kind data conts s
  rw [h]; exact hm

/-- Loading a message only logs. -/
theorem loaded_step (c : Chan) (s : State) : LogStep s (loaded c s) := by
  unfold loaded
  split
  · exact LogStep.refl s
  · unfold loadMessage
    refine foldl_keeps (fun t => LogStep s t) _ (fun t w k => ?_) _ _ (LogStep.refl s)
    dsimp only
    split <;> exact k.trans (logEntry_step _ _ _ _)

/-! ### Layout and reading -/

theorem layOut_mem (s : State) : (layOut s).stg.mem =
    if s.boot.phase = .init ∧ s.boot.hbmReady = true ∧ s.stg.laidOut = false then
      spDrop (fun a => decide (a < 256 * extBytes)) s.stg.mem
    else s.stg.mem := by
  unfold layOut
  split
  · obtain ⟨_, _, _, h, hm, -⟩ := foldl_keeps (fun t => LogStep { s with
        stg.laidOut := true, stg.ringExtents := s.mbx.config.tetherRingMib, stg.bar2Open := true, stg.scrubbing := true
        stg.mem := spDrop (fun a => decide (a < 256 * extBytes)) s.stg.mem
        stg.errs := spDrop (fun l => decide (l < 256 * 16384)) s.stg.errs
        stg.poison := spDrop (fun l => decide (l < 256 * 16384)) s.stg.poison } t) storeRing
      (fun t i k => k.trans (storeRing_step t i)) (List.range (s.tether.ringPos / 4)) _ (LogStep.refl _)
    exact (congrArg (fun t : State => t.stg.mem) h).trans hm
  · rfl

theorem layOut_wf (s : State) (h : Memory.wf s.stg.mem = true) : Memory.wf (layOut s).stg.mem = true := by
  rw [layOut_mem]
  split
  · exact spWf_spDrop _ h
  · exact h

@[simp] theorem recordLine_mem (l k y : Nat) (s : State) : (recordLine l k y s).stg.mem = s.stg.mem := rfl

@[simp] theorem corrLine_mem (l y : Nat) (s : State) : (corrLine l y s).stg.mem = s.stg.mem := by
  simp only [corrLine, setLeaf_stg, recordLine, count_stg]

@[simp] theorem ueLine_mem (l : Nat) (s : State) : (ueLine l s).stg.mem = (poisonLine l s).stg.mem := by
  simp only [ueLine, recordLine, count_stg]

theorem ueLine_wf (l : Nat) (s : State) (h : Memory.wf s.stg.mem = true) : Memory.wf (ueLine l s).stg.mem = true := by
  rw [ueLine_mem]; exact poisonLine_wf l s h

@[simp] theorem upsetLine_mem (l : Nat) (u : Upset) (s : State) : (upsetLine l u s).stg.mem = s.stg.mem := by
  unfold upsetLine
  split
  · rfl
  · refine foldl_keeps (fun t : State => t.stg.mem = s.stg.mem) _ (fun t e h => ?_) u s rfl
    dsimp only
    split
    · exact h
    · split
      · exact h
      · split <;> exact h

theorem readLine_wf (l : Nat) (u : Upset) (s : State) (h : Memory.wf s.stg.mem = true) :
    Memory.wf (readLine l u s).2.2.stg.mem = true := by
  have hu : Memory.wf (upsetLine l u s).stg.mem = true := by rw [upsetLine_mem]; exact h
  unfold readLine
  generalize upsetLine l u s = t at hu
  dsimp only
  split
  · exact hu
  · split
    · split
      · exact hu
      · rw [recordLine_mem]; exact poisonLine_wf l t hu
    · split
      · exact hu
      · rw [corrLine_mem]; exact hu
      · split
        · rw [corrLine_mem]; exact setBytes_wf _ _ _ hu
        · repeat' split
          all_goals first
            | rw [ueLine_mem]; exact poisonLine_wf l _ hu
            | exact hu

theorem readRange_wf (off len : Nat) (u : Upset) (s : State) (h : Memory.wf s.stg.mem = true) :
    Memory.wf (readRange off len u s).2.2.stg.mem = true := by
  unfold readRange
  exact foldl_keeps (fun acc : List (List Byte) × LineOutcome × State => Memory.wf acc.2.2.stg.mem = true) _
    (fun acc i h => readLine_wf _ u _ (writeBack_wf _ _ h)) _ _ h

theorem readRanges_wf (rs : List (Nat × Nat)) (s : State) (h : Memory.wf s.stg.mem = true) :
    Memory.wf (readRanges rs s).2.2.stg.mem = true := by
  unfold readRanges
  exact foldl_keeps (fun acc : List Byte × LineOutcome × State => Memory.wf acc.2.2.stg.mem = true) _
    (fun acc r h => readRange_wf r.1 r.2 [] acc.2.2 h) rs ([], .ok, s) h

end Sys2Proof.Machine
end

