-- ==== Sys2Proof/Laws/Registers.lean ====
section
/-!
SUPPORT. What register accesses do, once for every register.
-/
namespace Sys2Proof.Machine
open Sys2Proof Sys2Proof.Claims

/-- An accepted write stores the word that has arrived. -/
theorem writeBy_accepted (o : Origin) (off : Nat) (v : Word) (s : State) (h : Writes o off s) :
    writeBy o off v s = storeReg o off v (arrived o off v s) := by
  obtain ⟨h1, h2, h3⟩ := h
  simp only [writeBy, h1, if_true, bar0Write, h2, h3, Bool.false_eq_true, if_false, writeReg, arrived]

/-- A read of an implemented register shows its value and then does what the read does. -/
theorem readBy_shown (o : Origin) (off : Nat) (s : State) (h : originUp o s = true) (hi : implemented off = true) :
    readBy o off s = bar0Effect o off (shown o off s) := by
  simp only [readBy, h, if_true, bar0Read, hi, shown]

/-- `arrived` with everything that can change left abstract. -/
theorem arrived_eq (o : Origin) (off : Nat) (v : Word) (s : State) :
    ∃ tether regs dm stg, arrived o off v s = { s with tether := tether, regs := regs, dm := dm, stg := stg } := by
  simp only [arrived, hostWriteEntry, useModule]
  cases o <;> simp only [reduceCtorEq, if_false, if_true]
  case sup => exact ⟨_, _, _, _, rfl⟩
  all_goals
    obtain ⟨t, r, g, h⟩ := logEntry_eq 0x20 _ [] _
    rw [h]; exact ⟨_, _, _, _, rfl⟩

/-- What a write leaves as it was on its way to the register. -/
theorem arrived_parts (o : Origin) (off : Nat) (v : Word) (s : State) :
    (arrived o off v s).mbx = s.mbx ∧ (arrived o off v s).boot = s.boot ∧ (arrived o off v s).power = s.power ∧
    (arrived o off v s).ing = s.ing ∧ (arrived o off v s).dma = s.dma ∧ (arrived o off v s).irq = s.irq := by
  obtain ⟨a, b, c, d, h⟩ := arrived_eq o off v s
  rw [h]; exact ⟨rfl, rfl, rfl, rfl, rfl, rfl⟩

/-- The wide-value port is as it was. -/
theorem arrived_wv (o : Origin) (off : Nat) (v : Word) (s : State) : (arrived o off v s).regs.wv = s.regs.wv := by
  simp only [arrived, hostWriteEntry, useModule]
  cases o <;> simp only [reduceCtorEq, if_false, if_true, dropParity, logEntry_wv]

end Sys2Proof.Machine
end

