-- ==== Sys2Proof/Tests/Slice0.lean ====
section
/-!
SUPPORT. Tests: ill-formed commands that the checks refuse, values the spec prints, and for every statement with hypotheses a
concrete state and operands that meet them.
-/
namespace Sys2Proof.Tests
set_option Elab.async false
open Sys2Proof Sys2Proof.Machine Sys2Proof.Claims

/-! ### States the tests start from -/

/-- A committed MAC_BASE row. -/
def macRow : FuseRow :=
  { started := true, value := 0x021000000000, crc := crc32c (leBytes 48 0x021000000000), commit := true }

/-- Firmware is READY, every domain and block on, the host link up with bus mastering; MAC_BASE is a number of the test's. -/
def up : State := { State.reset with
  boot.phase := .running, boot.fwState := 5, boot.hbmReady := true, boot.fusesLoaded := true,
  power.cclk := true, power.pll := 0xFFF, aon.resetLow := false, aon.perstLow := false, aon.vaonArmed := true,
  aon.vcoreArmed := true, aon.nvInhibit := false, i2c.enabled := true, pcie.cfgUp := true, pcie.bme := true,
  pcie.speed := 5, pcie.width := 16, dma.enabled := true, ing.enabled := true, cmp.enabled := true, cip.enabled := true,
  fmt.enabled := true, gov.enabled := true, cip.entropyOk := true, stg.stackOk := 15,
  nv.rows := State.reset.nv.rows.set 3 [macRow, {}] }

/-- Channel `c` is FULL with a message of this opcode, SEQ 1 and these parameters. -/
def say (c : Chan) (opcode : Nat) (ps : List Word) (s : State) : State := modChan c (fun k => { k with
  full := true, msg := Vector.ofFn (fun i =>
    if i.val = 0 then pack [(0, opcode), (16, 1), (24, ps.length)] else ps.getD (i.val - 1) 0) }) s

/-- The command of form `k` with these parameters, on channel 0. -/
def ask (k : Cmd) (ps : List Word) (s : State) : State := say 0 k.opcode ps s

/-- Every transport port is UP. -/
def links : State := { up with trn := Vector.replicate 8 { port := .up, downlink := true, sysref := true } }

/-- Stream 0 is OPEN on TRN_0, with rings attached. -/
def open0 : State := modStream 0 (fun x => { x with
  state := .isOpen, set := 1, keyId := 0x2A17, rings := some {
    hasSq := true, cqStg := false, sqBase := 0x10000, sqLog := 6, cqBase := 0x20000, cqLog := 6 } }) links

/-! ### Ill-formed commands are refused -/

theorem test_wf_rcFieldRead : (Instr.rcFieldRead .pcie 0x12).wellFormed = false := by decide
theorem test_wf_counterLoRead : (Instr.counterLoRead .i2c 0x10000).wellFormed = false := by decide
theorem test_wf_configWrite : (Instr.configWrite .debug 0x25 0).wellFormed = false := by decide
theorem test_wf_bar0Unsupported : (Instr.bar0UnsupportedRequest 0 0 0xF .read).wellFormed = false := by decide
theorem test_wf_bar0Poisoned : (Instr.bar0PoisonedWrite 0x10000 0).wellFormed = false := by decide
theorem test_wf_setAddr : (Instr.setAddr [0, 0, 0, 0, 0]).wellFormed = false := by decide
theorem test_wf_parityVisit : (Instr.parityCheckerVisit 0x2003 1 ).wellFormed = false := by decide
theorem test_wf_thermalSample : (Instr.thermalSample [250, 250, 250]).wellFormed = false := by decide
theorem test_wf_pcieLinkUp : (Instr.pcieLinkUp 6 { width := 16, inverted := 0 }).wellFormed = false ∧ (Instr.pcieLinkUp 5 { width := 3, inverted := 0 }).wellFormed = false := by decide
theorem test_wf_sqPull : (Instr.sqPull 0 []).wellFormed = false := by decide
theorem test_wf_landing : (Instr.landing 262144).wellFormed = false ∧ (Instr.landing 262143).wellFormed = true := by decide
theorem test_wf_bar2Read : (Instr.bar2Read (2 ^ 37 - 4) 8 []).wellFormed = false := by decide
theorem test_wf_bar2Write : (Instr.bar2Write (2 ^ 37) [0] false).wellFormed = false := by decide
theorem test_wf_narrowWrite : (Instr.narrowWrite .sup (96 * 2 ^ 30 - 1) [0, 0] []).wellFormed = false := by decide
theorem test_wf_mergeWriteBack : (Instr.mergeWriteBack (96 * 2 ^ 24)).wellFormed = false := by decide
theorem test_wf_scrubLine : (Instr.scrubLine (96 * 2 ^ 24) []).wellFormed = false := by decide
theorem test_wf_dataSetBoundary : (Instr.dataSetBoundary 0 (2 ^ 32)).wellFormed = false := by decide
theorem test_wf_finalCompletionPosted : (Instr.finalCompletionPosted 262144).wellFormed = false := by decide
theorem test_wf_identityCheck : (Instr.identityCheck 0 []).wellFormed = false := by decide
theorem test_wf_neighbourRetry : (Instr.neighbourRetry 0 256).wellFormed = false := by decide
theorem test_wf_neighbourConfirm : (Instr.neighbourConfirm 1 256).wellFormed = false := by decide
theorem test_wf_pfcReceived : (Instr.pfcReceived 0 [65535] 8).wellFormed = false := by decide
theorem test_wf_restoreBlockDecrypted : (Instr.restoreBlockDecrypted 64).wellFormed = false := by decide
theorem test_wf_restoreBlockDecoded : (Instr.restoreBlockDecoded 64).wellFormed = false := by decide
theorem test_wf_restoreRecordDone : (Instr.restoreRecordDone 64).wellFormed = false := by decide
theorem test_wf_sbaRead : (Instr.sbaRead (.put 0 false) 24).wellFormed = false := by decide
theorem test_wf_sbaWrite : (Instr.sbaWrite (.next true) 128 0).wellFormed = false := by decide
theorem test_wf_prbsCheckerLock : (Instr.prbsCheckerLock { lane := 144, errs := 0 }).wellFormed = false := by decide

/-! ### Values that the spec prints -/

/-- The nine ASCII bytes "123456789". -/
def nine : List Byte := [0x31, 0x32, 0x33, 0x34, 0x35, 0x36, 0x37, 0x38, 0x39]

/-- R452. -/
theorem test_crc64 : crc64 nine = 0x6C40DF5F0B497347 := by decide +kernel
/-- R534. -/
theorem test_crc8 : crc8 nine = 0xF4 := by decide +kernel
/-- ch12, Rows and data sets. -/
theorem test_crc32c : crc32c nine = 0xE3069283 := by decide +kernel

/-- The samples of ch10's worked case. -/
def image : List Nat := [1000, 1003, 1001, 1006, 1002, 1004, 1009, 1005]
/-- ch10, worked case: column u. -/
def imageU : List Nat := [2000, 6, 3, 10, 4, 2, 14, 7]

theorem test_residues : residues { pred := 3, signed := false, w := 16, x := 4, y := 4, firstRow := 0 } image 0 [] = imageU := by
  decide +kernel
/-- ch10, worked case: "the 7 bytes 17 7D E8 31 A9 05 CE". -/
theorem test_staticStream : (staticStream 0xFFFF (fun _ => []) 2 [imageU] none).map bitsToBytes =
    some [0x17, 0x7D, 0xE8, 0x31, 0xA9, 0x05, 0xCE] := by decide +kernel
/-- ch10, worked case: stored raw with reason NO_GAIN, STORED_LEN 56. -/
theorem test_noGain : (encodeBlock { p2 := 0x02100031, p3 := 4, p4 := 4, p5 := 0xFFFF } (fun _ => []) 0
    (image.flatMap (leBytes 2))).length = 56 := by decide +kernel
/-- R529: the first valid word in rising order, the first bit most significant. -/
theorem test_channelWord : channelWord 0 = List.replicate 6 false ++ [true] ++ List.replicate 13 false ++ [true] ++
    List.replicate 11 false ++ [true] := by decide +kernel
/-- ch12, worked case: a wrap of 1,000 m holds 34,831 data sets. -/
theorem test_perWrap : perWrap 0 (modTrn 0 (fun p => { p with lengthMm := 1000000 }) up) = 34831 := by decide +kernel
/-- ch13, worked case: at 6.0 m/s WRITE_RATE carries 0x7DD4_4135. -/
theorem test_writeRate : writeRate 6000000 = 0x7DD44135 := by decide +kernel
/-- ch04, worked case: a counter at 0x0002_FFFF_C000 answers 0xFFFF_C000, and its _HI word then 0x0002. -/
theorem test_counter : (after (exec (.counterLoRead .pcie 0x8000) (count 0x8000 0x0002FFFFC000 up))).map (fun t =>
    (t.out, bar0View .pcie 0x8004 t)) = some ([.readData .pcie 0x8000 0xFFFFC000], 2) := by decide +kernel
/-- ch03, worked case: straps 01 give the address 0x59. -/
theorem test_i2cAddress : (after (exec (.i2cAddress 0x59) { up with aon.straps := 4 })).map (fun t =>
    (t.out, t.i2c.addressed)) = some ([.i2cAck true], true) := by decide +kernel

/-! ### States and operands that meet the hypotheses of the statements about commands -/

theorem test_meets_SysQueriesAnswer :
    Accepted sysInfo 0 (ask sysInfo [2] up) ∧ Accepted sysAudit 0 (ask sysAudit [] up) ∧
    Accepted sysFaultsStatus 0 (ask sysFaultsStatus [0, 0] up) ∧
    Accepted sysFaultsRead 0 (ask sysFaultsRead [1, 0xFFFFFF] up) ∧
    Accepted sysConfigGet 0 (ask sysConfigGet [0, 5] up) ∧ configRow 5 (ask sysConfigGet [0, 5] up) = some (0x802, 0x802, 0, 0x1FFE) := by
  decide +kernel

theorem test_meets_SysSettingsComplete :
    Accepted (sysAutoVrf true) 0 (ask (sysAutoVrf true) [3, 0] up) ∧
    Accepted (sysAutoVrf false) 0 (ask (sysAutoVrf false) [4, 0] up) ∧ Accepted sysStandby 0 (ask sysStandby [5, 0] up) ∧
    Accepted sysReset 0 (ask sysReset [0x52535431] up) ∧ Accepted sysFaultsRelease 0 (ask sysFaultsRelease [2, 0] up) ∧
    Accepted sysConfigSet 0 (ask sysConfigSet [1, 4, 10000] up) := by decide +kernel

theorem test_meets_UnknownOpcodeAnswersOpcodeError : let s := say 0 0x0D01 [] up
    takes 0 s = true ∧ replayed (msgOf 0 s) s = none ∧ knownOpcodes.contains (msgOf 0 s).opcode = false := by decide +kernel

/-- What channel 0 remembers of a SYS.INFO of page 2. -/
def said : Remembered := {
  header := pack [(0, 0x0101), (16, 1), (24, 1)], params := [2], ack := 1, answer := Vector.replicate 16 0 }

/-- Channel 0 remembers it. -/
def spoken : State := modChan 0 (fun k => { k with remembered := some said }) up

theorem test_meets_RefusedCommandsChangeOnlyTheirAnswer :
    commandOf (.sysInfo 0) = some (sysInfo, 0, false) ∧ Taken sysInfo 0 (ask sysInfo [3] up) ∧
    refuse sysInfo (msgOf 0 (ask sysInfo [3] up)) (ask sysInfo [3] up) = rParam := by
  exact ⟨rfl, by decide +kernel, by decide +kernel⟩

/-- A repetition, and a message that only carries its SEQ. -/
theorem test_meets_RepeatedSeqIsReplayedOrRefused :
    commandOf (.sysInfo 0) = some (sysInfo, 0, false) ∧
    (∀ p ∈ ([[2], [1]] : List (List Word)), let s := ask sysInfo p spoken
      takes 0 s = true ∧ (msgOf 0 s).opcode = sysInfo.opcode ∧ sysInfo.mine (msgOf 0 s) = true ∧
      s.mbx.chan[(0 : Chan)].remembered = some said ∧ field said.header 16 8 = (msgOf 0 s).seq ∧
      (if p = [2] then said.header = (msgOf 0 s).header ∧ said.params = (msgOf 0 s).params
       else said.header ≠ (msgOf 0 s).header ∨ said.params ≠ (msgOf 0 s).params)) := by
  exact ⟨rfl, by decide +kernel⟩

theorem test_meets_SysLongCommandsBegin :
    (let s := ask sysDomainOn [1, 11] up; Accepted sysDomainOn 0 s ∧ freeTicket 0 s = some 0) ∧
    (let s := ask sysDomainOff [2, 2] up; Accepted sysDomainOff 0 s ∧ freeTicket 0 s = some 0) ∧
    (let s := ask sysFaultsRecover [3, 19] { up with faults.halted := 0x80000 }
     Accepted sysFaultsRecover 0 s ∧ freeTicket 0 s = some 0) := by decide +kernel

theorem test_meets_XportGovStreamQueriesAnswer :
    Accepted xportInfo 0 (ask xportInfo [7] up) ∧ Accepted govInfo 0 (ask govInfo [0] up) ∧
    Accepted streamInfo 0 (ask streamInfo [63] up) ∧
    (let s := ask govParamGet [0x800] up
     Accepted govParamGet 0 s ∧ govRange ((msgOf 0 s).f 1 8 8) = some (68, 0, 128)) := by decide +kernel

theorem test_meets_XportClearClearsDegraded :
    Accepted xportClear 0 (ask xportClear [0] (modTrn 0 (fun p => { p with degraded := true }) links)) ∧
    (let s := ask xportClear [7] up
     Taken xportClear 0 s ∧ s.trn[trnOf (msgOf 0 s)].port ≠ .up ∧ s.faults.safe = false ∧
     channelBars (msgOf 0 s) s = false ∧ (msgOf 0 s).len = 1 ∧ reservedSet [7] (msgOf 0 s) = false) := by decide +kernel

theorem test_meets_ParameterSetsComplete :
    Accepted xportParam 0 (ask xportParam [0x307, 200] up) ∧ Accepted govParamSet 0 (ask govParamSet [0x801, 128] up) ∧
    (∀ m : Fin 3, Accepted (govHold m.val) 0 (ask (govHold m.val) [1, BitVec.ofNat 32 (256 * m.val)] open0)) := by
  decide +kernel

theorem test_meets_XportLongCommandsBegin :
    (let s := ask xportLinkStart [0x107] up; Accepted xportLinkStart 0 s ∧ freeTicket 0 s = some 0) ∧
    (let s := ask xportLinkStop [0x200] links; Accepted xportLinkStop 0 s ∧ freeTicket 0 s = some 0) ∧
    (let s := ask (xportLoad true) [0x100] links; Accepted (xportLoad true) 0 s ∧ freeTicket 0 s = some 0) ∧
    (let s := ask (xportLoad false) [7] links; Accepted (xportLoad false) 0 s ∧ freeTicket 0 s = some 0) ∧
    (let s := ask xportUnload [3] links; Accepted xportUnload 0 s ∧ freeTicket 0 s = some 0) := by decide +kernel

/-- KEK slot 0 is set. -/
def withKek : State := { up with nv.rows := up.nv.rows.set 4 [
  { started := true, value := 1, crc := crc32c (beBytes 32 1), commit := true }] }

theorem test_meets_StreamProfileKeyCommandsComplete :
    Accepted streamOpen 0 (ask streamOpen [0, 1, 0x2A17, 0, 0] links) ∧
    Accepted streamAttach 0 (ask streamAttach [0x13F, 0x10000, 0, 0x0606, 0x20000, 0] up) ∧
    Accepted streamSet 0 (ask streamSet [0, 0x80] open0) ∧
    Accepted profileSet 0 (ask profileSet [31, 0x02100031, 4, 4, 0xFFFF] up) ∧
    Accepted profileLoadTable 0 (ask profileLoadTable [15, 1, 0, 0, 0, 0, 0, 0, 0] up) ∧
    (let s := ask keyLoad [0xF, 0, 0, 0, 0, 0, 0, 0, 0, 0, 0, 0, 0] withKek
     Accepted keyLoad 0 s ∧ kekOf ((msgOf 0 s).f 1 8 3) s = some 1) := by decide +kernel

/-- KEY_HASH is set and the lifecycle is PROVISIONED, as boot read it. -/
def provisioned : State := { up with nv.bootLife := 2, nv.rows := (up.nv.rows.set 0 [
    { started := true, value := 2, crc := crc32c (leBytes 48 2), commit := true }, {}]).set 1 [
    { started := true, value := 5, crc := crc32c (leBytes 48 5), commit := true }, {}] }

theorem test_meets_StreamKeyLifeLongCommandsBegin :
    (let s := ask streamFlush [0] open0; Accepted streamFlush 0 s ∧ freeTicket 0 s = some 0) ∧
    (let s := ask streamClose [0] open0; Accepted streamClose 0 s ∧ freeTicket 0 s = some 0) ∧
    (let s := ask keyClear [0x8000] up; Accepted keyClear 0 s ∧ freeTicket 0 s = some 0) ∧
    (let s := ask keyKekSet [7, 1, 2, 3, 4, 5, 6, 7, 8] up; Accepted keyKekSet 0 s ∧ freeTicket 0 s = some 0) ∧
    (let s := ask lifeSet [3, 1, 0] up; Accepted lifeSet 0 s ∧ freeTicket 0 s = some 0) ∧
    (let s := ask lifeAdvance [3, 0x4C494645] provisioned; Accepted lifeAdvance 0 s ∧ freeTicket 0 s = some 0) := by
  decide +kernel

/-- A queue pair of form W in RTS for stream 0. -/
def pair0 : Qp := {
  state := .rts, resolved := true, stream := 0, form := .w, prio := 3, remoteQpn := 7, expPsn := 100, outPsn := 0,
  remote := .v4 0x0A000002, rkey := 0x5C1E90A7, udpPort := 0xC001, base := 0, mib := 2, slot := 0, depth := 16,
  ackExp := 14, retry := 7, rnr := 7, lastErr := 0, seq := 0, fill := 0, credits := 16, footprints := [], msg := none,
  partialRec := false, cnpAt := none, nakSent := false, outstanding := [], discarded := 0, ticket := none }

/-- ETH_0 is up with an IPv4 address, and QP 0 exists. -/
def eth0 : State := modPort 0 (fun e => { e with
  enabled := true, link := true, aligned := true, ip4 := some (0x0A000001, 24), qp := e.qp.set 0 (some pair0) }) up

/-- ETH_0 is up with an IPv4 address and no queue pair. -/
def eth : State := modPort 0 (fun e => { e with enabled := true, link := true, aligned := true, ip4 := some (0x0A000001, 24) }) up

theorem test_meets_NetDmaProfileQueriesAnswer :
    Accepted netInfo 0 (ask netInfo [0x100] up) ∧
    (let s := ask netQpQuery [0] eth0
     Accepted netQpQuery 0 s ∧ getQp (portOf (msgOf 0 s)) (qpIndex (msgOf 0 s)) s = some pair0) ∧
    Accepted netNeighRead 0 (ask netNeighRead [0, 255] up) ∧ Accepted dmaInfo 0 (ask dmaInfo [] up) ∧
    Accepted dmaRings 0 (ask dmaRings [63] up) ∧ Accepted profileGet 0 (ask profileGet [31] up) ∧
    Accepted profileReadTable 0 (ask profileReadTable [31] up) := by decide +kernel

theorem test_meets_NetDmaSettingsComplete :
    (∀ q ∈ ([[0, 1, 0x0A000001, 24], [0, 2, 1, 2, 3, 4, 128, 0, 0, 0], [0x100, 3, 5, 0],
      [0x100, 4, 1, 2, 3, 4, 0, 0, 0, 0]] : List (List Word)), Accepted netAddr 0 (ask netAddr q up)) ∧
    Accepted netQpCreate 0 (ask netQpCreate [0, 0, 7, 100, 0, 0, 0x0A000002, 0, 0, 0, 2, 0, 0x000E0010] eth) ∧
    Accepted netNeighFlush 0 (ask netNeighFlush [0x200, 0] up) ∧ Accepted dmaShare 0 (ask dmaShare [8, 0] up) := by
  decide +kernel

/-- A piece of stream 0's record 5. -/
def piece5 : Piece := {
  record := 5, stream := 0, first := true, last := true, dsn := 0, wrap := 0, lpos := 0, offset := 0, length := 64,
  bytesBefore := 0, streamSeq := 0, hostTag := 9 }

/-- TRN_0 holds a cartridge loaded for reading, its index listing record 5 of stream 0. -/
def reading0 : State := modRst 0 (fun r => { r with index := some { sessions := [{
    no := 1, floor := 0, list := [], sets := [], pieces := [piece5], dsn := 1, wrap := 0, lpos := 0 }] } })
  (modTrn 0 (fun p => { p with cart := 2, loaded := .reading }) links)

theorem test_meets_NetRestoreLongCommandsBegin :
    (let s := ask netPortEnable [0x100, 1, 8, 3584, 3328, 600, 0] up; Accepted netPortEnable 0 s ∧ freeTicket 0 s = some 0) ∧
    (let s := ask netPortDisable [0, 2, 0, 0, 0, 0, 0] eth; Accepted netPortDisable 0 s ∧ freeTicket 0 s = some 0) ∧
    (let s := ask netQpDestroy [0] eth0; Accepted netQpDestroy 0 s ∧ freeTicket 0 s = some 0) ∧
    (let s := ask restoreRecord [0x20001, 5, 0, 0xFFFFFFFF, 0, 0, 0, 0, 0, 0, 0] reading0
     Accepted restoreRecord 0 s ∧ freeTicket 0 s = some 0) ∧
    (let s := ask restoreIndex [0] reading0; Accepted restoreIndex 0 s ∧ freeTicket 0 s = some 0) ∧
    (let s := ask restoreRebuild [0x100] reading0; Accepted restoreRebuild 0 s ∧ freeTicket 0 s = some 0) := by decide +kernel

theorem test_meets_KeyLifeDiagTetherRestoreQueriesAnswer :
    Accepted keyInfo 0 (ask keyInfo [] up) ∧ Accepted keyContext 0 (ask keyContext [63] up) ∧
    Accepted lifeInfo 0 (ask lifeInfo [] up) ∧ Accepted diagInfo 0 (ask diagInfo [] up) ∧
    Accepted tetherInfo 0 (ask tetherInfo [] up) ∧ Accepted tetherParamGet 0 (ask tetherParamGet [0x100] up) ∧
    Accepted restoreInfo 0 (ask restoreInfo [7] up) ∧ Accepted restoreFind 0 (ask restoreFind [1, 5, 0, 0xFFFFFFFF] reading0) ∧
    (let s := ask restoreParamGet [0x500] up
     Accepted restoreParamGet 0 s ∧ restoreRange ((msgOf 0 s).f 1 8 8) = some (1, 0, 1)) := by decide +kernel

theorem test_meets_DiagTetherSettingsComplete :
    Accepted diagInjectCmd 0 (ask diagInjectCmd [5, 7, 0] up) ∧ Accepted diagDisarmCmd 0 (ask diagDisarmCmd [0, 0, 0] up) ∧
    Accepted tetherFreeze 0 (ask tetherFreeze [] up) ∧ Accepted tetherThaw 0 (ask tetherThaw [] { up with tether.frozen := true }) ∧
    Accepted tetherParamSet 0 (ask tetherParamSet [0x101, 60000] up) ∧
    Accepted restoreParamSet 0 (ask restoreParamSet [0x301, 5] up) := by decide +kernel

/-- A run of 4 extents from extent 300 is lent; ticket 2 writes it where `w` says so. -/
def lent (w : Option Nat) : State := { up with rst.lent := [(300, 4, w)] }

theorem test_meets_RestoreReleaseReturnsALentRun :
    (let s := ask restoreRelease [300] (lent none); Accepted restoreRelease 0 s ∧
      s.rst.lent.find? (fun l => decide (l.1 = (msgOf 0 s).f 1 0 17)) = some (300, 4, none)) ∧
    (let s := ask restoreRelease [0x1FFFF] (lent none)
     Taken restoreRelease 0 s ∧ channelBars (msgOf 0 s) s = false ∧ (msgOf 0 s).len = 1 ∧
     s.rst.lent.find? (fun l => decide (l.1 = (msgOf 0 s).f 1 0 17)) = none) ∧
    (let s := ask restoreRelease [300] (lent (some 2))
     Taken restoreRelease 0 s ∧ channelBars (msgOf 0 s) s = false ∧ (msgOf 0 s).len = 1 ∧
     reservedSet [0x1FFFF] (msgOf 0 s) = false ∧
     s.rst.lent.find? (fun l => decide (l.1 = (msgOf 0 s).f 1 0 17)) = some (300, 4, some 2)) := by decide +kernel

theorem test_meets_DiagTetherLongCommandsBegin :
    (let s := ask (diagLoopCmd true) [0x107, 1] up; Accepted (diagLoopCmd true) 0 s ∧ freeTicket 0 s = some 0) ∧
    (let s := ask (diagLoopCmd false) [0, 0] eth; Accepted (diagLoopCmd false) 0 s ∧ freeTicket 0 s = some 0) ∧
    (let s := ask diagKatCmd [0x107] up; Accepted diagKatCmd 0 s ∧ freeTicket 0 s = some 0) ∧
    (let s := ask (tetherExport 0) [0, 0, 0, 0, 1] { up with tether.frozen := true }
     Accepted (tetherExport 0) 0 s ∧ freeTicket 0 s = some 0) ∧
    (let s := ask (tetherExport 1) [0x101, 0, 0, 262272, 0] { up with aon.freeze.valid := true }
     Accepted (tetherExport 1) 0 s ∧ freeTicket 0 s = some 0) ∧
    (let s := ask (tetherExport 2) [2, 0x10000, 0, 0x1000000, 0] up; Accepted (tetherExport 2) 0 s ∧ freeTicket 0 s = some 0) := by
  decide +kernel

/-! ### States and operands that meet the hypotheses of the general statements -/

theorem test_meets_EmptyQueueStepIsOneClock :
    State.reset.pending = [] ∧ State.reset.power.cclk = false ∧ up.pending = [] ∧ up.power.cclk = true ∧
    (let s : State := { up with tether.stamp := BitVec.allOnes 48 }
     s.pending = [] ∧ s.power.cclk = true ∧ s.tether.stamp.toNat = 2 ^ 48 - 1) := by decide +kernel

theorem test_meets_EveryStepKeepsOutputsCurrent : OutputsCurrent up ∧ (after (step up)).isSome = true := by
  unfold OutputsCurrent; decide +kernel

theorem test_meets_WhatFollowsFromAnyCommand :
    holdInForce up = up.net.held ∧ holdInForce { up with stg.laidOut := true, stg.ringExtents := 1024, mbx.config.highWaterMib := 1280 } = true ∧
    (∀ k ∈ ([0x01, 0x02, 0x10, 0x11, 0x20] : List Nat), itemChanged k up up = false) := by decide +kernel

theorem test_meets_WholeLineReadsBackAndPoisonReadsBad :
    (List.replicate 64 (0xA5 : Byte)).length = 64 ∧ up.stg.flipCtrl.getLsbD 31 = false := by decide +kernel

theorem test_meets_ChannelWordIsTheValidWordOfItsRank :
    (channelWord 0xFFFFFFFF).length = 33 ∧ (List.replicate 33 true).length = 33 := by decide +kernel

theorem test_meets_C1CodewordMeetsEveryCheck : (List.replicate 1024 (0x5A : Byte)).length = 1024 := by decide +kernel

theorem test_meets_CounterShadowHoldsTheHighBits :
    (∀ o ∈ ([.pcie, .i2c, .debug, .sup] : List Origin), originUp o up = true) ∧ implemented 0x8000 = true ∧
    isCounter 0x8000 = true ∧ 0x8000 % 8 = 0 ∧ 0x8000 ≤ 0x8000 ∧ 0x8000 < 0x8008 := by decide +kernel

/-! ### … of the statements about register accesses and pins -/

/-- A transaction of the management agent is open, its window at SUMMARY_MASK. -/
def opened : State := { up with i2c.addressed := true, regs.winI2c.addr := 0x24 }

theorem test_meets_I2cTargetCommandsComplete :
    (padctl opened = false ∧ padctl { opened with dm.ir := 0x08 } = true) ∧
    i2cOpen opened = true ∧ 4 ≤ ([0x24, 0, 0, 0] : List Byte).length ∧ opened.regs.winI2c.busy = false ∧
    opened.regs.winI2c.addr.toNat < 0x10000 ∧ implemented opened.regs.winI2c.addr.toNat = true ∧
    writeRefused .i2c opened.regs.winI2c.addr.toNat opened = none ∧
    (0x30 : Byte) ∉ ([0x10, 0x11, 0x12, 0x20, 0x21] : List Byte) := by decide +kernel

theorem test_meets_MailboxRegisterAccessesComplete :
    Writes .pcie 0x1040 up ∧ Writes .pcie (0x1040 + 0x100 * 7) up ∧ Writes .i2c 0x1840 up ∧ Writes .debug 0x1940 up ∧
    (1 : Word).getLsbD 0 = true ∧
    (∀ c : Chan, originUp (chanOrigin c.val) up = true ∧ (say c 0x0101 [0] up).mbx.chan[c].full = true ∧
      originUp (chanOrigin c.val) (say c 0x0101 [0] up) = true) ∧
    (∀ o ∈ ([.pcie, .i2c, .debug, .sup] : List Origin), Writes o 0x2008 up ∧ Writes o 0x200C up ∧ Writes o 0x2000 up ∧
      Writes o 0x1844 up) ∧
    (let s : State := { up with mbx.config.heartbeatMs := 100 }; s.mbx.config.heartbeatMs ≠ 0 ∧ supRuns s = true) ∧
    ({ up with mbx.resetDue := true } : State).mbx.resetDue = true := by decide +kernel

theorem test_meets_Bar0AccessesComplete :
    (∀ o ∈ ([.pcie, .i2c, .debug, .sup] : List Origin), originUp o up = true ∧ Writes o 0x24 up) ∧
    implemented 0 = true ∧ implemented 0xC00C = true ∧ implemented 0x8000 = true ∧ isCounter 0x8000 = true ∧
    0x8000 % 8 = 0 ∧
    ¬(implemented 0xFFFC = true ∧ (0xF : BitVec 4) = 0xF ∧ (1 = 1 ∨ (1 = 2 ∧ 0x2F00 ≤ 0xFFFC ∧ 0xFFFC < 0x2F88 ∧ 0xFFFC % 8 = 0))) ∧
    (∀ off ∈ [0x2F00, 0x2F80], 0x2F00 ≤ off ∧ off < 0x2F88 ∧ off % 8 = 0 ∧ implemented off = true) ∧
    (let s : State := { up with boot.phase := .rom, boot.fwState := 2 }
     Writes .pcie 0x14 s ∧ s.boot.fwState = 2 ∧ s.boot.checking = false) ∧
    Writes .pcie 0x28 up := by decide +kernel

/-- Host channel 31 has this control state. -/
def host7 (en halted : Bool) : State := modHost 7 (fun h => { h with enable := en, halted := halted }) up

theorem test_meets_RingAndDmaRegisterWritesComplete :
    Writes .pcie 0x3000 open0 ∧ Writes .pcie 0x3004 open0 ∧ open0.ing.stream[(0 : Strm)].rings.isSome = true ∧
    (open0.ing.stream[(0 : Strm)].rings.map (·.hasSq)) = some true ∧ open0.ing.stream[(0 : Strm)].state ≠ .detached ∧
    (open0.ing.stream[(0 : Strm)].rings.map (fun r => { r with hasSq := false })).map (·.hasSq) = some false ∧
    Writes .pcie (0x400C + 0x200 * 7) up ∧
    (Writes .pcie (0x4014 + 0x200 * 7) (host7 false false) ∧ (host7 false false).dma.chan[(7 : Fin 8)].enable = false) ∧
    Writes .pcie (0x4014 + 0x200 * 7) (host7 true false) ∧
    (Writes .pcie (0x4014 + 0x200 * 7) (host7 true true) ∧ (host7 true true).dma.chan[(7 : Fin 8)].enable = true ∧
      (host7 true true).dma.chan[(7 : Fin 8)].halted = true) ∧
    Writes .pcie 0x5140 up := by decide +kernel

theorem test_meets_WindowsAndWideValuesComplete :
    (∀ o ∈ ([.pcie, .debug, .sup] : List Origin), o ≠ .i2c ∧ Writes o 0x100 up ∧ Writes o 0x104 up ∧ originUp o up = true) ∧
    originUp .i2c up = true ∧
    (∀ live ∈ [true, false], let q : FarReq := { origin := .pcie, write := false, addr := 0x18000000, value := 0, live := live }
     answeredFar .pcie { up with regs.bus := [q] } = some q ∧ q.write = false) ∧
    (let q : FarReq := { origin := .debug, write := true, addr := 0x10000000, value := 5, live := true }
     let s := modTrn 0 (fun t => { t with far := [q] }) (modWin .debug (fun w => { w with far := .write 0x10000000 5 }) up)
     answeredFar .debug s = some q ∧ q.write = true ∧ (winOf .debug s).far = .write 0x10000000 5) ∧
    (let s := modWin .pcie (fun w => { w with far := .read 0x10000000 }) up
     (winOf .pcie s).far = .read 0x10000000 ∧ s.regs.bus.head? = none ∧ (∀ n : Trn, s.trn[n].far.head? = none)) ∧
    (∀ o ∈ ([.pcie, .i2c, .debug, .sup] : List Origin), Writes o 0x120 up ∧ originUp o up = true) ∧
    ({ up with regs.wv.loading := true } : State).regs.wv.loading = true := by decide +kernel

/-- A fault of this level of CMP. -/
def fault (level : Nat) : FaultRec :=
  { level := level, source := 7, leaf := 0, stamp := 0, detail := 0, preempted := false, owes := [] }

theorem test_meets_FaultHandlingStepsComplete :
    (let s : State := { up with faults.suspended := [fault 3], faults.queue := [fault 3, fault 1] }
     supRuns s = true ∧ s.faults.safe = false ∧ s.faults.inHand = none ∧
     s.faults.suspended.find? (fun g => g.level = topLevel s) = some (fault 3) ∧ fault 1 ∈ s.faults.queue) ∧
    (let s : State := { up with faults.suspended := [fault 1], faults.queue := [fault 1, fault 2] }
     supRuns s = true ∧ s.faults.safe = false ∧ s.faults.inHand = none ∧
     s.faults.suspended.find? (fun g => g.level = topLevel s) = none ∧
     s.faults.queue.find? (fun g => g.level = topLevel s) = some (fault 2)) ∧
    (let s : State := { up with faults.inHand := some (fault 1) }
     supRuns s = true ∧ s.faults.inHand = some (fault 1) ∧ (fault 1).owes = []) ∧
    ({ up with faults.safeStopping := 0x80 } : State).faults.safeStopping.getLsbD 7 = true := by decide +kernel

theorem test_meets_AuxPinEventsComplete :
    (∀ j : Fin 3, Writes .pcie (0x5D98 + 4 * j.val) up) ∧
    (modPin 23 (fun p => { p with parked := true }) up).aux.pin[(23 : Fin 24)].parked = true ∧ Writes .pcie 0x5D94 up ∧
    (∀ f ∈ ([4, 7] : List (BitVec 4)), let s := modPin 23 (fun p => { p with active := f, started := true }) up
      s.aux.pin[(23 : Fin 24)].parked = false ∧ padctl s = false ∧ auxSampled s.aux.pin[(23 : Fin 24)].active = true ∧
      auxGrids s = true) ∧ auxGrids State.reset = false ∧
    (let s := modPin 0 (fun p => { p with active := 2 }) up
     auxDrives s.aux.pin[(0 : Fin 24)].active = true ∧ s.aux.pin[(0 : Fin 24)].parked = false ∧ padctl s = false ∧
     s.faults.safe = false ∧ s.aux.cont.getLsbD 0 = false ∧ auxGrids s = true) := by decide +kernel

/-! ### … of the statements about supplies, resets, boot, domains and debug -/

/-- Only PD_AON runs. -/
def asleep : State := { State.reset with
  boot.phase := .standby, aon.resetLow := false, aon.wakePins := 0x800000, aon.nvInhibit := false, aon.perstLow := true }

theorem test_meets_SupplyResetEventsComplete :
    (padctl up = false ∧ padctl { up with dm.ir := 0x00 } = true ∧ padctl State.reset = false) ∧
    up.aon.resetLow = false ∧ (State.reset.aon.vaonDown = false ∧ State.reset.aon.resetLow = true) ∧
    ({ asleep with aon.resetLow := true } : State).boot.phase = .standby ∧
    (up.aon.vaonArmed = true ∧ up.aon.vaonLow = false ∧ up.aon.vaonDown = false) ∧
    (up.aon.vcoreArmed = true ∧ up.aon.vcoreLow = false) ∧ (up.aon.nvInhibit = false ∧ supUp up = true) ∧
    (asleep.aon.nvInhibit = false ∧ asleep.aon.vaonDown = false ∧ supUp asleep = false) ∧
    (State.reset.aon.nvInhibit = true ∧ State.reset.aon.vaonDown = false) := by decide +kernel

/-- A watchdog reset's copy with `k` units to go. -/
def copying (k : Nat) : State := { up with
  boot.phase := .copying, aon.cause := 6, aon.copying := some { buf := State.reset.aon.freeze, todo := k } }

theorem test_meets_ResetEntryLeavesResetValues :
    (up.boot.phase ≠ .held ∧ up.boot.phase ≠ .copying ∧ 10 ≤ 10) ∧ State.reset.boot.phase = .held ∧
    (copying 0).boot.phase = .copying ∧ (∀ k ∈ [4, 5], (copying k).aon.copying.map (·.todo) = some k) ∧
    (∀ c ∈ [1, 2, 10], (copying 4).aon.cause ≠ BitVec.ofNat 4 c) := by decide +kernel

theorem test_meets_ClockEventsComplete :
    (up.aon.refclkLost = false ∧ up.aon.vaonDown = false ∧ asleep.boot.phase = .standby) ∧
    (let s : State := { State.reset with boot.phase := .pll, aon.resetLow := false }
     s.boot.phase = .pll ∧ s.aon.refclkLost = false ∧ s.power.cclk = false) ∧
    supUp up = true ∧ up.power.cclk = true ∧ up.power.pll.getLsbD 0 = true ∧
    (supUp links = true ∧ (∀ n : Trn, links.power.pll.getLsbD (4 + n.val) = true) ∧ links.trn[(0 : Trn)].port = .up) ∧
    up.trn[(0 : Trn)].port ≠ .up ∧
    (∀ n, SerdesPll.pcie ≠ .trn n) ∧ (∀ n, SerdesPll.eth 1 ≠ .trn n) ∧ up.power.pll.getLsbD (pllBit .pcie) = true ∧
    up.power.pll.getLsbD (pllBit (.eth 1)) = true := by decide +kernel

theorem test_meets_PerstAndStandbyEventsComplete :
    (padctl up = false ∧ padctl asleep = false ∧ padctl State.reset = false) ∧
    (up.aon.perstLow = false ∧ up.aon.vaonDown = false) ∧ (asleep.aon.perstLow = true ∧ asleep.aon.vaonDown = false) ∧
    (State.reset.aon.perstLow = true ∧ State.reset.boot.phase ≠ .standby) ∧
    (let s : State := { up with power.standbyAcked := true }; s.power.standbyAcked = true ∧ hostUp s = true) ∧
    (asleep.boot.phase = .standby ∧ asleep.aon.wakePins.getLsbD 23 = true ∧ true ≠ asleep.aon.wakePol.getLsbD 23) := by
  decide +kernel

/-- Boot stands at this step, the PLL locked. -/
def booting (p : BootPhase) : State := { State.reset with boot.phase := p, aon.resetLow := false, power.cclk := true }

/-- Fjarma initialises over memory that is laid out. -/
def initing : State := { booting .init with stg.laidOut := true, boot.hbmReady := true }

theorem test_meets_BootEventsComplete :
    ((booting .fuses).boot.phase = .fuses ∧ (booting .fuses).faults.safe = false) ∧
    ((booting .selfTest).boot.phase = .selfTest ∧ (booting .selfTest).faults.safe = false ∧
      (booting .selfTest).boot.fwState ≠ 6) ∧
    (∀ p ∈ ([.rom, .init] : List BootPhase), (booting p).boot.hbmReady = false ∧ (booting p).faults.safe = false ∧
      ((booting p).boot.phase = .rom ∨ (booting p).boot.phase = .init)) ∧
    (7 : BitVec 4) ≠ 15 ∧ quadMode { mode114 := false, mode144 := false, addr4 := true } = none ∧
    quadMode { mode114 := true, mode144 := false, addr4 := true } = some { quadAddr := false, addr4 := true } ∧
    ((booting .rom).boot.phase = .rom ∧ bootsel (booting .rom) = 0 ∧ (booting .rom).boot.flashSpent = false) ∧
    (let s : State := { booting .rom with boot.fwState := 2, boot.checking := true }
     s.boot.phase = .rom ∧ s.faults.safe = false ∧ s.boot.fwState = 2 ∧ s.boot.checking = true) ∧
    (initing.boot.phase = .init ∧ initing.stg.laidOut = true ∧ initing.dbg.halted = false ∧ initing.faults.safe = false) ∧
    (let s : State := { up with dbg.wdArmed := true }; s.dbg.wdArmed = true ∧ s.dbg.halted = false) ∧
    (supUp up = true ∧ (List.replicate 8 (1100 : Int)).length = 8) := by decide +kernel

theorem test_meets_SensorSamplesCountUpToSixteen :
    ((1050 : Int) < 1100 ∧ 16 ≤ 16 ∧ (1100 : Int) ≤ 1100 ∧ (1050 : Int) ≤ 1050 ∧ (1050 : Int) < 1051 ∧ (1051 : Int) < 1100) ∧
    (takeSample (List.replicate 8 1100) up).2.therm.valid.getLsbD 7 = true := by decide +kernel

/-- A switch of `d` waits, or runs where `run` says so, with ticket 0. -/
def switch (d : Nat) (on run : Bool) (s : State) : State :=
  let w : DomSwitch := { dom := d, on := on, ticket := some 0 }
  modTicket 0 (fun t => { t with held := true, work := some (.domain d on) })
    { s with power.queue := if run then [] else [w], power.switching := if run then some w else none }

theorem test_meets_DomainEventsComplete :
    (∀ x ∈ ([(11, true), (11, false), (2, false)] : List (Nat × Bool)), let s := switch x.1 x.2 false up
      s.power.queue = [{ dom := x.1, on := x.2, ticket := some 0 }] ∧ s.power.switching = none ∧ supRuns s = true) ∧
    (switch 11 true true up).power.switching = some { dom := 11, on := true, ticket := some 0 } ∧
    (switch 2 false true up).power.switching = some { dom := 2, on := false, ticket := some 0 } ∧
    (∀ h : Fin 2, let s : State := { up with power.autoVrf := true }
      s.power.autoVrf = true ∧ govOn s = true ∧ domOn (8 + h.val) s = true ∧ offAllowed (8 + h.val) s = true ∧
      halfStill (8 + h.val) s = true ∧
      (∀ w ∈ s.power.queue ++ s.power.switching.toList, w.dom ≠ 8 + h.val)) ∧
    (configBits 0x24 = some 0x0FFFFFFF ∧ resetHeld up = false ∧ up.power.cclk = true ∧ configOn 0x24 up = true) ∧
    (let s := modTicket 3 (fun t => { t with held := true, work := some (.recover 19) }) up
     recovering s = some (3, 19) ∧ supRuns s = true) ∧
    (up.power.cclk = true ∧ resetHeld up = false ∧ up.power.on = 0xFFF) := by decide +kernel

theorem test_meets_SwitchToTheSameStateChangesNothing : let s := switch 11 true false up
    s.power.queue = [{ dom := 11, on := true, ticket := some 0 }] ∧ s.power.switching = none ∧ supRuns s = true ∧
    domOn 11 s = true ∧ (ticketsOf (fun l => l == .domain 11 true) s).contains 0 = true := by decide +kernel

/-- The debug agent holds the core. -/
def halted : State := { up with dbg.halted := true, dm.dmactive := true }

theorem test_meets_DebugCoreEventsComplete :
    (tapOn up = true ∧ limited up = false ∧ up.dbg.halted = false ∧ haltable up = true) ∧ limited { up with nv.bootLife := 4 } = true ∧
    (tapOn halted = true ∧ limited halted = false ∧ halted.dbg.halted = true) ∧
    (isReg 0x7B1 = true ∧ isReg 0x101F = true) ∧
    (let s : State := { halted with nv.bootLife := 3 }; tapOn s = true ∧ (limited s = true ∨ s.dbg.halted = false)) := by
  decide +kernel

theorem test_meets_DebugPortEventsComplete :
    (tapOn up = true ∧ originUp .debug up = true ∧ limited up = false) ∧
    (sbaAt (.put 0xC00C true) up = 0xC00C ∧ sbaAt (.next false) { up with dm.sbaddress := 0xC00C } = 0xC00C ∧ 0xC00C % 4 = 0 ∧
      0xC00C < 0x10000 ∧ implemented 0xC00C = true) ∧
    (let s : State := { up with nv.bootLife := 4 }
     tapOn s = true ∧ originUp .debug s = true ∧ limited s = true ∧ limitedWritable 0x1900 = true ∧ implemented 0x1900 = true) ∧
    (tapOn halted = true ∧ originUp .debug halted = true ∧ inSram (0x802FFFFC : Word).toNat = true ∧
      (0x802FFFFC : Word).toNat % 4 = 0 ∧ halted.dbg.halted = true) ∧
    (sbaBad 0 64 = some 4 ∧ sbaBad 2 32 = some 3 ∧ sbaBad 0x80300000 32 = some 2) ∧
    (let s : State := { up with dbg.loopTrn := 0x80 }
     ∃ t < 10, loopRuns t s = true ∧ 107 ∈ loopLanes t) ∧
    (let s := modTicket 1 (fun t => { t with held := true, work := some (.kat 23) }) up
     katDue s = some (1, 23) ∧ supRuns s = true) := by decide +kernel

/-! ### … of the statements about Ethernet, PCIe, staging and compression -/

/-- A neighbour of ETH_0 in this state. -/
def neigh (st : NeighState) : Neigh := { ip := .v4 0x0A000002, state := st, mac := 0x021122334455, tries := 3 }

/-- ETH_0 with QP 0 and that neighbour. -/
def ethN (st : NeighState) : State := modPort 0 (fun e => { e with neigh := [neigh st], ip6 := some (1, 64) }) eth0

theorem test_meets_EthernetFramesAndNeighboursComplete :
    portUp 0 eth0 = true ∧ portRuns 0 eth0 = true ∧ supRuns eth0 = true ∧
    ownAddress 0 (.v4 0x0A000001) (modPort 0 (fun e => { e with dad := 1 }) eth0) = true ∧
    ((ethN .failed).net.port[(0 : Port)].neigh.any (fun x => x.ip == .v4 0x0A000002)) = true ∧
    (∀ st ∈ ([.resolving, .resolved] : List NeighState), answers 0 (ethN st) = true ∧
      (ethN st).net.port[(0 : Port)].neigh[0]? = some (neigh st) ∧ (neigh st).state = st) ∧
    (portUp 0 (ethN .resolved) = true ∧ (ethN .resolved).net.port[(0 : Port)].ip6.isSome = true) := by decide +kernel

/-- A packet to QP 0 with the expected PSN. -/
def packet (op : RoceOp) : RocePkt := {
  qpn := 0x400, op := op, psn := 100, ce := false, va := 0, rkey := 0x5C1E90A7, dmaLen := 128, imm := 0,
  payload := List.replicate 128 0 }

/-- ETH_0 with QP 0 as `f` makes it. -/
def qpIs (f : Qp → Qp) : State := modQp 0 0 f eth0

/-- An outbound message of one packet with `retries` left. -/
def outMsg (retries : Nat) : OutMsg :=
  { psn := 0, packets := 1, ticket := 0, addr := 0x1000, rkey := 5, bytes := [1, 2, 3, 4], data := true, acked := 0, retries := retries }

theorem test_meets_RocePacketsAndMessagesComplete :
    (portUp 0 eth0 = true ∧ eth0.net.port[(0 : Port)].rx = [] ∧ eth0.net.port[otherPort 0].rx = [] ∧ eth0.net.pipe = 0 ∧
      getQp 0 0 eth0 = some pair0 ∧ pair0.resolved = true ∧
      pair0.state = .rts ∧
      (∀ op ∈ ([.writeOnly, .writeOnlyImm, .sendOnly] : List RoceOp), qpOf 0 (packet op) = some 0 ∧
        (packet op).ce = false ∧ (packet op).op ≠ .cnp ∧ (packet op).payload.length ≤ 4096 ∧ (packet op).psn = pair0.expPsn)) ∧
    (let s := modPort 0 (fun e => { e with rx := [packet .writeOnlyImm] }) { eth0 with ing := open0.ing }
     s.net.port[(0 : Port)].rx = [packet .writeOnlyImm] ∧ holdInForce s = false ∧ holdInForce { s with ing.debt := s.rateRoom + 1 } = true ∧
      s.net.pipe = 0 ∧ closingReady (otherPort 0) s = none ∧ getQp 0 0 s = some pair0 ∧ portRuns 0 s = true ∧
      opCloses (packet .writeOnlyImm).op = true ∧ canAccept s = true ∧ refusalWaits pair0.stream s = false) ∧
    (∀ k ∈ [0, 7], let s := qpIs (fun q => { q with outstanding := [outMsg k] })
      (getQp 0 0 s).map (·.outstanding) = some [outMsg k] ∧ portUp 0 s = true ∧ (outMsg k).retries = k) ∧
    (let s := qpIs (fun q => { q with state := .draining, ticket := some 3 })
     (getQp 0 0 s).map (fun q => (q.state, q.footprints, q.outstanding)) = some (.draining, [], [])) := by decide +kernel

/-- A closing write is a message as its packets go. -/
theorem test_meets_goodPacket : (match checkPkt pair0 (packet .writeOnlyImm) with
    | .good _ => true
    | _ => false) = true := by decide +kernel

/-- ETH_0 with these fields changed. -/
def ethIs (f : EthPort → EthPort) : State := modPort 0 f eth0

theorem test_meets_EthernetPauseAndLinkEventsComplete :
    (portUp 0 eth0 = true ∧ eth0.net.port[(0 : Port)].pausedTx = 0 ∧ eth0.net.port[(0 : Port)].pfcEn ≠ 0) ∧
    (let s := ethIs (fun e => { e with xoff := 0 }); s.net.port[(0 : Port)].xoff * 1024 ≤ rxLevel 0 s) ∧
    (let s := ethIs (fun e => { e with pausedTx := 8, pausedRx := 0x80 })
     portUp 0 s = true ∧ s.net.port[(0 : Port)].pausedTx ≠ 0 ∧ rxLevel 0 s ≤ s.net.port[(0 : Port)].xon * 1024 ∧
     s.net.port[(0 : Port)].pausedRx.getLsbD 7 = true ∧ s.net.port[(0 : Port)].pausedRx ≠ 0) ∧
    (let s := ethIs (fun e => { e with link := false, aligned := false, holdRuns := true })
     portRuns 0 s = true ∧ s.net.port[(0 : Port)].link = false ∧ s.net.port[(0 : Port)].aligned = false ∧
     s.net.port[(0 : Port)].holdRuns = true) ∧
    (portRuns 0 eth0 = true ∧ eth0.net.port[(0 : Port)].link = true ∧ eth0.net.port[(0 : Port)].aligned = true) := by
  decide +kernel

theorem test_meets_PcieLinkEventsComplete :
    hostUp up = true ∧ (1 ≤ 1 ∧ 5 ≤ 5) ∧ 1 ∈ ([1, 2, 4, 8, 16] : List Nat) ∧ 16 ∈ ([1, 2, 4, 8, 16] : List Nat) := by
  decide +kernel

/-- Stream 0 with 8 ready entries in its SQ. -/
def filled : State := modStream 0 (fun x => { x with sqTail := 8 }) open0

/-- Their pull is outstanding. -/
def asking : State := { filled with dma.sqOut := some (0, 8) }

/-- The pull of entry 63 of stream 0, its payload not in. -/
def pull63 : Pull := { no := 0, idx := 63, addr := 0x100000, len := 64, swap := 0, hostTag := 1, exts := [300], asked := true, data := none, refused := none }

/-- It is under way. -/
def pulling : State := modStream 0 (fun x => { x with pulls := [pull63], reserved := 1 }) open0

/-- Record 0 of stream 0, its 64 bytes in staging, in this state of its one block. -/
def record (b : Blk) (holder : Holder) : Rec := {
  stream := 0, number := 0, hostTag := 1, origLen := 64, src := .sq 0, segs := [(300 * extBytes, 64)], holder := holder,
  lastLine := none, landed := true, stagedDue := false, blocks := [b], slot := none, placed := 0, rowsDue := [],
  pieces := [], verdict := none, entered := none, lateExempt := false }

/-- Descriptor 0 holds it. -/
def held (b : Blk) (holder : Holder) : State :=
  modStream 0 (fun x => { x with order := [0], accepted := 1 }) { open0 with ing.recs := [(0, some (record b holder))] }

/-- Host channel 0 fetches a descriptor. -/
def fetching : State := modHost 0 (fun h => { h with enable := true, tail := 1, fetching := true }) up

/-- A descriptor of 64 bytes to or from staging offset 0x2_0000_0000, by its DIR bit. -/
def descr (out : Bool) : BitVec 256 :=
  BitVec.ofNat 256 (0x10000 + 2 ^ 64 * 0x200000000 + 2 ^ 128 * 64 + 2 ^ 160 * b2n out)

/-- Host channel 0 has it in progress. -/
def moving (out : Bool) : State := modHost 0 (fun h => { h with enable := true, asked := !out, desc := some (descr out) }) up

theorem test_meets_SubmissionAndHostChannelEventsComplete :
    (pullComes 0 1 asking = true ∧ pullComes 0 8 asking = true) ∧
    (openPull 0 63 pulling = some pull63 ∧ (List.replicate 64 (0 : Byte)).length = pull63.len ∧
      (pulling.dbg.armed.find? (fun a => a.code == 3)) = none ∧ pcieAlive pulling = true) ∧
    (getRec 0 (held {} .ing)).isSome = true ∧
    (readOpen (.sq 0) asking = true ∧ readOpen (.payload 0 63) pulling = true ∧ readOpen (.fetch 0) fetching = true ∧
      readOpen (.data 0) (moving false) = true) ∧
    fetchComes 0 fetching = true ∧
    (∀ b : Bool, (moving b).dma.chan[(0 : Fin 8)].desc = some (descr b) ∧ pcieIssues (moving b) = true ∧
      ((moving b).dbg.armed.find? (fun a => a.code == 3)) = none ∧ descDir (descr b) = b ∧ pcieAlive (moving b) = true) ∧
    ((List.replicate 64 (0 : Byte)).length = descLen (descr false) ∧ (moving false).dma.chan[(0 : Fin 8)].asked = true ∧
      (moving true).dma.shareWr ≠ 0 ∧ (moving true).dma.shareRd ≠ 0) := by decide +kernel

theorem test_meets_StagingEventsComplete :
    (hostUp up = true ∧ 0 < 4 ∧ ([1] : List Byte) ≠ []) ∧ isNarrow 0x200000000 4 = true ∧ isNarrow 63 1 = true ∧
    isNarrow 63 2 = false ∧
    (let s : State := { up with stg.bar2Open := true, stg.laidOut := true, stg.lent := [8192] }
     hostUp s = true ∧ hostReach true (8192 * extBytes) 4 s = true ∧ isNarrow (8192 * extBytes) 4 = true) ∧
    ((moving false).dma.chan[(0 : Fin 8)].desc = some (descr false) ∧ descDir (descr false) = false ∧
      pcieAlive (moving false) = true ∧ (moving false).dma.chan[(0 : Fin 8)].asked = true ∧ descStg (descr false) ≤ 0x200000000 ∧
      0x200000000 + ([1, 2, 3, 4] : List Byte).length ≤ descStg (descr false) + descLen (descr false)) ∧
    (let s : State := { up with stg.laidOut := true }; supRuns s = true ∧ isControl (64 / 64) s = true ∧ isNarrow 64 8 = true) ∧
    (let s : State := { up with stg.scrubbing := true, stg.laidOut := true }; s.stg.scrubbing = true ∧ lineValid 0 s = true) ∧
    (∀ k : Fin 4, up.stg.stackOk.getLsbD k.val = true) := by decide +kernel

/-- CMP with this work in engine 15, over record 0. -/
def coding (f : Engine → Engine) : State :=
  let s := held { st := .inEngine } .cmp
  { s with cmp.engine := upd s.cmp.engine 15 f }

/-- A restore block waits: a request of ticket 2 with one plaintext block. -/
def restoring (q : Request) (s : State) : State := { s with rst.reqs := [q] }

/-- A request of ticket 2 on TRN_0, without output yet. -/
def request : Request := {
  ticket := 2, trn := 0, stream := 0, number := 5, output := 2, rawItem := false, swap := 0, notify := false, dest := 0,
  bufLen := 0, port := 0, qp := 0, rkey := 0, resAddr := 0, todo := [], mid := false, cut := false, hostTag := 9, got := 0,
  exts := [], broken := false, env := none, slot := none, pos := 64, index := 0, plain := [], decoded := 0, delivered := 0,
  good := 0, carry := [], verdict := 0, ladder := 0, sets := 0, lent := none, code := none, told := false, msg := [],
  sent := 0, unacked := 0, acked := 0 }

theorem test_meets_CompressionEventsComplete :
    (cmpOn (held {} .ing) = true ∧ (List.finRange 16).find? (fun e => engineFree e (packAll (held {} .ing))) = some 0 ∧
      decodeWaiting (packAll (held {} .ing)) = none ∧ packStuck (packAll (held {} .ing)) = false ∧
      (roundFrom (packAll (held {} .ing)).cmp.turn).findSome?
        (fun i => (nextToCode i (packAll (held {} .ing))).map (fun x => (i, x))) = some (0, 0, 0)) ∧
    (let s := restoring { request with plain := [([], true)] } up
     cmpOn s = true ∧ (List.finRange 16).find? (fun e => engineFree e (packAll s)) = some 0 ∧
     decodeWaiting (packAll s) = some 2) ∧
    (let s := coding (fun e => { e with job := some (.code 0 0) })
     cmpOn s = true ∧ s.cmp.engine[(15 : Fin 16)].job = some (.code 0 0) ∧
     (s.dbg.armed.find? (fun a => a.code == 4 && decide (a.p2.toNat = 15))) = none ∧
     getRec 0 s = some (record { st := .inEngine } .cmp) ∧ (record { st := .inEngine } .cmp).verdict = none ∧
     (readHeld 0 (blockRanges (profileOf 0 s) (record { st := .inEngine } .cmp) 0) s).1 = some (List.replicate 64 0)) ∧
    (let s := coding (fun e => { e with katDue := true })
     cmpOn s = true ∧ supRuns s = true ∧ s.cmp.engine[(15 : Fin 16)].katDue = true) ∧
    (coding (fun e => { e with kat := true })).cmp.engine[(15 : Fin 16)].kat = true := by decide +kernel

/-! ### … of the statements about the cipher, transports, writing, restore and the tether log -/

/-- Key slot 15 holds a key. -/
def keyed (st : SlotState) (s : State) : State :=
  { s with cip.slot := s.cip.slot.set 15 { state := st, keyId := 0x2A17, key := 7, kek := 0 } }

/-- A packed block of record 0, 56 bytes coded. -/
def packedBlk (st : BlkState) : Blk := { st := st, raw := true, len := 56, segs := [(400 * extBytes, 88)], iv := List.replicate 12 1 }

/-- Record 0 bound to slot 15, its block in unit 7 as `job` says. -/
def ciphering (job : Option CipJob) : State :=
  let s := keyed .valid (modRec 0 (fun v => { v with slot := some 15 }) (held (packedBlk .inUnit) .cip))
  { s with cip.unit := upd s.cip.unit 7 (fun x => { x with job := job }) }

/-- The envelope of record 5. -/
def env5 : Envelope := { stream := 0, record := 5, hostTag := 9, origLen := 64, blocks := 1, profile := 0, keyId := 0x2A17, storedLen := 88,
                         iv0 := List.replicate 12 1, raw := 1 }

/-- A fuse change of MAC_BASE in this phase. -/
def fusing (tries : Nat) (row : Bool) : State :=
  let op : NvOp := { item := 3, value := 1, ticket := some 0, tries := tries }
  { up with nv.phase := if row then .row op 1 else .unlocked op }

theorem test_meets_CipherKeyAndFuseEventsComplete :
    (let s := held (packedBlk .packed) .cip
     cipOn s = true ∧ (List.finRange 8).find? (fun u => unitFree u s) = some 0 ∧ (nextRestore s).isNone = true ∧
     (againWaiting s).isNone = true ∧
     (roundFrom s.cip.turn).findSome? (fun i => (nextToEncrypt i s).map (fun x => (i, x))) =
       some (0, 0, 0, record (packedBlk .packed) .cip)) ∧
    (let s : State := { held (packedBlk .encrypted) .cip with cip.again := [(0, 0)] }
     (List.finRange 8).find? (fun u => unitFree u s) = some 0 ∧ (nextRestore s).isNone = true ∧
     againWaiting s = some (0, 0, record (packedBlk .encrypted) .cip)) ∧
    (let s := restoring { request with env := some env5, got := 120 } up
     (List.finRange 8).find? (fun u => unitFree u s) = some 0 ∧ (nextRestore s).isSome = true) ∧
    (let s := ciphering (some (.encrypt 0 0))
     cipOn s = true ∧ s.cip.unit[(7 : Fin 8)].job = some (.encrypt 0 0) ∧ (liveRec 0 s).isSome = true ∧
     masksLast 7 (aesBlocks 56) s = true ∧ slotLive 15 (freeUnit 7 (spendMasks 7 (aesBlocks 56) s)) = true ∧
     (readHeld 0 (subRanges (packedBlk .inUnit).segs 16 56) (freeUnit 7 (spendMasks 7 (aesBlocks 56) s))).1 =
       some (List.replicate 56 0)) ∧
    (let s := ciphering (some (.again 0 0))
     cipOn s = true ∧ (List.finRange 8).findSome? (fun u => match s.cip.unit[u].job with
      | some (.again r k) => some (u, r, k)
      | _ => none) = some (7, 0, 0) ∧ (liveRec 0 s).isSome = true ∧ masksLast 7 (2 * aesBlocks 56) s = true) ∧
    (domOn 6 up = true ∧ up.cip.entropyOk = true ∧ haltedSrc 8 up = false ∧ cipOn up = true ∧
      up.cip.unit[(0 : Fin 8)].off = false ∧ keyOn up = true ∧ (up.dbg.armed.find? (fun a => a.code == 9)) = none) ∧
    (let s := keyed .clearing up
     s.cip.slot[(15 : Fin 16)].state = .clearing ∧ recsBound 15 s = 0 ∧ domOn 6 s = true) ∧
    ((fusing 0 false).nv.phase = .unlocked { item := 3, value := 1, ticket := some 0, tries := 0 } ∧
      (fusing 2 false).nv.phase = .unlocked { item := 3, value := 1, ticket := some 0, tries := 2 }) ∧
    (fusing 0 true).nv.phase = .row { item := 3, value := 1, ticket := some 0, tries := 0 } 1 ∧
    (supRuns (fusing 0 false) = true ∧ (fusing 0 false).aon.nvInhibit = false ∧
      ((((fusing 0 false).nv.rows[3]?).getD []).zipIdx.find? (fun r => !r.1.started)).map (·.2) = some 1) := by decide +kernel

/-- TRN_7's port as `f` makes it. -/
def port7 (f : TrnPort → TrnPort) : State := modTrn 7 f links

/-- The ten identity words of TRN_7, each with `word` in its fields. -/
def identities (good : Bool) : List LaneId := (List.finRange 10).map (fun l =>
  { lane := l, word := BitVec.ofNat 48 (2 ^ 44 * l.val + 2 ^ 41 * (if good then 7 else 6)), aligned := true, inverted := good })

theorem test_meets_LinkStartEventsComplete :
    (let s := port7 (fun p => { p with port := .starting })
     Heard 7 s ∧ s.trn[(7 : Trn)].port = .starting ∧ s.trn[(7 : Trn)].hello = false ∧ s.trn[(7 : Trn)].identified = false ∧
     (9 : Fin 14).val < 10) ∧
    (∀ b : Bool, ∀ l : Fin 10, ∃ i ∈ identities b, i.lane.val = l.val) ∧
    (let s := port7 (fun p => { p with
      port := .starting, hello := true, identified := true, credit0 := 16384, credit1 := 16384 })
     s.trn[(7 : Trn)].port = .starting ∧ s.trn[(7 : Trn)].hello = true ∧ s.trn[(7 : Trn)].identified = true ∧
     s.trn[(7 : Trn)].credit0 = 16384 ∧ s.trn[(7 : Trn)].credit1 = 16384) := by decide +kernel

/-- A load of TRN_7, ticket 1, in this phase. -/
def load7 (ph : LoadPhase) : Loading :=
  { ticket := 1, forWrite := true, phase := ph, scan := { ticket := 1, purpose := .load, phase := .search 0 192, goal := (0, 0, 0) } }

/-- Injector 7 is armed for TRN_7. -/
def spoiled : State := { links with dbg.armed := [{ code := 7, p2 := 7, p3 := 0 }] }

/-- A CARTRIDGE message. -/
def cart (st : BitVec 2) : CartMsg := { state := st, wp := false, notXt1 := false, id := some 77, lengthMm := 1000000 }

theorem test_meets_StatusMessagesComplete :
    (Heard 7 links ∧ links.trn[(7 : Trn)].port = .up) ∧
    (let s := port7 (fun p => { p with port := .starting }); Heard 7 s ∧ s.trn[(7 : Trn)].port = .starting) ∧
    (links.trn[(7 : Trn)].loading = none ∧ (∀ k, links.trn[(7 : Trn)].unloading ≠ some (k, true))) ∧
    (let s := port7 (fun p => { p with loading := some (load7 .threading) })
     Heard 7 s ∧ s.trn[(7 : Trn)].loading = some (load7 .threading) ∧ (load7 .threading).phase = .threading ∧ (cart 2).state = 2) ∧
    (let s := port7 (fun p => { p with unloading := some (1, true) })
     Heard 7 s ∧ s.trn[(7 : Trn)].loading = none ∧ s.trn[(7 : Trn)].unloading = some (1, true) ∧
     (cart 0).state = 0 ∧ (cart 1).state = 1) ∧
    (let s := port7 (fun p => { p with lostRoles := 1 })
     Heard 7 s ∧ (∀ k < 4, (1 : Word).getLsbD k = true → s.trn[(7 : Trn)].lostRoles.getLsbD k = true) ∧
     (∀ r < 3, r ≠ 0 → ∀ k < 4, ((BitVec.ofNat 32 (1 + 2 ^ r)).getLsbD k && !s.trn[(7 : Trn)].lostRoles.getLsbD k) = decide (k = r))) ∧
    (let q : FarReq := { origin := .pcie, write := false, addr := 0x17000010, value := 0, live := true }
     let s := port7 (fun p => { p with far := [q] })
     Heard 7 s ∧ s.trn[(7 : Trn)].far = [q] ∧ q.addr % 0x1000000 = (0x10 : Word).toNat % 0x1000000) ∧
    (1 ≤ (1 : Byte).toNat ∧ (3 : Byte).toNat ≤ 3) ∧
    (rxUp 7 spoiled = true ∧ spoiled.dbg.armed.find? (fun a => a.code == 7 && decide (a.p2.toNat = 7)) =
      some { code := 7, p2 := 7, p3 := 0 }) := by
  refine ⟨by decide +kernel, by decide +kernel, ⟨by decide +kernel, fun k => ?_⟩, by decide +kernel⟩
  intro h
  have h' : links.trn[(7 : Trn)].unloading = none := by decide +kernel
  rw [h'] at h
  cases h

theorem test_meets_TransportLossEventsComplete :
    (links.trn[(7 : Trn)].port = .up ∧ (port7 (fun p => { p with motion := 2 })).trn[(7 : Trn)].port = .up ∧
      (port7 (fun p => { p with motion := 2 })).trn[(7 : Trn)].motion = 2 ∧ (9 : Fin 14).val < 10) ∧
    (∀ b : Bool, ({ valid := b, pes := 0, speed := 0, lpos := 0 } : ServoFrame).valid = b) ∧
    (∀ g ∈ ([.stopping, .restarting, .turning] : List GovState), let s := modGov 7 (fun m => { m with state := g }) links
      govOn s = true ∧ s.gov.mem[(7 : Trn)].state ∈ ([.stopping, .restarting, .turning] : List GovState)) ∧
    (let s := modGov 7 (fun m => { m with state := .running }) (port7 (fun p => { p with motion := 1 }))
     govOn s = true ∧ s.gov.mem[(7 : Trn)].state = .running ∧ s.trn[(7 : Trn)].motion = 1) ∧
    (modGov 7 (fun m => { m with locating := true }) links).gov.mem[(7 : Trn)].locating = true := by decide +kernel

/-- TRN_7 writes a session at a data-set boundary. -/
def session7 (ending : Bool) : Session := { no := 1, firstDsn := 0, prev := none, floor := 0, old := [], added := [], inv := 0, pieces := [], sets := [], written := 0, ending := ending }

/-- The member runs at speed. -/
def writing (ending : Bool) : State := modGov 7 (fun m => { m with state := .running })
  (modFmt 7 (fun f => { f with session := some (session7 ending) })
    (port7 (fun p => { p with loaded := .writing, cart := 2, motion := 2, gate := true, credit0 := 16384, credit1 := 16384,
                              lengthMm := 100 })))

/-- One codeword as VRF reads it. -/
def codeword (ok : Bool) : CwRead :=
  { sync := some 0, idOk := true, idSame := true, signal := .outcome (if ok then 1 else 0) 33 (if ok then 1024 else 1025) none }

/-- A row waits for its ruling. -/
def ruling (armed : List Injector) : State :=
  modFmt 7 (fun f => { f with unruled := [(0, 0, 0)], deep := 1 }) { links with dbg.armed := armed }

theorem test_meets_WritingAndVerifyEventsComplete :
    (fmtOn (writing false) = true ∧ (writing false).trn[(7 : Trn)].loaded = .writing ∧
      (writing false).fmt.trn[(7 : Trn)].session.isSome = true ∧ readyToWrite 7 (writing false) = true ∧
      atBoundary 7 (writing false) = true) ∧
    ((writing false).trn[(7 : Trn)].gate = true ∧ (writing false).trn[(7 : Trn)].credit0 ≥ rowBlocks ∧
      (writing false).trn[(7 : Trn)].credit1 ≥ rowBlocks ∧
      (modFmt 7 (fun f => { f with rowOpen := true }) (writing false)).fmt.trn[(7 : Trn)].rowOpen = true) ∧
    (vrfOn 7 (ruling []) = true ∧ (ruling []).fmt.trn[(7 : Trn)].unruled ≠ [] ∧ (ruling []).fmt.trn[(7 : Trn)].deep ≠ 0 ∧
      (List.replicate 64 (codeword false)).length = 64 ∧
      ((ruling []).dbg.armed.find? (fun a => a.code == 5 && decide (a.p2.toNat = 7))) = none) ∧
    (let s := ruling [{ code := 5, p2 := 7, p3 := 0 }]
     vrfOn 7 s = true ∧ s.fmt.trn[(7 : Trn)].unruled ≠ [] ∧ (List.replicate 64 (codeword true)).length = 64 ∧
     (∀ c ∈ (rowVerdicts 7 (List.replicate 64 (codeword true)) { s with dbg.armed := [] }).1, c.verifies = true) ∧
     s.dbg.armed.filter (fun a => a.code != 5) = [] ∧
     s.dbg.armed.find? (fun a => a.code == 5 && decide (a.p2.toNat = 7)) = some { code := 5, p2 := 7, p3 := 0 }) ∧
    (let s := writing true
     s.fmt.trn[(7 : Trn)].session = some (session7 true) ∧ (session7 true).ending = true ∧ fmtOn s = true ∧
     s.fmt.trn[(7 : Trn)].cur = none ∧ itemsPending 7 s = false ∧ readyToWrite 7 s = true ∧ stopNow 7 s = false) := by
  decide +kernel

theorem test_meets_FinalCompletionsAndGovernorEventsComplete :
    owedToFault 0 up = false ∧ supRuns open0 = true ∧
    (let s := modStream 0 (fun x => { x with state := .closing, closeTicket := some 1 }) open0
     supRuns s = true ∧ s.ing.stream[(0 : Strm)].closeTicket = some 1 ∧ s.ing.stream[(0 : Strm)].state = .closing ∧
     s.ing.stream[(0 : Strm)].order = [] ∧ s.ing.stream[(0 : Strm)].pulls = [] ∧ s.ing.stream[(0 : Strm)].held = [] ∧
     s.ing.stream[(0 : Strm)].flushes = []) ∧
    govOn up = true ∧
    (let s := modFmt 7 (fun f => { f with inWrap := 3 }) (writing false)
     govOn s = true ∧ fmtOn s = true ∧ s.gov.mem[(7 : Trn)].state = .running ∧ s.fmt.trn[(7 : Trn)].session.isSome = true ∧
     s.fmt.trn[(7 : Trn)].cur = none ∧ s.fmt.trn[(7 : Trn)].inWrap ≥ perWrap 7 s ∧ s.trn[(7 : Trn)].wrap < 191) := by
  decide +kernel

/-- A search on TRN_7 that is over. -/
def scanOf (p : ScanFor) (wraps : Nat) (last : Option Dsi) : Scan :=
  { ticket := 1, purpose := p, phase := .ended, goal := (0, 0, 0), wraps := wraps, last := last }

/-- TRN_7 with that search and an index. -/
def scanned (x : Scan) : State := modRst 7 (fun r => { r with scan := some x, index := some {} }) links

/-- Information of a data set of session 1. -/
def dsi1 : Dsi := {
  kind := 0, pos := 0, k := 0, wrap := 0, rewrite := 0, stream := 0, dsn := 4, fill := 0, group := 0, lpos := 0,
  sessionNo := 1, cartridge := 0, streamSeq := 0, firstItem := 0, bytesBefore := 0, recordAtStart := 0, linkDsn := 0,
  linkWrap := 0, linkLpos := 0 }

/-- A rebuild with COMMIT that is over, its newest data set in a session without a manifest. -/
def lostSession : Scan := { scanOf (.rebuild true) 1 (some dsi1) with
  endDsi := some dsi1, newest := some { no := 0, floor := 0, list := [], sets := [], pieces := [], dsn := 1, wrap := 0, lpos := 0 } }

/-- Request 2 with its envelope read and its slot bound, its bytes in extent 500. -/
def request2 : Request := { request with env := some env5, slot := some 15, got := 152, exts := [500] }

/-- Unit 7 holds the next block of request 2. -/
def decrypting2 : State :=
  let s := keyed .valid (restoring request2 up)
  { s with cip.unit := upd s.cip.unit 7 (fun x => { x with job := some (.decrypt 2) }) }

theorem test_meets_RestoreEventsComplete :
    (let s := port7 (fun p => { p with loading := some (load7 .reading) })
     canRead 7 s = true ∧ s.trn[(7 : Trn)].loading = some (load7 .reading) ∧ (load7 .reading).phase = .reading) ∧
    (let s := modRst 7 (fun r => { r with reading := true }) links
     canRead 7 s = true ∧ s.trn[(7 : Trn)].loading = none ∧ s.rst.trn[(7 : Trn)].reading = true) ∧
    (let s := restoring { request with env := some env5, plain := [([1, 2], true)] } up
     let t : State := { s with cmp.engine := upd s.cmp.engine 15 (fun e => { e with job := some (.decode 2) }) }
     cmpOn t = true ∧ engineFor 2 t = some 15 ∧ (findReq 2 t).map (fun q => (q.env, q.plain)) = some (some env5, [([1, 2], true)]) ∧
     outReady { request with env := some env5, plain := [([1, 2], true)] } t = true) ∧
    (let s := restoring { request with code := some 0, told := true } up
     supRuns s = true ∧ (findReq 2 (feedCached 2 17 (settleReq 2 (pumpRaw 2 s)))).map (fun q => (q.code, q.told, q.unacked)) = some (some 0, true, 0)) ∧
    (∀ w ∈ [0, 1], let s := scanned (scanOf .index w none)
      supRuns s = true ∧ s.rst.trn[(7 : Trn)].scan = some (scanOf .index w none) ∧ s.rst.trn[(7 : Trn)].index = some {}) ∧
    (∀ b : Bool, let s := scanned (scanOf (.rebuild b) 1 none)
      supRuns s = true ∧ s.rst.trn[(7 : Trn)].scan = some (scanOf (.rebuild b) 1 none) ∧ (fitIndex 7 s).isSome = true) ∧
    (let s := scanned lostSession
     supRuns s = true ∧ s.rst.trn[(7 : Trn)].scan = some lostSession ∧ lostSession.phase = .ended ∧
     lostSession.purpose = .rebuild true ∧ lostSession.last = some dsi1 ∧ lostSession.endDsi = some dsi1 ∧
     lostSession.newest.map (·.no) = some 0 ∧ 0 ≠ dsi1.sessionNo ∧ (fitIndex 7 s).isSome = true) := by decide +kernel

theorem test_meets_restoreBlockDecrypted :
    cipOn decrypting2 = true ∧ unitFor 2 decrypting2 = some 7 ∧ findReq 2 decrypting2 = some request2 ∧
    request2.env = some env5 ∧
    blockLen request2 env5 (reqKey request2 decrypting2) request2.pos decrypting2 = 88 ∧
    masksLast 7 (aesBlocks (88 - 32)) decrypting2 = true ∧
    (readRun request2 request2.pos 88 (freeUnit 7 (spendMasks 7 (aesBlocks (88 - 32)) decrypting2))).1.isSome = true := by
  decide +kernel

/-- An export from this source, ticket 4, to staging extents 600 on. -/
def export4 (source : Nat) : Export := {
  ticket := 4, source := source, toStaging := source != 2, addr := 0, buf := 2 ^ 24, done := 0, units := 0, lent := some (600, 1),
  first := none, last := 0, anchors := 0 }

theorem test_meets_TetherEventsComplete :
    (∀ k ∈ [0, 1, 2], ({ up with tether.exporting := some (export4 k) } : State).tether.exporting = some (export4 k) ∧
      (export4 k).source = k) ∧
    (pcieIssues { up with tether.exporting := some (export4 2) } = true ∧ (export4 1).lent.isSome = true) ∧
    coreRuns up = true ∧ ({ up with tether.anchoring := some 1 } : State).tether.anchoring = some 1 ∧ up.power.cclk = true ∧
    1 ≠ 0 := by decide +kernel

/-! ### Worked cases of the spec, one step each -/

/-- ch06, worked case, before step 1: PD_VRFB is off; the host pool's tickets 0 to 4 are held (log 157). -/
def before : State := { up with power.on := 0xDFF, mbx.ticket := Vector.ofFn (fun t => if t.val < 5 then { held := true } else {}) }

/-- ch06, worked case, step 1: the message of MBX_2. -/
def step1 : State := modChan 2 (fun k => { k with
  full := true, msg := ((k.msg.set 0 0x02370102).set 1 1).set 2 9 }) before

/-- ch06, worked case, step 3: ACK 0x3705_0001, and FULL clears. -/
theorem test_domainOn_ack : (after (exec (.sysPowerDomainOn 2) step1)).map (fun t =>
    (t.mbx.chan[(2 : Chan)].ack, t.mbx.chan[(2 : Chan)].full, t.power.queue.map (·.dom))) = some (0x37050001, false, [9]) := by
  decide +kernel

/-- ch06, worked case, before step 11: the switch of ticket 5 runs. -/
def switching5 : State := modTicket 5 (fun t => { t with held := true, chan := 2, header := 0x02370102, work := some (.domain 9 true) })
  { before with power.switching := some { dom := 9, on := true, ticket := some 5 } }

/-- ch06, worked case, step 11: slot 5, CQ_DONE_0 and DB_STAT. -/
theorem test_domainOn_done : (after (exec .domainSwitchDone switching5)).map (fun t =>
    ((List.range 3).map (fun i => bar0View .pcie (0x24A0 + 4 * i) t), bar0View .pcie 0x2008 t, bar0View .pcie 0x2000 t)) =
    some ([0x02370102, 0, 0xFFF], 0x20, 4) := by decide +kernel

/-- ch06, worked case, step 5: SYS.AUDIT is answered with ACK 0x3800_0000, header 0x0338_0104 and A1 = 1. -/
theorem test_audit : (after (exec (.sysAudit 2) (modChan 2 (fun k => { k with
      full := true, msg := k.msg.set 0 0x00380104 }) up))).map (fun t =>
    (t.mbx.chan[(2 : Chan)].ack, t.mbx.chan[(2 : Chan)].msg[0], t.mbx.chan[(2 : Chan)].msg[1])) =
    some (0x38000000, 0x03380104, 1) := by decide +kernel

/-- ch08, worked case: QP numbers 0x400 on ETH_0 and 0x440 on ETH_1; frames of 4,194, 4,178 and 150 bytes, the 20 of preamble
and gap among them. -/
theorem test_roceFrames : qpOf 0 { packet .writeOnly with qpn := 0x400 } = some 0 ∧
    qpOf 1 { packet .writeOnly with qpn := 0x440 } = some 0 ∧
    [frameBytes false false (16 + 4096), frameBytes false false 4096, frameBytes false false (4 + 64)].map (· + 20) =
      [4194, 4178, 150] := by decide +kernel

/-- R262: SYS.INFO of a page that Table 06-9 does not have earns E_PARAM. -/
theorem test_info_param : (after (exec (.sysInfo 0) (ask sysInfo [3] up))).map (fun t => t.mbx.chan[(0 : Chan)].ack) =
    some 0x01000102 := by decide +kernel

end Sys2Proof.Tests
end

section
/-!
PROOFS. Frames that firmware answers or that are discarded, and the neighbours of a port (R20, R343, R345, R346, R367,
R368, R385).
-/
namespace Sys2Proof.Machine
open Sys2Proof

/-! ### Frames that arrive and frames that go out -/

/-- A frame that reaches a port that is up counts its bytes; a full receive buffer discards and counts it, else it is
acted on (R367). -/
theorem ite_arrive_of_portUp {p : Port} {bytes : Nat} {act : State → State} {s : State} (hup : portUp p s = true) :
    (if (!portUp p s) = true then s else arrive p bytes act s) =
      if rxLevel p (ethCount p 0x00 bytes s) + bytes > 4194304 then ethCount p 0x10 1 (ethCount p 0x00 bytes s)
      else act (ethCount p 0x00 bytes s) := by
  rw [hup]
  rfl

/-- A port that runs sends a frame on its priority, or keeps it while that priority is paused (R368). -/
theorem sendFrame_of_portRuns {p : Port} {s : State} (prio bytes : Nat) (o : Out) (hrun : portRuns p s = true) :
    sendFrame p prio bytes o s = if s.net.port[p].pausedRx.getLsbD prio
      then modPort p (fun e => { e with txq := e.txq ++ [(prio, bytes, o)] }) s else emit o (ethCount p 0x08 bytes s) := by
  simp [sendFrame, hrun]

/-! ### The meaning of each command -/

theorem exec_rxFrameDrop (p : Port) (bytes : Nat) (s : State) :
    exec (.rxFrameDrop p bytes) s = execRxFrameDrop p bytes s := rfl

theorem exec_arpRequest (p : Port) (q : ArpReq) (s : State) : exec (.arpRequest p q) s = execArpRequest p q s := rfl

theorem exec_echoRequest (p : Port) (q : EchoReq) (s : State) : exec (.echoRequest p q) s = execEchoRequest p q s := rfl

theorem exec_neighbourReply (p : Port) (ip : Ip) (mac : BitVec 48) (s : State) :
    exec (.neighbourReply p ip mac) s = execNeighbourReply p ip mac s := rfl

theorem exec_neighbourRetry (p : Port) (k : Nat) (s : State) :
    exec (.neighbourRetry p k) s = execNeighbourRetry p k s := rfl

theorem exec_neighbourConfirm (p : Port) (k : Nat) (s : State) :
    exec (.neighbourConfirm p k) s = execNeighbourConfirm p k s := rfl

theorem exec_dadDone (p : Port) (k : Nat) (s : State) : exec (.dadDone p k) s = execDadDone p k s := rfl

/-! ### The commands where their event can occur -/

theorem exec_rxFrameDrop_up {p : Port} {s : State} (bytes : Nat) (hup : portUp p s = true) :
    exec (.rxFrameDrop p bytes) s = .next (settle s (ethCount p 0x10 1 (ethCount p 0x00 bytes s))) := by
  rw [exec_rxFrameDrop, execRxFrameDrop]
  exact done_if hup

theorem exec_arpRequest_up {p : Port} {s : State} (q : ArpReq) (hup : portUp p s = true) :
    let b := neighBytes (isV6 q.target) (tagged s.net.port[p])
    let t := ethCount p 0x00 b s
    exec (.arpRequest p q) s = .next (settle s (
      if rxLevel p t + b > 4194304 then ethCount p 0x10 1 t
      else if supRuns t = true ∧ ownAddress p q.target t = true then
        sendFirmware p b (.neighbourReply p q.sender (portMac p t)) t
      else t)) := by
  intro b t
  rw [exec_arpRequest, execArpRequest]
  apply done_eq
  rw [ite_arrive_of_portUp hup]
  simp only [Bool.and_eq_true]
  rfl

/-- An echo has the length of its request, whose counted arrival leaves the port's tag as it was. -/
theorem exec_echoRequest_up {p : Port} {s : State} (q : EchoReq) (hup : portUp p s = true) :
    let b := echoBytes (isV6 q.dst) (tagged s.net.port[p]) q.dataLen
    let t := ethCount p 0x00 b s
    let young := t.net.port[p].echoes.filter (fun x => decide (stampAge x t < 1000000000))
    exec (.echoRequest p q) s = .next (settle s (
      if rxLevel p t + b > 4194304 then ethCount p 0x10 1 t
      else if supRuns t = true ∧ ownAddress p q.dst t = true ∧ q.dataLen ≤ 1472 ∧ young.length < 1000 then
        sendFirmware p b (.echo p q.src q.dataLen) (modPort p (fun e => { e with echoes := now t :: young }) t)
      else t)) := by
  intro b t young
  rw [exec_echoRequest, execEchoRequest]
  apply done_eq
  rw [ite_arrive_of_portUp hup]
  simp only [Bool.and_eq_true, decide_eq_true_eq, echoRoom, and_assoc]
  rfl

theorem exec_neighbourReply_up {p : Port} {s : State} (ip : Ip) (mac : BitVec 48) (hup : portUp p s = true) :
    let b := neighBytes (isV6 ip) (tagged s.net.port[p])
    let t := ethCount p 0x00 b s
    exec (.neighbourReply p ip mac) s = .next (settle s (
      if rxLevel p t + b > 4194304 then ethCount p 0x10 1 t
      else if supRuns t = true ∧ t.net.port[p].neigh.any (fun x => x.ip == ip) = true then
        resolveQps p ip (modPort p (fun e => { e with
          neigh := e.neigh.map (fun x => if x.ip = ip then { x with state := .resolved, mac := mac, tries := 0 } else x) }) t)
      else t)) := by
  intro b t
  rw [exec_neighbourReply, execNeighbourReply]
  apply done_eq
  rw [ite_arrive_of_portUp hup]
  simp only [Bool.and_eq_true]
  rfl

theorem exec_neighbourRetry_resolving {p : Port} {k : Nat} {x : Neigh} {s : State} (hans : answers p s = true)
    (hx : s.net.port[p].neigh[k]? = some x) (hst : x.state = .resolving) :
    exec (.neighbourRetry p k) s = .next (settle s (
      if x.tries < 3 then askHop p x.ip (modNeigh p k (fun x => { x with tries := x.tries + 1 }) s)
      else (qpsVia p x.ip s).foldl (fun s j => qpError p j 0xA 0 s)
        (modNeigh p k (fun x => { x with state := .failed }) s))) := by
  rw [exec_neighbourRetry, execNeighbourRetry]
  apply done_eq
  simp only [hx, hans, hst]
  rfl

theorem exec_neighbourConfirm_resolved {p : Port} {k : Nat} {x : Neigh} {s : State} (hans : answers p s = true)
    (hx : s.net.port[p].neigh[k]? = some x) (hst : x.state = .resolved) :
    exec (.neighbourConfirm p k) s = .next (settle s (askHop p x.ip
      (modNeigh p k (fun x => { x with state := .resolving, tries := 0 }) s))) := by
  rw [exec_neighbourConfirm, execNeighbourConfirm]
  apply done_eq
  simp only [hx, hans, hst]
  rfl

theorem exec_dadDone_up {p : Port} {k : Nat} {s : State} (hup : portUp p s = true)
    (hk : k = 0 ∨ (k = 1 ∧ s.net.port[p].ip6.isSome = true)) :
    exec (.dadDone p k) s = .next (settle s (modPort p (fun e => { e with dad := setBit e.dad k }) s)) := by
  rw [exec_dadDone, execDadDone]
  have hnow : (portUp p s && (k == 0 || (k == 1 && s.net.port[p].ip6.isSome))) = true := by
    simpa [hup] using hk
  exact done_if hnow

/-- Settles O46: each clause is its command's lemma, where the event can occur. -/
theorem ethernetFramesAndNeighboursComplete : Obligations.EthernetFramesAndNeighboursComplete :=
  ⟨fun _ bytes _ hup => exec_rxFrameDrop_up bytes hup,
   fun _ q _ hup => exec_arpRequest_up q hup,
   fun _ q _ hup => exec_echoRequest_up q hup,
   fun _ ip mac _ hup => exec_neighbourReply_up ip mac hup,
   fun _ _ _ _ hans hx hst => exec_neighbourRetry_resolving hans hx hst,
   fun _ _ _ _ hans hx hst => exec_neighbourConfirm_resolved hans hx hst,
   fun _ _ _ hup hk => exec_dadDone_up hup hk,
   fun _ prio bytes o _ hrun => sendFrame_of_portRuns prio bytes o hrun⟩

end Sys2Proof.Machine
end

section
/-!
PROOFS. Entering reset, and the freeze copy that a reset waits for (R121, R122, R129, R130, R833).
-/
namespace Sys2Proof.Machine
open Sys2Proof Sys2Proof.Claims

/-! ### What log entries and reads of the ring's lines can change -/

/-- Log entries, and reads of lines that find errors, touch the log, staging, counters, cause registers and the free
values used: nothing else. -/
def RingStep (s t : State) : Prop :=
  ∃ tether regs irq stg free, t = { s with tether := tether, regs := regs, irq := irq, stg := stg, free := free }

theorem RingStep.refl (s : State) : RingStep s s := ⟨_, _, _, _, _, rfl⟩

theorem RingStep.trans {s t u : State} (h : RingStep s t) (k : RingStep t u) : RingStep s u := by
  obtain ⟨_, _, _, _, _, rfl⟩ := h
  obtain ⟨_, _, _, _, _, rfl⟩ := k
  exact ⟨_, _, _, _, _, rfl⟩

theorem LogStep.ringStep {s t : State} (h : LogStep s t) : RingStep s t := by
  obtain ⟨_, _, _, rfl, -, -⟩ := h
  exact ⟨_, _, _, _, _, rfl⟩

theorem logEntry_ringStep (kind data : Nat) (conts : List Nat) (s : State) : RingStep s (logEntry kind data conts s) :=
  (logEntry_step kind data conts s).ringStep

theorem setLeaf_ringStep (src bit : Nat) (s : State) : RingStep s (setLeaf src bit s) := ⟨_, _, _, _, _, rfl⟩

theorem count_ringStep (off k : Nat) (s : State) : RingStep s (count off k s) := ⟨_, _, _, _, _, rfl⟩

theorem setBytes_ringStep (off : Nat) (bs : List Byte) (s : State) : RingStep s (setBytes off bs s) := ⟨_, _, _, _, _, rfl⟩

theorem RingStep.aon_eq {s t : State} (h : RingStep s t) : t.aon = s.aon := by
  obtain ⟨_, _, _, _, _, rfl⟩ := h
  rfl

theorem RingStep.boot_eq {s t : State} (h : RingStep s t) : t.boot = s.boot := by
  obtain ⟨_, _, _, _, _, rfl⟩ := h
  rfl

theorem upsetLine_ringStep (l : Nat) (u : Upset) (s : State) : RingStep s (upsetLine l u s) := by
  unfold upsetLine
  split
  · exact RingStep.refl s
  · refine foldl_keeps (RingStep s) _ (fun t e h => h.trans ?_) u s (RingStep.refl s)
    dsimp only
    split
    · exact RingStep.refl t
    · split
      · exact ⟨_, _, _, _, _, rfl⟩
      · split <;> exact ⟨_, _, _, _, _, rfl⟩

theorem drawFree_ringStep (k : Nat) (s : State) : RingStep s { s with free := s.free + k } := ⟨_, _, _, _, _, rfl⟩

theorem storeLine_ringStep (l : Nat) (bs : List Byte) (s : State) : RingStep s (storeLine l bs s) :=
  (setBytes_ringStep _ bs s).trans ⟨_, _, _, _, _, rfl⟩

theorem poisonLine_ringStep (l : Nat) (s : State) : RingStep s (poisonLine l s) :=
  (storeLine_ringStep l _ s).trans ⟨_, _, _, _, _, rfl⟩

theorem recordLine_ringStep (l k y : Nat) (s : State) : RingStep s (recordLine l k y s) := ⟨_, _, _, _, _, rfl⟩

theorem corrLine_ringStep (l y : Nat) (s : State) : RingStep s (corrLine l y s) := ⟨_, _, _, _, _, rfl⟩

theorem ueLine_ringStep (l : Nat) (s : State) : RingStep s (ueLine l s) := by
  refine (((poisonLine_ringStep l s).trans (count_ringStep 0x8408 1 _)).trans (recordLine_ringStep l 2 0x3F _)).trans ?_
  unfold ueLine
  generalize recordLine l 2 0x3F (count 0x8408 1 (poisonLine l s)) = t
  exact ⟨_, _, _, _, _, rfl⟩

/-- Whatever a read of a line finds (R407 to R412). -/
theorem readLine_ringStep (l : Nat) (u : Upset) (s : State) : RingStep s (readLine l u s).2.2 := by
  unfold readLine
  refine (upsetLine_ringStep l u s).trans ?_
  generalize upsetLine l u s = t
  dsimp only
  split
  · exact RingStep.refl t
  · split
    · split
      · exact RingStep.refl t
      · exact (poisonLine_ringStep l t).trans (recordLine_ringStep l 3 0x3F _)
    · split
      · exact RingStep.refl t
      · exact corrLine_ringStep l _ t
      · next rest _ =>
        by_cases hdecoded : rest ≠ [] ∧ (freeValue t).1.getLsbD 0 = true
        · rw [if_pos hdecoded]
          exact ((drawFree_ringStep 65 t).trans (setBytes_ringStep _ _ _)).trans (corrLine_ringStep l _ _)
        · rw [if_neg hdecoded]
          have hfree : RingStep t (if rest ≠ [] then (freeValue t).2 else t) := by
            split
            · exact drawFree_ringStep 1 t
            · exact RingStep.refl t
          generalize (if rest ≠ [] then (freeValue t).2 else t) = u at hfree ⊢
          split
          · exact hfree.trans ⟨_, _, _, _, _, rfl⟩
          · exact hfree.trans (ueLine_ringStep l u)

theorem readAny_ringStep (l : Nat) (u : Upset) (s : State) : RingStep s (readAny l u s).2 := by
  unfold readAny
  split
  · exact readLine_ringStep l u s
  · next k _ =>
    have hread := ((setBytes_ringStep (64 * l) ((lineUnits k s).flatMap (fun u => leBytes 16 u.toNat)) s).trans
      (readLine_ringStep l u _)).trans (setBytes_ringStep (64 * l) (List.replicate 64 0) _)
    dsimp only
    split
    · exact hread.trans ⟨_, _, _, _, _, rfl⟩
    · exact hread

theorem sweepRing_ringStep (a b : Nat) (s : State) : RingStep s (sweepRing a b s).2 := by
  unfold sweepRing
  refine foldl_keeps (fun acc : List Nat × State => RingStep s acc.2) _ (fun acc l h => ?_) _ ([], s) (RingStep.refl s)
  dsimp only
  split
  · exact h
  · split
    · exact h.trans (readAny_ringStep l [] acc.2)
    · exact h

theorem sweepCopy_ringStep (s : State) : RingStep s (sweepCopy s).2 := sweepRing_ringStep _ _ s

/-! ### The copy begins -/

/-- A copy of the ring runs into the freeze buffer, and nothing else was touched but by log entries and reads of lines. -/
def CopyBegun (s t : State) : Prop :=
  ∃ j freeze, RingStep { s with aon := { s.aon with copying := some j, freeze := freeze } } t

theorem beginCopy_begun (reason code : Nat) (s : State) : CopyBegun s (beginCopy reason code s) := by
  obtain ⟨_, _, _, _, _, hsweep⟩ := sweepCopy_ringStep s
  unfold beginCopy
  dsimp only
  generalize freezeImage _ _ _ _ = b
  rw [hsweep]
  split <;> exact ⟨_, _, _, _, _, _, _, rfl⟩

/-- Steps before the copy and after it change no more than the copy does. -/
theorem CopyBegun.between {s t u v : State} (h : RingStep s t) (hc : CopyBegun t u) (k : RingStep u v) : CopyBegun s v := by
  obtain ⟨_, _, _, _, _, rfl⟩ := h
  obtain ⟨j, f, hc⟩ := hc
  exact ⟨j, f, (RingStep.trans ⟨_, _, _, _, _, rfl⟩ hc).trans k⟩

/-- A copy that runs already goes on. -/
theorem copyBegun_of_copying {s : State} (h : s.aon.copying.isSome = true) : CopyBegun s s := by
  obtain ⟨j, hj⟩ := Option.isSome_iff_exists.mp h
  refine ⟨j, s.aon.freeze, ?_⟩
  rw [← hj]
  exact RingStep.refl s

/-- The freeze of a reset that waits for its copy (R130, R749). -/
theorem freezeWith_begun (reason code : Nat) (s : State) : CopyBegun s (freezeWith beginCopy reason code s) := by
  unfold freezeWith
  split
  · next h => exact copyBegun_of_copying h
  · split
    · exact beginCopy_begun reason code s
    · refine CopyBegun.between (logEntry_ringStep 0x04 reason [] s) ?_ (RingStep.refl _)
      generalize logEntry 0x04 reason [] s = t
      refine CopyBegun.between (t := if t.tether.running then
          pushUnits (List.replicate ((4 - t.tether.ringPos % 4) % 4) 0) t else t) ?_
        (beginCopy_begun reason code _) ⟨_, _, _, _, _, rfl⟩
      split
      · exact (pushUnits_step _ t).ringStep
      · exact RingStep.refl t

/-! ### The parts of a reset entry -/

theorem noteAlso_eq (code : Nat) (s : State) : noteAlso code s = { s with
    aon.also := if s.aon.cause = BitVec.ofNat 4 code then s.aon.also else setBit s.aon.also code } := by
  unfold noteAlso
  split <;> rfl

theorem abandonRow_eq (code : Nat) (s : State) : abandonRow code s = { s with
    nv.phase := if code = 2 ∨ code = 3 then .idle else s.nv.phase } := by
  unfold abandonRow
  split <;> rfl

/-- RST_CAUSE takes the source and its detail, with no source in ALSO, and RST_COUNT.RESETS counts. -/
def noteCause (code detail : Nat) (s : State) : State := { s with
  aon.cause := BitVec.ofNat 4 code, aon.also := 0, aon.detail := BitVec.ofNat 8 detail
  aon.resets := satInc s.aon.resets, aon.wakeN := false, aon.wakeLate := false }

/-- The reset waits for its freeze copy. -/
def awaitCopy (s : State) : State := { s with
  boot.phase := .copying, power.standbyAcked := false, mbx.resetDue := false, dbg.wdArmed := false }

/-- A failing line that the copy of reset `code` meets is a level-4 fault, which is source 0x7 (R396). -/
def noteCopyFault (code : Nat) (s : State) : State :=
  if (sweepCopy s).1.isEmpty || code == 7 then s else noteAlso 7 (writeFaultLast 4 6 (leafCode 0 7) s)

/-- ALSO takes source 0x7, if anything, and only where the reset's own source is another. -/
theorem noteCopyFault_eq (code : Nat) (s : State) : ∃ also faultLast,
    noteCopyFault code s = { s with aon := { s.aon with also := also, faultLast := faultLast } } ∧
    (also = s.aon.also ∨ (code ≠ 7 ∧ also = setBit s.aon.also 7)) := by
  unfold noteCopyFault
  split
  · exact ⟨_, _, rfl, .inl rfl⟩
  · next hbad =>
    have h7 : code ≠ 7 := by rintro rfl; simp at hbad
    rw [noteAlso_eq]
    refine ⟨_, _, rfl, ?_⟩
    split
    · exact .inl rfl
    · exact .inr ⟨h7, rfl⟩

theorem enterReset_of_held {code detail : Nat} {s : State} (h : s.boot.phase = .held) :
    enterReset code detail s = abandonRow code (noteAlso code s) := by
  rw [enterReset, if_pos h]

theorem enterReset_of_copying {code detail : Nat} {s : State} (h : s.boot.phase = .copying) :
    enterReset code detail s = if 2 ≤ code ∧ code ≤ 5 then resetDomains (cutCopy (abandonRow code (noteAlso code s)))
      else abandonRow code (noteAlso code s) := by
  have hheld : s.boot.phase ≠ .held := by rw [h]; decide
  rw [enterReset, if_neg hheld, if_pos h]

/-- A source without a freeze resets at once. -/
theorem enterReset_direct {code detail : Nat} {s : State} (hh : s.boot.phase ≠ .held) (hc : s.boot.phase ≠ .copying)
    (hcode : ¬(6 ≤ code ∧ code ≤ 9)) :
    enterReset code detail s = resetDomains (abandonRow code (noteCause code detail s)) := by
  rw [enterReset, if_neg hh, if_neg hc]
  simp only [hcode, decide_false, Bool.false_eq_true, if_false]
  rfl

/-- Sources 0x6 to 0x9 freeze the ring and wait for its copy (R130). -/
theorem enterReset_frozen {code detail : Nat} {s : State} (hh : s.boot.phase ≠ .held) (hc : s.boot.phase ≠ .copying)
    (hcode : 6 ≤ code ∧ code ≤ 9) :
    enterReset code detail s = noteCopyFault code (awaitCopy (abandonRow code (noteCause code detail
      (freezeWith beginCopy code code s)))) := by
  rw [enterReset, if_neg hh, if_neg hc]
  simp only [hcode, and_self, decide_true, if_true]
  rfl

/-! ### What a reset leaves -/

theorem resetDomains_aon (s : State) : (resetDomains s).aon = s.aon := rfl

/-- Boot waits for the core PLL, or is held while something holds the reset (R129). -/
theorem resetDomains_phase (s : State) :
    ((resetDomains s).boot.phase = .held ∨ (resetDomains s).boot.phase = .pll) ∧
      ((resetDomains s).boot.phase = .held → resetHeld (resetDomains s) = true) := by
  have hphase : (resetDomains s).boot.phase = if resetHeld (resetDomains s) then .held else .pll := rfl
  rw [hphase]
  split <;> simp_all

theorem resetDomains_left (s : State) : ResetLeft s (resetDomains s) :=
  ⟨rfl, rfl, rfl, rfl, rfl, rfl, rfl, rfl, rfl, rfl, rfl, rfl, rfl, rfl, rfl, rfl, rfl, rfl, rfl, rfl, rfl, rfl, rfl,
    resetDomains_phase s⟩

/-- Of the state before, only the fuse rows and the queue matter. -/
theorem resetLeft_of_eq {s t u : State} (h : ResetLeft t u) (hrows : t.nv.rows = s.nv.rows)
    (hq : t.pending = s.pending) : ResetLeft s u := by
  unfold ResetLeft at *
  rwa [← hrows, ← hq]

/-! ### The clauses -/

theorem enterReset_direct_left {code : Nat} (detail : Nat) {s : State} (hh : s.boot.phase ≠ .held)
    (hc : s.boot.phase ≠ .copying) (hcode : code ≤ 5 ∨ code = 10) :
    let t := enterReset code detail s
    ResetLeft s t ∧ t.aon.cause = BitVec.ofNat 4 code ∧ t.aon.detail = BitVec.ofNat 8 detail ∧ t.aon.also = 0 ∧
    t.aon.resets = satInc s.aon.resets ∧ t.aon.persts = s.aon.persts ∧ t.aon.straps = s.aon.straps ∧
    t.aon.resetLow = s.aon.resetLow ∧ t.aon.perstLow = s.aon.perstLow ∧ t.aon.faultLast = s.aon.faultLast := by
  intro t
  have ht : t = resetDomains (abandonRow code (noteCause code detail s)) := enterReset_direct hh hc (by omega)
  rw [ht, resetDomains_aon, abandonRow_eq]
  exact ⟨resetLeft_of_eq (resetDomains_left _) rfl rfl, rfl, rfl, rfl, rfl, rfl, rfl, rfl, rfl, rfl⟩

/-- The copy's own fault shows in ALSO, where the reset's source is another than 0x7. -/
theorem enterReset_frozen_begun {code : Nat} (detail : Nat) {s : State} (hh : s.boot.phase ≠ .held)
    (hc : s.boot.phase ≠ .copying) (h6 : 6 ≤ code) (h9 : code ≤ 9) :
    let t := enterReset code detail s
    t.boot.phase = .copying ∧ t.aon.copying.isSome = true ∧ t.aon.cause = BitVec.ofNat 4 code ∧
    t.aon.detail = BitVec.ofNat 8 detail ∧ (t.aon.also = 0 ∨ (code ≠ 7 ∧ t.aon.also = setBit 0 7)) ∧
    t.aon.resets = satInc s.aon.resets ∧ t.nv.rows = s.nv.rows ∧ t.pending = s.pending ∧ t.dbg.wdArmed = false := by
  intro t
  have ht : t = _ := enterReset_frozen hh hc ⟨h6, h9⟩
  obtain ⟨j, freeze, _, _, _, _, _, hf⟩ := freezeWith_begun code code s
  obtain ⟨also, faultLast, hfault, halso⟩ := noteCopyFault_eq code
    (awaitCopy (abandonRow code (noteCause code detail (freezeWith beginCopy code code s))))
  rw [hfault, hf, abandonRow_eq] at ht
  rw [hf, abandonRow_eq] at halso
  rw [ht]
  exact ⟨rfl, rfl, rfl, rfl, halso, rfl, rfl, rfl, rfl⟩

theorem copyTick_of_copying {j : FreezeJob} {s : State} (h : s.aon.copying = some j) :
    copyTick s = if j.todo ≤ 4 then resetDomains { s with aon.copying := none, aon.freeze := j.buf }
      else { s with aon.copying := some { j with todo := j.todo - 4 } } := by
  rw [copyTick, h]

theorem copyTick_moves {j : FreezeJob} {s : State} (h : s.aon.copying = some j) :
    (4 < j.todo → copyTick s = { s with aon.copying := some { j with todo := j.todo - 4 } }) ∧
    (j.todo ≤ 4 → ResetLeft s (copyTick s) ∧ (copyTick s).aon = { s.aon with copying := none, freeze := j.buf }) := by
  rw [copyTick_of_copying h]
  constructor
  · intro hmore
    rw [if_neg (by omega)]
  · intro hlast
    rw [if_pos hlast, resetDomains_aon]
    exact ⟨resetLeft_of_eq (resetDomains_left _) rfl rfl, rfl⟩

theorem enterReset_held_eq (code detail : Nat) {s : State} (h : s.boot.phase = .held) :
    enterReset code detail s = { s with
      aon.also := if s.aon.cause = BitVec.ofNat 4 code then s.aon.also else setBit s.aon.also code
      nv.phase := if code = 2 ∨ code = 3 then .idle else s.nv.phase } := by
  rw [enterReset_of_held h, noteAlso_eq, abandonRow_eq]

/-- A copy that is cut off leaves no valid header, and touches PD_AON only (R833). -/
theorem cutCopy_eq (s : State) : ∃ freeze, cutCopy s = { s with aon := { s.aon with copying := none, freeze := freeze } } ∧
    (s.aon.copying.isSome = true → freeze.valid = false) := by
  unfold cutCopy
  split
  · next h =>
    refine ⟨s.aon.freeze, ?_, by simp [h]⟩
    rw [← h]
  · exact ⟨_, rfl, fun _ => rfl⟩

theorem enterReset_copying_also {code : Nat} (detail : Nat) {s : State} (h : s.boot.phase = .copying)
    (hne : s.aon.cause ≠ BitVec.ofNat 4 code) :
    let t := enterReset code detail s
    t.aon.also = setBit s.aon.also code ∧ t.aon.cause = s.aon.cause ∧ t.aon.resets = s.aon.resets ∧
    (¬(2 ≤ code ∧ code ≤ 5) → t = { s with aon.also := setBit s.aon.also code }) ∧
    (2 ≤ code ∧ code ≤ 5 → ResetLeft s t ∧ t.aon.copying = none ∧
      (s.aon.copying.isSome = true → t.aon.freeze.valid = false)) := by
  intro t
  have ht : t = _ := enterReset_of_copying h
  rw [noteAlso_eq, if_neg hne, abandonRow_eq] at ht
  split at ht
  · next hcut =>
    obtain ⟨freeze, hcopy, hvalid⟩ := cutCopy_eq { s with
      aon.also := setBit s.aon.also code, nv.phase := if code = 2 ∨ code = 3 then .idle else s.nv.phase }
    rw [hcopy] at ht
    rw [ht, resetDomains_aon]
    exact ⟨rfl, rfl, rfl, fun hno => absurd hcut hno, fun _ => ⟨resetLeft_of_eq (resetDomains_left _) rfl rfl, rfl, hvalid⟩⟩
  · next hcut =>
    rw [if_neg (by omega)] at ht
    rw [ht]
    exact ⟨rfl, rfl, rfl, fun _ => rfl, fun hyes => absurd hyes hcut⟩

/-- Settles O37: each clause is the lemma of its case of `enterReset`, or of `copyTick`. -/
theorem resetEntryLeavesResetValues : Obligations.ResetEntryLeavesResetValues :=
  ⟨fun _ detail _ hh hc hcode => enterReset_direct_left detail hh hc hcode,
   fun _ detail _ hh hc h6 h9 => enterReset_frozen_begun detail hh hc h6 h9,
   fun _ _ h => copyTick_moves h,
   fun code detail _ h => enterReset_held_eq code detail h,
   fun _ detail _ h _ hne => enterReset_copying_also detail h hne⟩

end Sys2Proof.Machine
end

section
/-!
PROOFS. A step with no command waiting is one CCLK (log 1; R37, R43, R130, R245, R370, R494, R573, R741, R742).
-/
namespace Sys2Proof.Machine
open Sys2Proof Sys2Proof.Claims

/-- The stamp's part of a CCLK: it counts, and at its last value wraps, with the epoch's leaf and entry (R742, R757). -/
def stampTick (s : State) : State :=
  if s.tether.stamp.toNat = 2 ^ 48 - 1 then
    setLeaf 24 3 (logEntry 0x02 (s.tether.epoch + 1).toNat []
      { s with tether.stamp := 0, tether.epoch := s.tether.epoch + 1 })
  else { s with tether.stamp := s.tether.stamp + 1 }

/-- Ticking the stamp touches the log, its lines and its leaf. -/
theorem stampTick_ringStep (s : State) : RingStep s (stampTick s) := by
  unfold stampTick
  split
  · exact (RingStep.trans ⟨_, _, _, _, _, rfl⟩ (logEntry_ringStep 0x02 (s.tether.epoch + 1).toNat [] { s with
      tether.stamp := 0, tether.epoch := s.tether.epoch + 1 })).trans (setLeaf_ringStep 24 3 _)
  · exact ⟨_, _, _, _, _, rfl⟩

/-- The stamp's last value. -/
theorem stamp_eq_allOnes_iff (v : BitVec 48) : v = BitVec.allOnes 48 ↔ v.toNat = 2 ^ 48 - 1 := by
  rw [← BitVec.toNat_inj, BitVec.toNat_allOnes]

/-- The line of a freeze copy that a CCLK moves on, the stamp having ticked. -/
theorem copyTick_stampTick (s : State) : copyTick (stampTick s) = match s.aon.copying with
    | none => stampTick s
    | some j => if j.todo ≤ 4 then resetDomains { stampTick s with aon.copying := none, aon.freeze := j.buf }
      else { stampTick s with aon.copying := some { j with todo := j.todo - 4 } } := by
  have hplace : (stampTick s).aon.copying = s.aon.copying := by rw [(stampTick_ringStep s).aon_eq]
  cases hc : s.aon.copying with
  | none => rw [copyTick, hplace, hc]
  | some j => rw [copyTick_of_copying (hplace.trans hc)]

theorem idle_of_stopped {s : State} (h : s.power.cclk = false) : idle s = s := by
  rw [idle, h]
  rfl

/-- A CCLK's stamp, then the line of a freeze copy, or all that a clock moves while no copy runs. -/
theorem idle_of_cclk {s : State} (h : s.power.cclk ≠ false) :
    idle s = if s.boot.phase = .copying then copyTick (stampTick s)
      else nvStart (takeNext (pipeTick (acceptTick (endTransit (countStalls (stampTick s)))))) := by
  have hstamp : (if s.tether.stamp = BitVec.allOnes 48 then wrapStamp s
      else { s with tether.stamp := s.tether.stamp + 1 }) = stampTick s := by
    simp only [stamp_eq_allOnes_iff, stampTick, wrapStamp]
  rw [idle, hstamp, if_neg (by simpa using h)]
  dsimp only
  rw [(stampTick_ringStep s).boot_eq]

/-- An empty queue leaves the step to the clock. -/
theorem step_of_empty {s : State} (h : s.pending = []) : step s = .next (settle s (idle s)) := by
  rw [step, h]
  rfl

/-- Settles O2: without CCLK nothing moves; with it the stamp ticks, then the copy's line or the rest of a clock. -/
theorem emptyQueueStepIsOneClock : Obligations.EmptyQueueStepIsOneClock := by
  intro s hempty
  rw [step_of_empty hempty]
  congr 2
  by_cases hclk : s.power.cclk = false
  · rw [if_pos hclk, idle_of_stopped hclk]
  · rw [if_neg hclk, idle_of_cclk hclk, copyTick_stampTick]
    dsimp only
    rw [← stampTick]
    rfl

end Sys2Proof.Machine
end

section
/-!
PROOFS. Final completions, the ends of flushes and closes, the evaluation, the external hold, and the turn at a wrap's end
(R46, R557, R612, R637, R638, R646 to R666).
-/
namespace Sys2Proof.Machine
open Sys2Proof

/-- A command with one condition that keeps it from its effect, where the condition fails. -/
theorem done_if_not {p : Prop} [Decidable p] {s t u : State} (h : ¬p) :
    done (fun _ => if p then t else u) s = .next (settle s u) := by rw [done, if_neg h]

/-! ### The meaning of each command -/

theorem exec_finalCompletionPosted (r : Nat) (s : State) :
    exec (.finalCompletionPosted r) s = execFinalCompletionPosted r s := rfl

theorem exec_streamFlushDone (i : Strm) (s : State) : exec (.streamFlushDone i) s = execStreamFlushDone i s := rfl

theorem exec_streamCloseDone (i : Strm) (s : State) : exec (.streamCloseDone i) s = execStreamCloseDone i s := rfl

theorem exec_govEvaluation (s : State) : exec .govEvaluation s = execGovEvaluation s := rfl

theorem exec_extHoldExpiry (s : State) : exec .extHoldExpiry s = execExtHoldExpiry s := rfl

theorem exec_wrapTurn (n : Trn) (s : State) : exec (.wrapTurn n) s = execWrapTurn n s := rfl

/-! ### The commands where their event can occur -/

/-- A record that no fault in handling owes (R832) is posted in its stream's order. -/
theorem exec_finalCompletionPosted_unowed {r : Nat} {s : State} (h : owedToFault r s = false) :
    exec (.finalCompletionPosted r) s = .next (settle s (tryFinal r s)) := by
  rw [exec_finalCompletionPosted, execFinalCompletionPosted]
  exact done_if_not (by rw [h]; decide)

theorem exec_streamFlushDone_running {i : Strm} {s : State} (hrun : supRuns s = true) :
    let met := s.ing.stream[i].flushes.filter (fun f => flushMet i f.2 s)
    exec (.streamFlushDone i) s = .next (settle s (met.foldl (fun s f =>
      completeTicket f.1 rOk (numberWords (f.2.getD noRecord)) s)
      (modStream i (fun m => { m with flushes := m.flushes.filter (fun f => !met.contains f) }) s))) := by
  rw [exec_streamFlushDone, execStreamFlushDone]
  exact done_if_not (by rw [hrun]; decide)

/-- Nothing of the stream is left that its close waits for (R638). -/
theorem exec_streamCloseDone_empty {i : Strm} {t : Nat} {s : State} (hrun : supRuns s = true)
    (hticket : s.ing.stream[i].closeTicket = some t) (hstate : s.ing.stream[i].state = .closing)
    (horder : s.ing.stream[i].order = []) (hpulls : s.ing.stream[i].pulls = []) (hheld : s.ing.stream[i].held = [])
    (hflushes : s.ing.stream[i].flushes = []) :
    let u := modStream i (fun m => { m with state := .closed, closeTicket := none, rings := none, reserved := 0,
                                            outExt := none, openDs := none, noTransport := false }) s
    exec (.streamCloseDone i) s = .next (settle s (checkStreams (completeTicket t rOk
      [BitVec.ofNat 32 s.ing.stream[i].accepted.toNat]
      (collect ((s.ing.stream[i].outExt.map (fun x => [x.1])).getD [])
        { u with cip.ctx := upd u.cip.ctx i (fun _ => none) })))) := by
  intro u
  rw [exec_streamCloseDone, execStreamCloseDone]
  apply doneS_eq
  dsimp only
  rw [hrun, hstate, horder, hpulls, hheld, hflushes, hticket]
  rfl

theorem exec_govEvaluation_on {s : State} (hon : govOn s = true) :
    let t := evalRates (takeParams s)
    let gs := allGroups t
    let u := allTrn.foldl (fun s n => if gs.all (fun g => !g.getLsbD n.val) then
      modGov n (fun m => { m with
        group := 0, setPoint := 0, kReq := 0, below := 0, mode := 0, fixed := 0, restartDue := false }) s else s) t
    let v := gs.foldl (fun s g =>
      let r := formGroup g s
      let s := restartGroup g (groupPoint r.1 g ((groupMembers g).foldl (fun s n => holdMember n s) r.2))
      (groupMembers g).foldl (fun s n => commandMember n s) s) u
    let w := allTrn.foldl (fun s n => restartEnding n s) v
    exec .govEvaluation s = .next (settle s { w with gov.extEvent := false }) := by
  intro t gs u v w
  rw [exec_govEvaluation, execGovEvaluation]
  apply done_eq
  rw [if_neg (by rw [hon]; decide)]

theorem exec_extHoldExpiry_clears (s : State) :
    exec .extHoldExpiry s = .next (settle s { s with gov.extHold := false }) := by
  rw [exec_extHoldExpiry, execExtHoldExpiry]
  exact done_eq rfl

/-- A running member that has filled its wrap, with no data set in hand (R659). -/
theorem exec_wrapTurn_filled {n : Trn} {s : State} (hgov : govOn s = true) (hfmt : fmtOn s = true)
    (hrun : s.gov.mem[n].state = .running) (hsession : s.fmt.trn[n].session.isSome = true)
    (hcur : s.fmt.trn[n].cur = none) (hfull : s.fmt.trn[n].inWrap ≥ perWrap n s) (hwrap : s.trn[n].wrap < 191) :
    exec (.wrapTurn n) s =
      .next (settle s (modGov n (fun g => { g with state := .turning }) (leadOutStop n s))) := by
  rw [exec_wrapTurn, execWrapTurn]
  apply done_eq
  apply if_pos
  simpa [hgov, hfmt] using ⟨⟨⟨⟨hrun, hsession⟩, hcur⟩, hfull⟩, hwrap⟩

/-- Settles O58: each clause is its command's lemma, where the event can occur. -/
theorem finalCompletionsAndGovernorEventsComplete : Obligations.FinalCompletionsAndGovernorEventsComplete :=
  ⟨fun _ _ howed => exec_finalCompletionPosted_unowed howed,
   fun _ _ hrun => exec_streamFlushDone_running hrun,
   fun _ _ _ hrun hticket hstate horder hpulls hheld hflushes =>
     exec_streamCloseDone_empty hrun hticket hstate horder hpulls hheld hflushes,
   fun _ hon => exec_govEvaluation_on hon,
   exec_extHoldExpiry_clears,
   fun _ _ hgov hfmt hrun hsession hcur hfull hwrap =>
     exec_wrapTurn_filled hgov hfmt hrun hsession hcur hfull hwrap⟩

end Sys2Proof.Machine
end

section
/-!
PROOFS. The I2C target: its address, its commands and its stop (R70, R87, R171, R175 to R180, R772).
-/
namespace Sys2Proof.Machine
open Sys2Proof

/-- A command of an open transaction does its effect. -/
theorem done_of_i2cOpen {f : State → State} {s t : State} (hopen : i2cOpen s = true) (h : f s = t) :
    done (fun s => if !i2cOpen s then s else f s) s = .next (settle s t) := by
  rw [← h]
  exact done_if_not (by rw [hopen]; decide)

/-! ### The meaning of each command -/

theorem exec_i2cAddress (a : BitVec 7) (s : State) : exec (.i2cAddress a) s = execI2cAddress a s := rfl

theorem exec_setAddr (a : List Byte) (s : State) : exec (.setAddr a) s = execSetAddr a s := rfl

theorem exec_write (bs : List Byte) (s : State) : exec (.write bs) s = execWrite bs s := rfl

theorem exec_setCtrl (c : Byte) (s : State) : exec (.setCtrl c) s = execSetCtrl c s := rfl

theorem exec_readStat (s : State) : exec .readStat s = execReadStat s := rfl

theorem exec_readData (n : Nat) (s : State) : exec (.readData n) s = execReadData n s := rfl

theorem exec_i2cUnknownCommand (c : Byte) (s : State) :
    exec (.i2cUnknownCommand c) s = execI2cUnknownCommand c s := rfl

theorem exec_i2cStopMidWord (s : State) : exec .i2cStopMidWord s = execI2cStopMidWord s := rfl

/-! ### The window's address and its words -/

/-- The window moves to an aligned address that BAR0 implements or a far region holds, unless it is busy (R176). -/
theorem i2cSetAddr_eq (a : Word) (s : State) : i2cSetAddr a s =
    if s.regs.winI2c.busy = false ∧ a.toNat % 4 = 0 ∧
        ((a.toNat < 0x10000 ∧ implemented a.toNat = true) ∨ (0x10000000 ≤ a.toNat ∧ farMapped a.toNat = true))
      then writeAddr .i2c a s else nack s := by
  have hmapped : (if a.toNat < 0x10000 then implemented a.toNat
      else decide (a.toNat ≥ 0x10000000) && farMapped a.toNat) = true ↔
      (a.toNat < 0x10000 ∧ implemented a.toNat = true) ∨ (0x10000000 ≤ a.toNat ∧ farMapped a.toNat = true) := by
    by_cases hbar0 : a.toNat < 0x10000
    · have hnear : ¬0x10000000 ≤ a.toNat := by omega
      simp [hbar0, hnear]
    · simp [hbar0]
  cases hbusy : s.regs.winI2c.busy with
  | true => simp [i2cSetAddr, hbusy]
  | false =>
    simp only [i2cSetAddr, hbusy, Bool.false_or, Bool.or_eq_true, decide_eq_true_eq, Bool.not_eq_true',
      Bool.eq_false_iff, ne_eq, hmapped, ← Classical.not_and_iff_not_or_not, ite_not, true_and]

/-- A word for a BAR0 register that refuses nothing is written there; the window's own access is given up, and the address
moves on under AUTOINC (R171, R177). -/
theorem i2cWriteWord_bar0 {v : Word} {s : State} (hbusy : s.regs.winI2c.busy = false)
    (hbar0 : s.regs.winI2c.addr.toNat < 0x10000) (himpl : implemented s.regs.winI2c.addr.toNat = true)
    (hrefused : writeRefused .i2c s.regs.winI2c.addr.toNat s = none) :
    i2cWriteWord v s = modWin .i2c (fun k => { k with
        addr := if k.autoinc then k.addr + 4 else k.addr, ready := false, err := 0, far := .idle })
      (bar0Write .i2c s.regs.winI2c.addr.toNat v (abandonFar .i2c s)) := by
  have hnear : s.regs.winI2c.addr.toNat < 0x10000000 := by omega
  have hlisted : ¬(s.regs.winI2c.addr.toNat ≥ 0x10000 ∨ implemented s.regs.winI2c.addr.toNat = false) := by
    simpa [himpl] using hbar0
  rw [i2cWriteWord]
  dsimp only
  rw [if_neg (by rw [hbusy]; decide), if_pos hnear, if_neg hlisted, hrefused]

/-- A word's four bytes are one word, and none is left over (R178). -/
theorem i2cWrite_word (x y z w : Byte) (s : State) : i2cWrite [x, y, z, w] s =
    { i2cWriteWord (wordAt [x, y, z, w] 0) s with i2c.partialBytes := [] } := rfl

/-! ### The commands where their event can occur -/

theorem exec_i2cAddress_seen {a : BitVec 7} {s : State} (hpads : padctl s = false) :
    exec (.i2cAddress a) s = .next (settle s
      (emit (.i2cAck (s.i2c.enabled && a == BitVec.ofNat 7 (0x58 + field s.aon.straps 2 2))) { s with
        i2c.addressed := s.i2c.enabled && a == BitVec.ofNat 7 (0x58 + field s.aon.straps 2 2),
        i2c.partialBytes := [] })) := by
  rw [exec_i2cAddress, execI2cAddress]
  exact done_if_not (by rw [hpads]; decide)

/-- SET_ADDR with its four bytes is the window's address check, with no partial word left. -/
theorem exec_setAddr_whole {a : List Byte} {s : State} (hopen : i2cOpen s = true) (hlen : 4 ≤ a.length) :
    exec (.setAddr a) s = .next (settle s (i2cSetAddr (wordAt a 0) { s with i2c.partialBytes := [] })) := by
  rw [exec_setAddr, execSetAddr]
  exact done_of_i2cOpen hopen (if_neg (by omega))

theorem exec_write_open {bs : List Byte} {s : State} (hopen : i2cOpen s = true) :
    exec (.write bs) s = .next (settle s (i2cWrite bs s)) := by
  rw [exec_write, execWrite]
  exact done_if hopen

theorem exec_setCtrl_free {c : Byte} {s : State} (hopen : i2cOpen s = true) (hbusy : s.regs.winI2c.busy = false) :
    exec (.setCtrl c) s = .next (settle s (modWin .i2c (fun k => { k with autoinc := c.getLsbD 0 }) s)) := by
  rw [exec_setCtrl, execSetCtrl]
  exact done_of_i2cOpen hopen (if_neg (by rw [hbusy]; decide))

theorem exec_readStat_open {s : State} (hopen : i2cOpen s = true) :
    exec .readStat s = .next (settle s (emit (.i2cRead [BitVec.ofNat 8
      (b2n s.regs.winI2c.ready + 2 * b2n s.regs.winI2c.busy + 16 * s.regs.winI2c.err.toNat)]) s)) := by
  rw [exec_readStat, execReadStat]
  exact done_of_i2cOpen hopen rfl

theorem exec_readData_open {n : Nat} {s : State} (hopen : i2cOpen s = true) :
    exec (.readData n) s =
      .next (settle s (emit (.i2cRead (i2cReadBytes n 0 s).1) (i2cReadBytes n 0 s).2)) := by
  rw [exec_readData, execReadData]
  exact done_of_i2cOpen hopen rfl

theorem exec_i2cUnknownCommand_unlisted {c : Byte} {s : State} (hopen : i2cOpen s = true)
    (hc : c ∉ ([0x10, 0x11, 0x12, 0x20, 0x21] : List Byte)) :
    exec (.i2cUnknownCommand c) s = .next (settle s (nack s)) := by
  rw [exec_i2cUnknownCommand, execI2cUnknownCommand]
  apply done_eq
  rw [hopen, List.contains_eq_mem, decide_eq_false hc]
  rfl

theorem exec_i2cStopMidWord_seen {s : State} (hpads : padctl s = false) :
    exec .i2cStopMidWord s = .next (settle s { s with i2c.partialBytes := [], i2c.addressed := false }) := by
  rw [exec_i2cStopMidWord, execI2cStopMidWord]
  exact done_if_not (by rw [hpads]; decide)

/-- Boundary scan holds SDA and SCL: neither a start nor a stop is seen (R772; log 196). -/
theorem exec_i2cEdges_scanned {a : BitVec 7} {s : State} (hpads : padctl s = true) :
    exec (.i2cAddress a) s = .next (settle s s) ∧ exec .i2cStopMidWord s = .next (settle s s) := by
  rw [exec_i2cAddress, execI2cAddress, exec_i2cStopMidWord, execI2cStopMidWord]
  exact ⟨done_if hpads, done_if hpads⟩

/-- Settles O29: each clause is its command's lemma; SET_ADDR's is the check of its address, a whole word's WRITE the rule
for one word. -/
theorem i2cTargetCommandsComplete : Obligations.I2cTargetCommandsComplete := by
  refine ⟨fun _ _ hpads => exec_i2cAddress_seen hpads, fun a s hopen hlen => ?_,
    fun _ _ hopen => exec_write_open hopen, fun x y z w s hopen hbusy hbar0 himpl hrefused => ?_,
    fun _ _ hopen hbusy => exec_setCtrl_free hopen hbusy, fun _ hopen => exec_readStat_open hopen,
    fun _ _ hopen => exec_readData_open hopen, fun _ _ hopen hc => exec_i2cUnknownCommand_unlisted hopen hc,
    fun _ hpads => exec_i2cStopMidWord_seen hpads, fun _ _ hpads => exec_i2cEdges_scanned hpads⟩
  case refine_1 =>
    rw [exec_setAddr_whole hopen hlen, i2cSetAddr_eq]
  case refine_2 =>
    rw [exec_write_open hopen, i2cWrite_word, i2cWriteWord_bar0 hbusy hbar0 himpl hrefused]

end Sys2Proof.Machine
end

section
/-!
PROOFS. The AUX pins: function writes, parks, debounced levels, contention and the LED wave (R72, R76 to R84, R658, R835).
-/
namespace Sys2Proof.Machine
open Sys2Proof Sys2Proof.Claims

/-! ### The meaning of each command -/

theorem exec_auxFuncWrite (o : Origin) (j : Fin 3) (v : Word) (s : State) :
    exec (.auxFuncWrite o j v) s = execAuxFuncWrite o j v s := rfl

theorem exec_auxParkEnd (k : Fin 24) (s : State) : exec (.auxParkEnd k) s = execAuxParkEnd k s := rfl

theorem exec_auxContClear (o : Origin) (v : Word) (s : State) :
    exec (.auxContClear o v) s = execAuxContClear o v s := rfl

theorem exec_auxLevelAccepted (k : Fin 24) (pad : Bool) (s : State) :
    exec (.auxLevelAccepted k pad) s = execAuxLevelAccepted k pad s := rfl

theorem exec_auxContentionTrip (k : Fin 24) (s : State) :
    exec (.auxContentionTrip k) s = execAuxContentionTrip k s := rfl

theorem exec_ledWave (s : State) : exec .ledWave s = execLedWave s := rfl

/-! ### The registers of the AUX block -/

/-- AUX_FUNC_j holds the codes of pins 8j to 8j + 7 (Table 02-17). -/
theorem storeReg_auxFunc (o : Origin) (j : Fin 3) (v : Word) (s : State) :
    storeReg o (0x5D98 + 4 * j.val) v s = writeAuxFunc j.val v s := by
  match j with
  | 0 => rfl
  | 1 => rfl
  | 2 => rfl

/-- A 1 written to AUX_CONT clears the pin's bit (R84). -/
theorem storeReg_auxCont (o : Origin) (v : Word) (s : State) :
    storeReg o 0x5D94 v s = { s with aux.cont := s.aux.cont &&& ~~~(v.truncate 24) } := rfl

/-- A word on its way to a register changes no AUX pin. -/
theorem arrived_aux (o : Origin) (off : Nat) (v : Word) (s : State) : (arrived o off v s).aux = s.aux := by
  obtain ⟨_, _, _, _, h⟩ := arrived_eq o off v s
  rw [h]

/-! ### The commands where their event can occur -/

theorem exec_auxFuncWrite_accepted {o : Origin} {j : Fin 3} {v : Word} {s : State}
    (hw : Writes o (0x5D98 + 4 * j.val) s) :
    exec (.auxFuncWrite o j v) s =
      .next (settle s (writeAuxFunc j.val v (arrived o (0x5D98 + 4 * j.val) v s))) := by
  rw [exec_auxFuncWrite, execAuxFuncWrite]
  apply done_eq
  rw [writeBy_accepted o _ v s hw, storeReg_auxFunc]

theorem exec_auxParkEnd_parked {k : Fin 24} {s : State} (hpark : s.aux.pin[k].parked = true) :
    exec (.auxParkEnd k) s = .next (settle s (modPin k (fun p => { p with
      parked := false, active := p.fn, started := false, level := p.level && auxSampled p.fn, keeper := none }) s)) := by
  rw [exec_auxParkEnd, execAuxParkEnd]
  exact done_if hpark

theorem exec_auxContClear_accepted {o : Origin} {v : Word} {s : State} (hw : Writes o 0x5D94 s) :
    exec (.auxContClear o v) s = .next (settle s { arrived o 0x5D94 v s with
      aux.cont := s.aux.cont &&& ~~~(v.truncate 24) }) := by
  rw [exec_auxContClear, execAuxContClear]
  apply done_eq
  rw [writeBy_accepted o _ v s hw, storeReg_auxCont, ← arrived_aux o 0x5D94 v s]

/-- The level is stored, and a rise on an external-start input latches EXT_START, before the interlock's change is
followed. -/
theorem exec_auxLevelAccepted_sampled {k : Fin 24} {pad : Bool} {s : State} (hpark : s.aux.pin[k].parked = false)
    (hpads : padctl s = false) (hsampled : auxSampled s.aux.pin[k].active = true) (hgrids : auxGrids s = true) :
    let l := pad ^^ s.aux.pol.getLsbD k.val
    let t := modPin k (fun p => { p with level := l, started := true, ilk := if p.active = 4 then l else p.ilk }) s
    let u := setLeaf 27 2 t
    exec (.auxLevelAccepted k pad) s = .next (settle s (afterInterlock (interlock s) (
      if s.aux.pin[k].active = 7 ∧ s.aux.pin[k].started = true ∧ s.aux.pin[k].level = false ∧ l = true then
        (if interlock u = true ∨ s.gov.enabled = false then u else { u with gov.extEvent := true, gov.extHold := true })
      else t))) := by
  intro l t u
  have hrises : (s.aux.pin[k].started && !s.aux.pin[k].level && l) = true ↔
      s.aux.pin[k].started = true ∧ s.aux.pin[k].level = false ∧ l = true := by simp [and_assoc]
  have hbarred : (interlock u || !u.gov.enabled) = true ↔ interlock u = true ∨ s.gov.enabled = false := by
    simp [u, t]
  rw [exec_auxLevelAccepted, execAuxLevelAccepted]
  apply done_eq
  simp only [hpark, hpads, hsampled, hgrids]
  simp only [← hrises, ← hbarred]
  rfl

/-- Four mismatches on a pad that is driven trip its pin (R83). -/
theorem exec_auxContentionTrip_driven {k : Fin 24} {s : State} (hgrids : auxGrids s = true)
    (hdrives : auxDrives s.aux.pin[k].active = true) (hpark : s.aux.pin[k].parked = false) (hpads : padctl s = false)
    (hsafe : s.faults.safe = false) (hcont : s.aux.cont.getLsbD k.val = false) :
    exec (.auxContentionTrip k) s =
      .next (settle s (setLeaf 27 0 { s with aux.cont := setBit s.aux.cont k.val })) := by
  rw [exec_auxContentionTrip, execAuxContentionTrip]
  exact done_if (by rw [hgrids, hdrives, hpark, hpads, hsafe, hcont]; rfl)

theorem exec_ledWave_running {s : State} (hgrids : auxGrids s = true) :
    exec .ledWave s = .next (settle s { s with aux.wave := !s.aux.wave }) := by
  rw [exec_ledWave, execLedWave]
  exact done_if hgrids

/-- Before the grids run the wave stands, no level is accepted, and no comparator trips (R835). -/
theorem exec_auxGridEvents_stopped {k : Fin 24} {pad : Bool} {s : State} (hgrids : auxGrids s = false) :
    exec .ledWave s = .next (settle s s) ∧ exec (.auxLevelAccepted k pad) s = .next (settle s s) ∧
    exec (.auxContentionTrip k) s = .next (settle s s) := by
  rw [exec_ledWave, execLedWave, exec_auxLevelAccepted, execAuxLevelAccepted, exec_auxContentionTrip,
    execAuxContentionTrip]
  exact ⟨done_if_not (by simp [hgrids]), done_if (by simp [hgrids]), done_if_not (by simp [hgrids])⟩

/-- Settles O35: each clause is its command's lemma, where the event can occur and where the grids do not run. -/
theorem auxPinEventsComplete : Obligations.AuxPinEventsComplete :=
  ⟨fun _ _ _ _ hw => exec_auxFuncWrite_accepted hw,
   fun _ _ hpark => exec_auxParkEnd_parked hpark,
   fun _ _ _ hw => exec_auxContClear_accepted hw,
   fun _ _ _ hpark hpads hsampled hgrids => exec_auxLevelAccepted_sampled hpark hpads hsampled hgrids,
   fun _ _ hgrids hdrives hpark hpads hsafe hcont =>
     exec_auxContentionTrip_driven hgrids hdrives hpark hpads hsafe hcont,
   fun _ hgrids => exec_ledWave_running hgrids,
   fun _ _ _ hgrids => exec_auxGridEvents_stopped hgrids⟩

end Sys2Proof.Machine
end

section
/-!
PROOFS. Power-on, RESET_N, the rails' monitors and the NV supply monitor (R69, R96, R108, R115, R129, R132, R133, R507, R718,
R719, R772, R834).
-/
namespace Sys2Proof.Machine
open Sys2Proof

/-! ### The meaning of each command -/

theorem exec_powerOnReset (s : State) : exec .powerOnReset s = execPowerOnReset s := rfl

theorem exec_vaonPowerOnCrossing (s : State) : exec .vaonPowerOnCrossing s = execVaonPowerOnCrossing s := rfl

theorem exec_resetNAssert (s : State) : exec .resetNAssert s = execResetNAssert s := rfl

theorem exec_resetNRelease (straps : BitVec 8) (s : State) :
    exec (.resetNRelease straps) s = execResetNRelease straps s := rfl

theorem exec_vaonBrownout (s : State) : exec .vaonBrownout s = execVaonBrownout s := rfl

theorem exec_vcoreBrownout (s : State) : exec .vcoreBrownout s = execVcoreBrownout s := rfl

theorem exec_brownoutRelease (rail : Rail) (s : State) :
    exec (.brownoutRelease rail) s = execBrownoutRelease rail s := rfl

theorem exec_nvInhibit (s : State) : exec .nvInhibit s = execNvInhibit s := rfl

theorem exec_nvResume (s : State) : exec .nvResume s = execNvResume s := rfl

/-! ### The commands where their event can occur -/

/-- Power-on keeps what `powerLost` keeps, VAON being up. -/
theorem exec_powerOnReset_lost (s : State) : exec .powerOnReset s = .next (settle s (powerLost false s)) := by
  rw [exec_powerOnReset, execPowerOnReset]
  exact done_eq rfl

/-- The fall through the power-on level keeps what `powerLost` keeps, VAON being down. -/
theorem exec_vaonPowerOnCrossing_lost (s : State) :
    exec .vaonPowerOnCrossing s = .next (settle s (powerLost true s)) := by
  rw [exec_vaonPowerOnCrossing, execVaonPowerOnCrossing]
  exact done_eq rfl

/-- Boundary scan freezes the input: neither edge of RESET_N is seen (R772; log 196). -/
theorem exec_resetN_scanned {straps : BitVec 8} {s : State} (hpads : padctl s = true) :
    exec .resetNAssert s = .next (settle s s) ∧ exec (.resetNRelease straps) s = .next (settle s s) := by
  rw [exec_resetNAssert, execResetNAssert, exec_resetNRelease, execResetNRelease]
  exact ⟨done_if (by simp [hpads]), done_if (by simp [hpads])⟩

theorem exec_resetNAssert_seen {s : State} (hlow : s.aon.resetLow = false) (hpads : padctl s = false) :
    exec .resetNAssert s = .next (settle s (
      if s.boot.phase = .standby ∨ s.aon.vaonDown = true then { s with aon.resetLow := true }
      else enterReset 1 0 { s with aon.resetLow := true })) := by
  rw [exec_resetNAssert, execResetNAssert]
  exact done_if_not (by simp [hlow, hpads])

/-- An edge is heeded in standby while VCORE and REFCLK are good (R108). -/
theorem edgeHeeded_iff (s : State) : edgeHeeded s = true ↔ s.aon.vcoreLow = false ∧ s.aon.refclkLost = false := by
  simp [edgeHeeded]

/-- The release arms both monitors, the rails having been good for a millisecond (R834; log 86). -/
theorem exec_resetNRelease_seen {straps : BitVec 8} {s : State} (hup : s.aon.vaonDown = false)
    (hlow : s.aon.resetLow = true) (hpads : padctl s = false) :
    let t : State := { s with
      aon.resetLow := false, aon.straps := straps.truncate 4, aon.vaonArmed := true, aon.vcoreArmed := true }
    exec (.resetNRelease straps) s = .next (settle s (
      if s.boot.phase = .standby then
        (if s.aon.vcoreLow = false ∧ s.aon.refclkLost = false then enterReset 10 0 t else { s with aon.resetLow := false })
      else bootOn t)) := by
  intro t
  rw [exec_resetNRelease, execResetNRelease]
  apply done_eq
  rw [if_neg (by rw [hup, hpads]; decide)]
  simp only [edgeHeeded_iff, if_pos hlow]
  rfl

theorem exec_vaonBrownout_armed {s : State} (harmed : s.aon.vaonArmed = true) (hlow : s.aon.vaonLow = false)
    (hup : s.aon.vaonDown = false) :
    exec .vaonBrownout s = .next (settle s (enterReset 2 0 { s with aon.vaonLow := true })) := by
  rw [exec_vaonBrownout, execVaonBrownout]
  exact done_if_not (by simp [harmed, hlow, hup])

theorem exec_vcoreBrownout_armed {s : State} (harmed : s.aon.vcoreArmed = true) (hlow : s.aon.vcoreLow = false)
    (hup : s.aon.vaonDown = false) :
    exec .vcoreBrownout s = .next (settle s (
      if s.boot.phase = .standby then { s with aon.vcoreLow := true, aon.vcoreArmed := false }
      else enterReset 3 0 { s with aon.vcoreLow := true })) := by
  rw [exec_vcoreBrownout, execVcoreBrownout]
  exact done_if_not (by simp [harmed, hlow, hup])

theorem exec_brownoutRelease_powered {s : State} (hup : s.aon.vaonDown = false) :
    exec (.brownoutRelease .vaon) s = .next (settle s (bootOn { s with aon.vaonLow := false, aon.vaonArmed := true })) ∧
    exec (.brownoutRelease .vcore) s =
      .next (settle s (bootOn { s with aon.vcoreLow := false, aon.vcoreArmed := true })) := by
  rw [exec_brownoutRelease, exec_brownoutRelease, execBrownoutRelease, execBrownoutRelease]
  exact ⟨done_if_not (by simp [hup]), done_if_not (by simp [hup])⟩

/-- Where PD_SUP is down, the row in progress ends without its leaf and its count, and boot may go on. -/
theorem exec_nvInhibit_begins {s : State} (hoff : s.aon.nvInhibit = false) (hup : s.aon.vaonDown = false) :
    let t : State := { s with aon.nvInhibit := true }
    exec .nvInhibit s = .next (settle s (
      if supUp s then nvAbandon (count 0x8C00 1 (setLeaf 21 0 t))
      else match s.nv.phase with
        | .row _ _ => bootOn { t with nv.phase := .idle }
        | _ => t)) := by
  rw [exec_nvInhibit, execNvInhibit]
  exact done_if_not (by simp [hoff, hup])

theorem exec_nvResume_inhibited {s : State} (hon : s.aon.nvInhibit = true) (hup : s.aon.vaonDown = false) :
    exec .nvResume s = .next (settle s (
      if supUp s then setLeaf 21 1 { s with aon.nvInhibit := false } else { s with aon.nvInhibit := false })) := by
  rw [exec_nvResume, execNvResume]
  exact done_if_not (by simp [hon, hup])

/-- Settles O36: each clause is its command's lemma, where the event can occur, and where boundary scan hides it. -/
theorem supplyResetEventsComplete : Obligations.SupplyResetEventsComplete :=
  ⟨exec_powerOnReset_lost,
   exec_vaonPowerOnCrossing_lost,
   fun _ _ hpads => exec_resetN_scanned hpads,
   fun _ hlow hpads => exec_resetNAssert_seen hlow hpads,
   fun _ _ hup hlow hpads => exec_resetNRelease_seen hup hlow hpads,
   fun _ harmed hlow hup => exec_vaonBrownout_armed harmed hlow hup,
   fun _ harmed hlow hup => exec_vcoreBrownout_armed harmed hlow hup,
   fun _ hup => exec_brownoutRelease_powered hup,
   fun _ hoff hup => exec_nvInhibit_begins hoff hup,
   fun _ hon hup => exec_nvResume_inhibited hon hup⟩

end Sys2Proof.Machine
end

section
/-!
PROOFS. The start of a transport's link: HELLO, the identity words, the port coming up, and the failures of Table 13-9 (R91,
R565, R567, R573, R575, R589).
-/
namespace Sys2Proof.Machine
open Sys2Proof Sys2Proof.Claims

/-! ### The meaning of each command -/

theorem exec_hello (n : Trn) (m : HelloMsg) (s : State) : exec (.hello n m) s = execHello n m s := rfl

theorem exec_helloTimeout (n : Trn) (s : State) : exec (.helloTimeout n) s = execHelloTimeout n s := rfl

theorem exec_linkStartResend (n : Trn) (s : State) : exec (.linkStartResend n) s = execLinkStartResend n s := rfl

theorem exec_laneLockTimeout (n : Trn) (lane : Fin 14) (s : State) :
    exec (.laneLockTimeout n lane) s = execLaneLockTimeout n lane s := rfl

theorem exec_identityCheck (n : Trn) (ids : List LaneId) (s : State) :
    exec (.identityCheck n ids) s = execIdentityCheck n ids s := rfl

theorem exec_portUp (n : Trn) (s : State) : exec (.portUp n) s = execPortUp n s := rfl

/-! ### Status messages and identity words -/

/-- A status message that is heard does what it says (R571). -/
theorem statusIn_of_heard {n : Trn} {s : State} (go : State → State) (h : Heard n s) : statusIn n go s = go s := by
  obtain ⟨hup, hspoil⟩ := h
  rw [statusIn, hup, takeInjector, hspoil]
  rfl

/-- Each inbound lane has its identity word, as the check asks it of all ten. -/
theorem all_lanes_identified {ids : List LaneId} (h : ∀ l : Fin 10, ∃ i ∈ ids, i.lane.val = l.val) :
    (List.finRange 10).all (fun l => ids.any (fun i => decide (i.lane = l))) = true := by
  simpa [Fin.ext_iff] using h

/-- The first of W2 2, 3 and 4 that the identity words earn, 0 where they agree (Table 13-9). -/
theorem identityFault_eq (n : Trn) (ids : List LaneId) : identityFault n ids =
    if ∃ i ∈ ids, field i.word 44 4 ≠ i.lane.val then 2
    else if ∃ i ∈ ids, field i.word 41 3 ≠ n.val then 3
    else if ∃ i ∈ ids, i.aligned = false ∨ 200 ≤ field i.word 33 8 then 4
    else 0 := by
  simp only [identityFault, List.any_eq_true, decide_eq_true_eq, Bool.or_eq_true, Bool.not_eq_true', ge_iff_le]

/-! ### The commands where their event can occur -/

theorem exec_hello_starting {n : Trn} {m : HelloMsg} {s : State} (hheard : Heard n s)
    (hport : s.trn[n].port = .starting) :
    exec (.hello n m) s = .next (settle s (
      if m.version = 1 then modTrn n (fun p => { p with hello := true, serial := m.serial }) s
      else linkFailed n 5 6 s)) := by
  rw [exec_hello, execHello]
  apply done_eq
  rw [statusIn_of_heard _ hheard, if_neg (by rw [hport]; decide), ite_not]

/-- Until HELLO, its timeout ends the start, and LINK_START goes out again (Tables 13-5, 13-9). -/
theorem exec_helloAwaited {n : Trn} {s : State} (hport : s.trn[n].port = .starting) (hhello : s.trn[n].hello = false) :
    exec (.helloTimeout n) s = .next (settle s (linkFailed n 5 6 s)) ∧
    exec (.linkStartResend n) s = .next (settle s (sendCtl n 0x01 (n.val + 0x100) [] s)) := by
  have hawaited : (s.trn[n].port == .starting && !s.trn[n].hello) = true := by rw [hport, hhello]; rfl
  rw [exec_helloTimeout, execHelloTimeout, exec_linkStartResend, execLinkStartResend]
  exact ⟨done_if hawaited, done_if hawaited⟩

theorem exec_laneLockTimeout_inbound {n : Trn} {lane : Fin 14} {s : State} (hport : s.trn[n].port = .starting)
    (hids : s.trn[n].identified = false) (hlane : lane.val < 10) :
    exec (.laneLockTimeout n lane) s = .next (settle s (linkFailed n 1 0 s)) := by
  rw [exec_laneLockTimeout, execLaneLockTimeout]
  exact done_if (by rw [hport, hids, decide_eq_true hlane]; rfl)

/-- The lanes take their inversion whatever the identity words then earn. -/
theorem exec_identityCheck_whole {n : Trn} {ids : List LaneId} {s : State} (hport : s.trn[n].port = .starting)
    (hlanes : ∀ l : Fin 10, ∃ i ∈ ids, i.lane.val = l.val) :
    let t := ids.foldl (fun s i => setInverted (14 * n.val + i.lane.val) i.inverted s) s
    exec (.identityCheck n ids) s = .next (settle s (
      if ∃ i ∈ ids, field i.word 44 4 ≠ i.lane.val then linkFailed n 2 3 t
      else if ∃ i ∈ ids, field i.word 41 3 ≠ n.val then linkFailed n 3 3 t
      else if ∃ i ∈ ids, i.aligned = false ∨ 200 ≤ field i.word 33 8 then linkFailed n 4 4 t
      else modTrn n (fun p => { p with identified := true }) t)) := by
  intro t
  rw [exec_identityCheck, execIdentityCheck]
  apply done_eq
  rw [if_neg (by rw [hport, all_lanes_identified hlanes]; decide), identityFault_eq]
  by_cases hlane : ∃ i ∈ ids, field i.word 44 4 ≠ i.lane.val
  · simp only [if_pos hlane]
    rfl
  by_cases htrn : ∃ i ∈ ids, field i.word 41 3 ≠ n.val
  · simp only [if_neg hlane, if_pos htrn]
    rfl
  by_cases halign : ∃ i ∈ ids, i.aligned = false ∨ 200 ≤ field i.word 33 8
  · simp only [if_neg hlane, if_neg htrn, if_pos halign]
    rfl
  · simp only [if_neg hlane, if_neg htrn, if_neg halign]
    rfl

theorem exec_portUp_complete {n : Trn} {s : State} (hport : s.trn[n].port = .starting) (hhello : s.trn[n].hello = true)
    (hids : s.trn[n].identified = true) (hcredit0 : s.trn[n].credit0 = 16384) (hcredit1 : s.trn[n].credit1 = 16384) :
    exec (.portUp n) s = .next (settle s (checkStreams (completeWhere (fun w => w = .linkStart n) rOk [] (ring 14
      (modTrn n (fun p => { p with port := .up, linkTicket := none }) s))))) := by
  rw [exec_portUp, execPortUp]
  apply doneS_eq
  dsimp only
  rw [hport, hhello, hids, hcredit0, hcredit1]
  rfl

/-- A failed start idles the port, ends its command with E_MEDIA, and raises its leaf at level 1 (Table 13-9). -/
theorem linkFailed_eq (n : Trn) (w2 bit : Nat) (s : State) :
    linkFailed n w2 bit s = raise1 (11 + n.val) (leafCode 1 bit) 0 [] (ring 14
      (completeWhere (fun w => w = .linkStart n) rMedia [BitVec.ofNat 32 w2]
        (modTrn n (fun p => { p with port := .idle, linkTicket := none }) (idleDownlinks n s)))) := rfl

/-- Settles O54: each clause is its command's lemma, and the last says what a failure does. -/
theorem linkStartEventsComplete : Obligations.LinkStartEventsComplete :=
  ⟨fun _ _ _ hheard hport => exec_hello_starting hheard hport,
   fun _ _ hport hhello => exec_helloAwaited hport hhello,
   fun _ _ _ hport hids hlane => exec_laneLockTimeout_inbound hport hids hlane,
   fun _ _ _ hport hlanes => exec_identityCheck_whole hport hlanes,
   fun _ _ hport hhello hids hcredit0 hcredit1 => exec_portUp_complete hport hhello hids hcredit0 hcredit1,
   linkFailed_eq⟩

end Sys2Proof.Machine
end

section
/-!
PROOFS. The long commands of the SYS family (R118, R252, R280, R287).
-/
namespace Sys2Proof.Machine
open Sys2Proof Sys2Proof.Claims

/-- A row that runs a long form, accepted, begins the form's work with its ticket. -/
theorem begins_of_runCommand {k : Cmd} {i : Chan → Instr} {work : Msg → LongOp} {start : Msg → Nat → State → State}
    (hexec : ∀ c s, exec (i c) s = done (runCommand k c) s) (hwork : ∀ m, k.long m = some (work m))
    (hstart : k.start = start) : Begins k i work start := by
  intro c s t haccepted hfree
  rw [hexec, ← hstart]
  exact done_eq (runCommand_long k c s t _ haccepted (hwork _) hfree)

/-! ### The meaning of each command -/

theorem exec_sysPowerDomainOn (c : Chan) (s : State) :
    exec (.sysPowerDomainOn c) s = done (runCommand sysDomainOn c) s := rfl

theorem exec_sysPowerDomainOff (c : Chan) (s : State) :
    exec (.sysPowerDomainOff c) s = done (runCommand sysDomainOff c) s := rfl

theorem exec_sysFaultsRecover (c : Chan) (s : State) :
    exec (.sysFaultsRecover c) s = done (runCommand sysFaultsRecover c) s := rfl

/-- Settles O15: the two switches join the queue (R118), and RECOVER waits with its ticket (R287). -/
theorem sysLongCommandsBegin : Obligations.SysLongCommandsBegin :=
  ⟨begins_of_runCommand exec_sysPowerDomainOn (fun _ => rfl) rfl,
   begins_of_runCommand exec_sysPowerDomainOff (fun _ => rfl) rfl,
   begins_of_runCommand exec_sysFaultsRecover (fun _ => rfl) rfl⟩

end Sys2Proof.Machine
end

section
/-!
PROOFS. Accesses of BAR0: reads, counters' shadows, writes, unsupported and poisoned requests, FW_LOAD, INT_CTRL, the release
and the hold-off (R148, R154, R157, R158, R160, R182, R201, R203, R207, R210, R218, R219, R294, R831).
-/
namespace Sys2Proof.Machine
open Sys2Proof Sys2Proof.Claims

/-! ### The meaning of each command -/

theorem exec_rcFieldRead (o : Origin) (off : Nat) (s : State) :
    exec (.rcFieldRead o off) s = execRcFieldRead o off s := rfl

theorem exec_counterLoRead (o : Origin) (off : Nat) (s : State) :
    exec (.counterLoRead o off) s = execCounterLoRead o off s := rfl

theorem exec_configWrite (o : Origin) (off : Nat) (v : Word) (s : State) :
    exec (.configWrite o off v) s = execConfigWrite o off v s := rfl

theorem exec_bar0UnsupportedRequest (off len : Nat) (be : BitVec 4) (k : UrKind) (s : State) :
    exec (.bar0UnsupportedRequest off len be k) s = execBar0UnsupportedRequest off len be k s := rfl

theorem exec_bar0PoisonedWrite (off : Nat) (v : Word) (s : State) :
    exec (.bar0PoisonedWrite off v) s = execBar0PoisonedWrite off v s := rfl

theorem exec_fwLoadStart (v : Word) (s : State) : exec (.fwLoadStart v) s = execFwLoadStart v s := rfl

theorem exec_intCtrlEoi (v : Word) (s : State) : exec (.intCtrlEoi v) s = execIntCtrlEoi v s := rfl

theorem exec_eoiReleaseEnd (s : State) : exec .eoiReleaseEnd s = execEoiReleaseEnd s := rfl

theorem exec_msixHoldoffEnd (s : State) : exec .msixHoldoffEnd s = execMsixHoldoffEnd s := rfl

/-! ### Counters and their shadows -/

/-- The counters lie above every register that a read changes (Table 21-4). -/
theorem isCounter_above {off : Nat} (h : isCounter off = true) : 0x8000 ≤ off := by
  simp only [isCounter, counterTable, List.any_cons, List.any_nil, Bool.or_false, Bool.or_eq_true,
    decide_eq_true_eq] at h
  omega

/-- The origin's shadow takes bits 47 to 32 of the counter at `off` (R182). -/
def latchShadow (o : Origin) (off : Nat) (s : State) : State :=
  let v : BitVec 16 := (counterValue off s >>> 32).truncate 16
  match o with
  | .pcie => { s with regs.shPcie := spSet 0 s.regs.shPcie off v }
  | .i2c => { s with regs.shI2c := spSet 0 s.regs.shI2c off v }
  | .debug => { s with regs.shDebug := spSet 0 s.regs.shDebug off v }
  | .sup => { s with regs.shSup := spSet 0 s.regs.shSup off v }

/-- A read of a counter's low word latches its shadow and does nothing else. -/
theorem bar0Effect_counter {o : Origin} {off : Nat} {s : State} (hcounter : isCounter off = true) (hlow : off % 8 = 0) :
    bar0Effect o off s = latchShadow o off s := by
  have habove := isCounter_above hcounter
  have hwindow : off ≠ 0x104 := by omega
  have hwide : off ≠ 0x13C := by omega
  have hmbx : ¬(0x1000 ≤ off ∧ off < 0x1A00 ∧ off % 0x100 = 0x44) := by omega
  have hcause : ¬(0x5000 ≤ off ∧ off < 0x5E00) := by omega
  simp only [bar0Effect, hcounter, hlow, hwindow, hwide, hmbx, hcause, decide_true, Bool.and_self, if_true, if_false,
    false_and, ite_self]
  rfl

/-! ### Which requests are accepted (R157, R158, R294) -/

theorem bar0Accepts_iff {off len : Nat} {be : BitVec 4} : bar0Accepts off len be = true ↔
    implemented off = true ∧ be = 0xF ∧ (len = 1 ∨ (len = 2 ∧ 0x2F00 ≤ off ∧ off < 0x2F88 ∧ off % 8 = 0)) := by
  have htwo : ((0x2F00 ≤ off ∧ off < 0x2F88) ∧ len = 2 ∧ off % 8 = 0) ↔
      (len = 2 ∧ 0x2F00 ≤ off ∧ off < 0x2F88 ∧ off % 8 = 0) := by omega
  simp only [bar0Accepts, Bool.and_eq_true, Bool.or_eq_true, beq_iff_eq, decide_eq_true_eq]
  rw [htwo, and_assoc]

/-- An accepted read of two DWs is two reads, in rising order. -/
theorem serveDws_twoReads (off : Nat) (s : State) :
    serveDws off 2 none s = readBy .pcie (off + 4) (readBy .pcie off s) := rfl

/-- An accepted write of two DWs is two writes, in rising order. -/
theorem serveDws_twoWrites (off : Nat) (v w : Word) (s : State) :
    serveDws off 2 (some [v, w]) s = writeBy .pcie (off + 4) w (writeBy .pcie off v s) := rfl

/-! ### FW_LOAD and INT_CTRL -/

theorem storeReg_fwLoad (o : Origin) (v : Word) (s : State) : storeReg o 0x14 v s = writeFwLoad v s := rfl

theorem storeReg_intCtrl (o : Origin) (v : Word) (s : State) : storeReg o 0x28 v s = writeIntCtrl v s := rfl

/-- FW_LOAD is heeded in WAIT_HOST while no image is being checked (R148; log 171). -/
theorem writeFwLoad_heeded {v : Word} {s : State} (hwait : s.boot.fwState = 2) (hcheck : s.boot.checking = false) :
    writeFwLoad v s = { s with boot.loadLength := v.truncate 23, boot.checking := v.getLsbD 31 } :=
  if_pos ⟨hwait, hcheck⟩

/-- A word on its way to a register changes nothing of boot. -/
theorem arrived_boot (o : Origin) (off : Nat) (v : Word) (s : State) : (arrived o off v s).boot = s.boot :=
  (arrived_parts o off v s).2.1

/-! ### The commands where their event can occur -/

theorem exec_rcFieldRead_implemented {o : Origin} {off : Nat} {s : State} (hup : originUp o s = true)
    (himpl : implemented off = true) :
    exec (.rcFieldRead o off) s = .next (settle s (bar0Effect o off (shown o off s))) := by
  rw [exec_rcFieldRead, execRcFieldRead]
  exact done_eq (readBy_shown o off s hup himpl)

theorem exec_counterLoRead_latched {o : Origin} {off : Nat} {s : State} (hup : originUp o s = true)
    (himpl : implemented off = true) (hcounter : isCounter off = true) (hlow : off % 8 = 0) :
    exec (.counterLoRead o off) s = .next (settle s (latchShadow o off (shown o off s))) := by
  rw [exec_counterLoRead, execCounterLoRead]
  apply done_eq
  rw [readBy_shown o off s hup himpl, bar0Effect_counter hcounter hlow]

theorem exec_configWrite_accepted {o : Origin} {off : Nat} {v : Word} {s : State} (hw : Writes o off s) :
    exec (.configWrite o off v) s = .next (settle s (storeReg o off v (arrived o off v s))) := by
  rw [exec_configWrite, execConfigWrite]
  exact done_eq (writeBy_accepted o off v s hw)

/-- Whether it reads or writes, a request that is not accepted is answered with Unsupported Request. -/
theorem exec_bar0UnsupportedRequest_refused {off len : Nat} {be : BitVec 4} {k : UrKind} {s : State}
    (hup : originUp .pcie s = true) (hk : k ≠ .controller) (hrefused : ¬bar0Accepts off len be = true) :
    exec (.bar0UnsupportedRequest off len be k) s = .next (settle s (urBar0 off s)) := by
  rw [exec_bar0UnsupportedRequest, execBar0UnsupportedRequest]
  apply done_eq
  rw [if_neg (by rw [hup]; decide)]
  cases k with
  | read => exact if_neg hrefused
  | write ws => exact if_neg hrefused
  | controller => exact absurd rfl hk

theorem exec_bar0UnsupportedRequest_twoDws {off : Nat} {v w : Word} {s : State} (hup : originUp .pcie s = true)
    (haccepted : bar0Accepts off 2 0xF = true) :
    exec (.bar0UnsupportedRequest off 2 0xF .read) s =
      .next (settle s (readBy .pcie (off + 4) (readBy .pcie off s))) ∧
    exec (.bar0UnsupportedRequest off 2 0xF (.write [v, w])) s =
      .next (settle s (writeBy .pcie (off + 4) w (writeBy .pcie off v s))) := by
  simp only [exec_bar0UnsupportedRequest, execBar0UnsupportedRequest, ← serveDws_twoReads, ← serveDws_twoWrites]
  constructor <;>
  · apply done_eq
    rw [if_neg (by rw [hup]; decide)]
    exact if_pos haccepted

/-- The controller's own refusal counts nowhere (R831). -/
theorem exec_bar0UnsupportedRequest_controller {off len : Nat} {be : BitVec 4} {s : State}
    (hup : originUp .pcie s = true) :
    exec (.bar0UnsupportedRequest off len be .controller) s = .next (settle s (setLeaf 1 4 s)) := by
  rw [exec_bar0UnsupportedRequest, execBar0UnsupportedRequest]
  exact done_if_not (by rw [hup]; decide)

theorem exec_bar0PoisonedWrite_up {off : Nat} {v : Word} {s : State} (hup : originUp .pcie s = true) :
    exec (.bar0PoisonedWrite off v) s = .next (settle s (raise1 1 (leafCode 0 3) 0 [] s)) := by
  rw [exec_bar0PoisonedWrite, execBar0PoisonedWrite]
  exact done_if hup

theorem exec_fwLoadStart_heeded {v : Word} {s : State} (hw : Writes .pcie 0x14 s) (hwait : s.boot.fwState = 2)
    (hcheck : s.boot.checking = false) :
    exec (.fwLoadStart v) s = .next (settle s { arrived .pcie 0x14 v s with
      boot.loadLength := v.truncate 23, boot.checking := v.getLsbD 31 }) := by
  rw [exec_fwLoadStart, execFwLoadStart]
  apply done_eq
  rw [writeBy_accepted .pcie _ v s hw, storeReg_fwLoad]
  exact writeFwLoad_heeded (by rw [arrived_boot, hwait]) (by rw [arrived_boot, hcheck])

theorem exec_intCtrlEoi_accepted {v : Word} {s : State} (hw : Writes .pcie 0x28 s) :
    exec (.intCtrlEoi v) s = .next (settle s (writeIntCtrl v (arrived .pcie 0x28 v s))) := by
  rw [exec_intCtrlEoi, execIntCtrlEoi]
  apply done_eq
  rw [writeBy_accepted .pcie _ v s hw, storeReg_intCtrl]

theorem exec_eoiReleaseEnd_ends (s : State) :
    exec .eoiReleaseEnd s = .next (settle s { s with irq.eoiRelease := false }) := by
  rw [exec_eoiReleaseEnd, execEoiReleaseEnd]
  exact done_eq rfl

/-- A message that became due during the hold-off goes if attention still stands (R210). -/
theorem exec_msixHoldoffEnd_ends (s : State) :
    let t : State := { s with irq.holdoffRuns := false, irq.msixDue := false }
    exec .msixHoldoffEnd s = .next (settle s (if s.irq.msixDue && attentionNow t then callMsix t else t)) := by
  intro t
  rw [exec_msixHoldoffEnd, execMsixHoldoffEnd]
  exact done_eq rfl

/-- Settles O31: each clause is its command's lemma; the shadow is shown for each origin. -/
theorem bar0AccessesComplete : Obligations.Bar0AccessesComplete := by
  refine ⟨fun _ _ _ hup himpl => exec_rcFieldRead_implemented hup himpl,
    fun o _ _ hup himpl hcounter hlow => ?shadow,
    fun _ _ _ _ hw => exec_configWrite_accepted hw,
    fun _ _ _ _ _ hup hk hrefused =>
      exec_bar0UnsupportedRequest_refused hup hk (fun h => hrefused (bar0Accepts_iff.mp h)),
    fun _ _ _ _ hup hlo hhi halign himpl =>
      exec_bar0UnsupportedRequest_twoDws hup (bar0Accepts_iff.mpr ⟨himpl, rfl, .inr ⟨rfl, hlo, hhi, halign⟩⟩),
    fun _ _ _ _ hup => exec_bar0UnsupportedRequest_controller hup,
    fun _ _ _ hup => exec_bar0PoisonedWrite_up hup,
    fun _ _ hw hwait hcheck => exec_fwLoadStart_heeded hw hwait hcheck,
    fun _ _ hw => exec_intCtrlEoi_accepted hw,
    exec_eoiReleaseEnd_ends,
    exec_msixHoldoffEnd_ends⟩
  case shadow =>
    rw [exec_counterLoRead_latched hup himpl hcounter hlow]
    cases o <;> rfl

end Sys2Proof.Machine
end

section
/-!
PROOFS. Clocks: REFCLK, the PLLs' locks and losses, SerDes unlocks, gearbox slips (R113, R114, R124, R129, R136, R137, R741,
R760).
-/
namespace Sys2Proof.Machine
open Sys2Proof

/-! ### The meaning of each command -/

theorem exec_refclkLoss (s : State) : exec .refclkLoss s = execRefclkLoss s := rfl

theorem exec_refclkReturn (s : State) : exec .refclkReturn s = execRefclkReturn s := rfl

theorem exec_pllLock (pll : CorePll) (s : State) : exec (.pllLock pll) s = execPllLock pll s := rfl

theorem exec_pllLostLock (pll : CorePll) (s : State) : exec (.pllLostLock pll) s = execPllLostLock pll s := rfl

theorem exec_pllUnlock (pll : SerdesPll) (s : State) : exec (.pllUnlock pll) s = execPllUnlock pll s := rfl

theorem exec_gearboxSlip (box : Gearbox) (s : State) : exec (.gearboxSlip box) s = execGearboxSlip box s := rfl

/-! ### The fuse load waits for its clocks (R129) -/

/-- With CCLK running, only a boot after reset 0x4 or 0x5 still waits, for the HBM3 PLL. -/
theorem bootClocked_of_cclk {s : State} (hphase : s.boot.phase = .pll) (hclk : s.power.cclk = true) :
    bootClocked s = if (s.aon.cause = 4 ∨ s.aon.cause = 5) ∧ s.power.pll.getLsbD 0 = false then s
      else { s with boot.phase := .fuses } := by
  rw [bootClocked, ← ite_not]
  simp only [hphase, hclk, true_and, Classical.not_imp, Bool.not_eq_true]

/-- With the HBM3 PLL locked, only CCLK is still waited for. -/
theorem bootClocked_of_hbm {s : State} (hbm : s.power.pll.getLsbD 0 = true) :
    bootClocked s = if s.boot.phase = .pll ∧ s.power.cclk = true then { s with boot.phase := .fuses } else s := by
  simp only [bootClocked, hbm, implies_true, and_true]

theorem setBit_lowest (w : BitVec 12) : (setBit w 0).getLsbD 0 = true := by simp [setBit]

/-! ### A transport's PLL (R136) -/

/-- An unlock of TRN_n's PLL is a level-1 fault of CLK that owes the records the loss failed; in the safe state the
transport's block halts (R136, R230). -/
def raiseUnlock (n : Trn) (owes : List Nat) (s : State) : State :=
  let t := setLeaf 23 0 s
  let u := if t.faults.safe then (haltBlock (11 + n.val) t).2 else t
  queueFault (faultNow 1 23 (leafCode 0 0) 0 owes u) u

theorem raiseUnlock_eq (n : Trn) (owes : List Nat) (s : State) : raiseUnlock n owes s =
    if s.faults.safe then
      (let h := (haltBlock (11 + n.val) (setLeaf 23 0 s)).2
       queueFault { level := 1, source := 23, leaf := 0, stamp := h.tether.stamp, detail := 0, preempted := false,
                    owes := owes } h)
    else queueFault { level := 1, source := 23, leaf := 0, stamp := s.tether.stamp, detail := 0, preempted := false,
                      owes := owes } (setLeaf 23 0 s) := by
  rw [raiseUnlock, setLeaf_faults]
  dsimp only
  split <;> rfl

/-! ### The commands where their event can occur -/

theorem exec_refclkLoss_present {s : State} (hlost : s.aon.refclkLost = false) (hup : s.aon.vaonDown = false) :
    exec .refclkLoss s = .next (settle s (
      if s.boot.phase = .standby then { s with aon.refclkLost := true }
      else enterReset 4 0 { s with aon.refclkLost := true, power.cclk := false })) := by
  rw [exec_refclkLoss, execRefclkLoss]
  exact done_if_not (by simp [hlost, hup])

theorem exec_refclkReturn_boots (s : State) :
    exec .refclkReturn s = .next (settle s (bootOn { s with aon.refclkLost := false })) := by
  rw [exec_refclkReturn, execRefclkReturn]
  exact done_eq rfl

theorem exec_pllLock_core {s : State} (hphase : s.boot.phase = .pll) (href : s.aon.refclkLost = false)
    (hclk : s.power.cclk = false) :
    let t : State := { s with power.cclk := true, tether.stamp := 0, tether.epoch := 0 }
    exec (.pllLock .core) s = .next (settle s (
      if (s.aon.cause = 4 ∨ s.aon.cause = 5) ∧ s.power.pll.getLsbD 0 = false then t
      else { t with boot.phase := .fuses })) := by
  intro t
  rw [exec_pllLock, execPllLock]
  apply done_eq
  dsimp only
  rw [if_pos ⟨hphase, href, hclk⟩]
  exact bootClocked_of_cclk hphase rfl

theorem exec_pllLock_hbm {s : State} (hclocked : supUp s = true ∨ (s.boot.phase = .pll ∧ s.aon.refclkLost = false)) :
    let t : State := { s with power.pll := setBit s.power.pll 0 }
    exec (.pllLock .hbm) s = .next (settle s (
      if s.boot.phase = .pll ∧ s.power.cclk = true then { t with boot.phase := .fuses } else t)) := by
  intro t
  rw [exec_pllLock, execPllLock]
  apply done_eq
  dsimp only
  rw [if_pos (by simpa using hclocked)]
  exact bootClocked_of_hbm (setBit_lowest s.power.pll)

theorem exec_pllLostLock_core {s : State} (hclk : s.power.cclk = true) :
    exec (.pllLostLock .core) s = .next (settle s (enterReset 5 0 { s with power.cclk := false })) := by
  rw [exec_pllLostLock, execPllLostLock]
  exact done_if hclk

theorem exec_pllLostLock_hbm {s : State} (hup : supUp s = true ∨ s.boot.phase = .copying)
    (hlocked : s.power.pll.getLsbD 0 = true) :
    exec (.pllLostLock .hbm) s = .next (settle s (enterReset 5 0 s)) := by
  rw [exec_pllLostLock, execPllLostLock]
  exact done_if (by simpa [hlocked] using hup)

/-- A locked SerDes PLL whose event can occur. -/
theorem not_unlockIdle {l : SerdesPll} {s : State} (hup : supUp s = true)
    (hlocked : s.power.pll.getLsbD (pllBit l) = true) :
    ¬(!supUp s || !s.power.pll.getLsbD (pllBit l)) = true := by
  rw [hup, hlocked]
  decide

/-- The link start that the unlock ends completes as log 168 has it. -/
theorem exec_pllUnlock_trn {n : Trn} {s : State} (hup : supUp s = true)
    (hlocked : s.power.pll.getLsbD (4 + n.val) = true) :
    let t : State := { s with power.pll := clrBit s.power.pll (4 + n.val) }
    let r := if s.trn[n].port = .up then loseTransport n rMedia t else ([], startLost n t)
    exec (.pllUnlock (.trn n)) s = .next (settle s (checkStreams (raiseUnlock n r.1 r.2))) := by
  intro t r
  have hr : r = if t.trn[n].port == .up then loseTransport n rMedia t else ([], startLost n t) := by
    simp only [beq_iff_eq]
    rfl
  rw [exec_pllUnlock, execPllUnlock, hr]
  apply doneS_eq
  dsimp only
  rw [if_neg (not_unlockIdle (l := .trn n) hup hlocked)]
  rfl

theorem exec_pllUnlock_link {l : SerdesPll} {s : State} (hl : ∀ n, l ≠ .trn n) (hup : supUp s = true)
    (hlocked : s.power.pll.getLsbD (pllBit l) = true) :
    exec (.pllUnlock l) s = .next (settle s (checkStreams (raise2 23 (leafCode 0 0) (linkBlock l) 0
      (linkGone l { s with power.pll := clrBit s.power.pll (pllBit l) })))) := by
  rw [exec_pllUnlock, execPllUnlock]
  apply doneS_eq
  dsimp only
  rw [if_neg (not_unlockIdle hup hlocked)]
  cases l with
  | pcie => rfl
  | eth p => rfl
  | trn n => exact absurd rfl (hl n)

theorem exec_gearboxSlip_up {s : State} (hup : supUp s = true) :
    (∀ l, exec (.gearboxSlip (.link l)) s = .next (settle s (checkStreams
      (raise2 23 (leafCode 0 3) (linkBlock l) 0 (linkGone l (replayBreak 2 s)))))) ∧
    ∀ k, exec (.gearboxSlip (.hbm k)) s =
      .next (settle s (checkStreams (raise2 23 (leafCode 0 3) 6 0 (replayBreak 2 s)))) := by
  simp only [exec_gearboxSlip, execGearboxSlip]
  exact ⟨fun _ => doneS_eq (if_neg (by rw [hup]; decide)), fun _ => doneS_eq (if_neg (by rw [hup]; decide))⟩

/-- Settles O38: each clause is its command's lemma, where the event can occur. -/
theorem clockEventsComplete : Obligations.ClockEventsComplete := by
  refine ⟨fun _ hlost hup => exec_refclkLoss_present hlost hup,
    exec_refclkReturn_boots,
    fun _ hphase href hclk => exec_pllLock_core hphase href hclk,
    fun _ hclocked => exec_pllLock_hbm hclocked,
    fun _ hclk => exec_pllLostLock_core hclk,
    fun _ hup hlocked => exec_pllLostLock_hbm hup hlocked,
    fun _ _ hup hlocked => ?unlock,
    fun _ _ hl hup hlocked => exec_pllUnlock_link hl hup hlocked,
    fun l _ hup => (exec_gearboxSlip_up hup).1 l,
    fun k _ hup => (exec_gearboxSlip_up hup).2 k⟩
  case unlock =>
    rw [exec_pllUnlock_trn hup hlocked, raiseUnlock_eq]

end Sys2Proof.Machine
end

section
/-!
PROOFS. PERST_N, PME_Turn_Off, the standby timeout and wake requests (R106 to R109, R123, R126 to R128, R133).
-/
namespace Sys2Proof.Machine
open Sys2Proof

/-! ### The meaning of each command -/

theorem exec_perstNAssert (s : State) : exec .perstNAssert s = execPerstNAssert s := rfl

theorem exec_perstNRelease (s : State) : exec .perstNRelease s = execPerstNRelease s := rfl

theorem exec_pmeTurnOff (s : State) : exec .pmeTurnOff s = execPmeTurnOff s := rfl

theorem exec_standbyAckTimeout (s : State) : exec .standbyAckTimeout s = execStandbyAckTimeout s := rfl

theorem exec_wakeRequest (w : WakeBy) (s : State) : exec (.wakeRequest w) s = execWakeRequest w s := rfl

/-! ### The commands where their event can occur -/

theorem exec_perstNAssert_seen {s : State} (hhigh : s.aon.perstLow = false) (hup : s.aon.vaonDown = false)
    (hpads : padctl s = false) :
    let t : State := { s with aon.perstLow := true, aon.persts := satInc s.aon.persts }
    exec .perstNAssert s = .next (settle s (
      if s.power.standbyAcked then enterStandby t
      else if supUp s then setLeaf 23 2 (pcieReset false t)
      else t)) := by
  intro t
  rw [exec_perstNAssert, execPerstNAssert]
  exact done_if_not (by simp [hhigh, hup, hpads])

/-- The straps keep their samples (R133). -/
theorem exec_perstNRelease_seen {s : State} (hlow : s.aon.perstLow = true) (hup : s.aon.vaonDown = false)
    (hpads : padctl s = false) :
    let t : State := { s with aon.perstLow := false }
    exec .perstNRelease s = .next (settle s (
      if s.boot.phase = .standby then (if s.aon.vcoreLow = false ∧ s.aon.refclkLost = false then enterReset 10 0 t else t)
      else { t with pcie.cfgUp := s.i2c.enabled })) := by
  intro t
  rw [exec_perstNRelease, execPerstNRelease]
  apply done_eq
  rw [if_neg (by simp [hlow, hup, hpads])]
  simp only [edgeHeeded_iff]
  rfl

theorem exec_pmeTurnOff_acked {s : State} (hack : s.power.standbyAcked = true) (hhost : hostUp s = true) :
    exec .pmeTurnOff s = .next (settle s (enterStandby (emit .pmeToAck s))) := by
  rw [exec_pmeTurnOff, execPmeTurnOff]
  exact done_if (by rw [hack, hhost]; rfl)

theorem exec_standbyAckTimeout_acked {s : State} (hack : s.power.standbyAcked = true) :
    exec .standbyAckTimeout s = .next (settle s (enterStandby s)) := by
  rw [exec_standbyAckTimeout, execStandbyAckTimeout]
  exact done_if hack

theorem exec_wakeRequest_standby {w : WakeBy} {s : State} (hphase : s.boot.phase = .standby)
    (hasks : asksWake s.aon.wakePins s.aon.wakePol w s = true) :
    exec (.wakeRequest w) s = .next (settle s { s with aon.wakeN := true }) := by
  rw [exec_wakeRequest, execWakeRequest]
  apply done_eq
  rw [if_pos hphase, if_pos hasks]

/-- The strapped address asks for the end of standby (R109). -/
theorem asksWake_strapped (pins pol : BitVec 24) (s : State) :
    asksWake pins pol (.i2c (BitVec.ofNat 7 (0x58 + field s.aon.straps 2 2))) s = true := beq_self_eq_true _

/-- So does the asserted level on a pin that latched as an interlock input (R109). -/
theorem asksWake_latched {pins pol : BitVec 24} {k : Fin 24} {pad : Bool} {s : State}
    (hlatched : pins.getLsbD k.val = true) (hlevel : pad ≠ pol.getLsbD k.val) :
    asksWake pins pol (.aux k pad) s = true := by
  rw [asksWake, hlatched, bne_iff_ne.mpr hlevel]
  rfl

/-- Settles O39: each clause is its command's lemma; both wake requests are ones that ask. -/
theorem perstAndStandbyEventsComplete : Obligations.PerstAndStandbyEventsComplete :=
  ⟨fun _ hhigh hup hpads => exec_perstNAssert_seen hhigh hup hpads,
   fun _ hlow hup hpads => exec_perstNRelease_seen hlow hup hpads,
   fun _ hack hhost => exec_pmeTurnOff_acked hack hhost,
   fun _ hack => exec_standbyAckTimeout_acked hack,
   fun s hphase => exec_wakeRequest_standby hphase (asksWake_strapped _ _ s),
   fun _ _ _ hphase hlatched hlevel => exec_wakeRequest_standby hphase (asksWake_latched hlatched hlevel)⟩

end Sys2Proof.Machine
end

section
/-!
PROOFS. Boot, the watchdog and the junction sensors (R138, R139, R142, R143, R145, R147, R148, R493, R721 to R723, R782,
R785).
-/
namespace Sys2Proof.Machine
open Sys2Proof

/-! ### The meaning of each command -/

theorem exec_fuseLoadDone (ok : Bool) (s : State) : exec (.fuseLoadDone ok) s = execFuseLoadDone ok s := rfl

theorem exec_selfTestDone (r : SelfTest) (s : State) : exec (.selfTestDone r) s = execSelfTestDone r s := rfl

theorem exec_hbmTrainingDone (ok : BitVec 4) (s : State) :
    exec (.hbmTrainingDone ok) s = execHbmTrainingDone ok s := rfl

theorem exec_imageCheckDone (f : ImageFetch) (s : State) : exec (.imageCheckDone f) s = execImageCheckDone f s := rfl

theorem exec_ready (r : InitResult) (s : State) : exec (.ready r) s = execReady r s := rfl

theorem exec_wdWarn (s : State) : exec .wdWarn s = execWdWarn s := rfl

theorem exec_watchdogExpiry (s : State) : exec .watchdogExpiry s = execWatchdogExpiry s := rfl

theorem exec_thermalSample (rs : List Int) (s : State) : exec (.thermalSample rs) s = execThermalSample rs s := rfl

theorem exec_injectOffsetEnd (i : Fin 8) (s : State) : exec (.injectOffsetEnd i) s = execInjectOffsetEnd i s := rfl

/-! ### Images (R139, R143 to R150) -/

/-- Once HBM3 is trained, the host may load (R148). -/
theorem waitHost_of_trained {s : State} (h : s.boot.hbmReady = true) : waitHost s = { s with boot.fwState := 2 } :=
  if_pos h

/-- A table without a quad read mode is no valid flash (R147; log 169). -/
theorem flashChecked_noMode {tab : Sfdp} {img : List Byte} {s : State} (h : quadMode tab = none) :
    flashChecked tab img s = flashOver 4 s := by rw [flashChecked, h]

/-- A slot read in the table's mode runs, or the other slot is tried, or no image is left (R139, R145). -/
theorem flashChecked_mode {tab : Sfdp} {img : List Byte} {m : FlashMode} {s : State} (h : quadMode tab = some m) :
    let t := emit (.flashRead m (if s.boot.trySlot then 0x00400000 else 0)) { s with boot.flashMode := some m }
    flashChecked tab img s =
      if imageRefusal img t = 0 then runImage img s.boot.trySlot t
      else if s.boot.trySlot then flashOver (imageRefusal img t) t
      else { t with boot.trySlot := true, boot.reason := BitVec.ofNat 8 (imageRefusal img t) } := by
  intro t
  rw [flashChecked, h]
  dsimp only
  rw [slotAddr, show emit _ _ = t from rfl]
  cases imageRefusal img t with
  | zero => rfl
  | succ c => rfl

/-- The host's image runs, or leaves its reason; a read that ended boot or entered the safe state settles it (R134, R150;
log 170). -/
theorem hostChecked_eq (s : State) :
    let r := readRange 0 s.boot.loadLength.toNat [] s
    let t := afterRead r.2.1 [] r.2.2
    hostChecked s =
      if t.faults.safe = true ∨ t.boot.phase ≠ .rom then t
      else if imageRefusal r.1 t = 0 then runImage r.1 false t
      else { t with boot.checking := false, boot.reason := BitVec.ofNat 8 (imageRefusal r.1 t) } := by
  intro r t
  rw [hostChecked]
  dsimp only
  rw [show readRange 0 s.boot.loadLength.toNat [] s = r from rfl, show afterRead r.2.1 [] r.2.2 = t from rfl]
  cases imageRefusal r.1 t with
  | zero => rfl
  | succ c => rfl

/-- READY ends boot: the blocks are enabled, and what failed its known-answer test stays out of service (R142, R235;
the PLL bits are log 87's). -/
def endBoot (r : InitResult) (s : State) : State := { s with
  boot.phase := .running, boot.fwState := 5, boot.bootTime := r.micros, power.pll := s.power.pll ||| 0xFFC
  dma.enabled := true, ing.enabled := true, cmp.enabled := true, cip.enabled := true, fmt.enabled := true
  gov.enabled := true, cip.entropyOk := true
  cmp.engine := Vector.ofFn (fun e => { getN s.cmp.engine e.val {} with off := r.cmpFailed.getLsbD e.val })
  cip.unit := Vector.ofFn (fun u => { getN s.cip.unit u.val {} with off := r.cipFailed.getLsbD u.val }) }

/-! ### The commands where their event can occur -/

theorem exec_fuseLoadDone_fuses {ok : Bool} {s : State} (hphase : s.boot.phase = .fuses)
    (hsafe : s.faults.safe = false) :
    let t : State := { s with boot.fusesLoaded := true, nv.bootLife := BitVec.ofNat 4 (lifeCode s) }
    exec (.fuseLoadDone ok) s = .next (settle s { (
      if ok = false ∨ fuseFaulty 0 t = true ∨ fuseFaulty 1 t = true then bootFail 2 t
      else if bootsel t = 3 ∧ lifeCode t ≥ 3 then bootFail 9 t else t) with boot.phase := .selfTest }) := by
  intro t
  have hrefused : (!ok || fuseFaulty 0 t || fuseFaulty 1 t) = true ↔
      ok = false ∨ fuseFaulty 0 t = true ∨ fuseFaulty 1 t = true := by simp [or_assoc]
  rw [exec_fuseLoadDone, execFuseLoadDone]
  apply done_eq
  rw [if_neg (by simp [hphase, hsafe])]
  simp only [← hrefused]
  rfl

/-- PCIe and the I2C target are enabled whatever the test brought (Table 03-9 step 4). -/
theorem exec_selfTestDone_tested {s : State} (hphase : s.boot.phase = .selfTest) (hsafe : s.faults.safe = false)
    (hfw : s.boot.fwState ≠ 6) :
    let t : State := { s with i2c.enabled := true, pcie.cfgUp := !s.aon.perstLow }
    exec (.selfTestDone .passed) s = .next (settle s (
      if bootsel s = 0 ∨ bootsel s = 2 then
        emit .sfdpRead { t with boot.phase := .rom, boot.fwState := 1, boot.qspiOn := true }
      else { t with boot.phase := .rom, boot.fwState := 0 })) ∧
    exec (.selfTestDone .failed) s = .next (settle s (bootFail 1 t)) := by
  intro t
  have hnow : ¬(s.boot.phase ≠ .selfTest ∨ s.faults.safe = true) := by simp [hphase, hsafe]
  have hgoes : ¬t.boot.fwState = 6 := hfw
  rw [exec_selfTestDone, exec_selfTestDone, execSelfTestDone, execSelfTestDone]
  constructor
  · apply done_eq
    rw [if_neg hnow]
    exact if_neg hgoes
  · apply done_eq
    rw [if_neg hnow]
    exact if_neg hgoes

/-- Training may end while the boot ROM or Fjarma waits for it. -/
theorem not_trainingIdle {s : State} (hready : s.boot.hbmReady = false) (hsafe : s.faults.safe = false)
    (hphase : s.boot.phase = .rom ∨ s.boot.phase = .init) :
    ¬(s.boot.hbmReady || s.faults.safe || !(s.boot.phase == .rom || s.boot.phase == .init)) = true := by
  have hwaits : (s.boot.phase == .rom || s.boot.phase == .init) = true := by simpa using hphase
  rw [hready, hsafe, hwaits]
  decide

theorem exec_hbmTrainingDone_allStacks {s : State} (hready : s.boot.hbmReady = false) (hsafe : s.faults.safe = false)
    (hphase : s.boot.phase = .rom ∨ s.boot.phase = .init) :
    let t : State := { s with boot.hbmReady := true, stg.stackOk := 15, power.pll := setBit s.power.pll 0 }
    exec (.hbmTrainingDone 15) s = .next (settle s (
      if s.boot.phase = .init then layOut t
      else if bootsel s = 1 ∨ s.boot.flashSpent = true then { t with boot.fwState := 2 }
      else if bootsel s = 3 then takeHalt { t with boot.fwState := 3, dbg.runs := s.dbg.runs + 1 }
      else t)) := by
  intro t
  have hwait : waitHost t = { t with boot.fwState := 2 } := waitHost_of_trained rfl
  rw [exec_hbmTrainingDone, execHbmTrainingDone, ← hwait]
  apply done_eq
  rw [if_neg (not_trainingIdle hready hsafe hphase)]
  exact if_neg (by decide)

theorem exec_hbmTrainingDone_failed {ok : BitVec 4} {s : State} (hready : s.boot.hbmReady = false)
    (hsafe : s.faults.safe = false) (hphase : s.boot.phase = .rom ∨ s.boot.phase = .init) (hok : ok ≠ 15) :
    exec (.hbmTrainingDone ok) s = .next (settle s (bootFail 3 { s with stg.stackOk := ok })) := by
  rw [exec_hbmTrainingDone, execHbmTrainingDone]
  apply done_eq
  rw [if_neg (not_trainingIdle hready hsafe hphase)]
  exact if_pos hok

/-- The boot ROM looks at flash where it boots from it and has an image left to try. -/
theorem exec_imageCheckDone_flash {s : State} (hrom : s.boot.phase = .rom) (hsafe : s.faults.safe = false)
    (hsel : bootsel s = 0 ∨ bootsel s = 2) (hleft : s.boot.flashSpent = false) :
    exec (.imageCheckDone .noFlash) s = .next (settle s (flashOver 4 s)) ∧
    ∀ tab img, exec (.imageCheckDone (.flash tab img)) s = .next (settle s (flashChecked tab img s)) := by
  have hnow : ¬(s.boot.phase ≠ .rom ∨ s.faults.safe = true) := by simp [hrom, hsafe]
  have hflash : (s.boot.phase == .rom && (bootsel s == 0 || bootsel s == 2) && !s.boot.flashSpent) = true := by
    simpa [hrom, hleft] using hsel
  simp only [exec_imageCheckDone, execImageCheckDone]
  constructor
  · apply done_eq
    rw [if_neg hnow]
    exact if_pos hflash
  · intro tab img
    apply done_eq
    rw [if_neg hnow]
    exact if_pos hflash

theorem exec_imageCheckDone_host {s : State} (hrom : s.boot.phase = .rom) (hsafe : s.faults.safe = false)
    (hwait : s.boot.fwState = 2) (hcheck : s.boot.checking = true) :
    exec (.imageCheckDone .host) s = .next (settle s (hostChecked s)) := by
  rw [exec_imageCheckDone, execImageCheckDone]
  apply done_eq
  dsimp only
  rw [if_neg (by simp [hrom, hsafe])]
  exact if_neg (by simp [hwait, hcheck])

theorem exec_ready_initialised {r : InitResult} {s : State} (hphase : s.boot.phase = .init)
    (hlaid : s.stg.laidOut = true) (hruns : s.dbg.halted = false) (hsafe : s.faults.safe = false) :
    exec (.ready r) s = .next (settle s (
      if r.ok = false then bootFail 10 s
      else if 6 ≤ s.aon.cause.toNat ∧ s.aon.cause.toNat ≤ 9 then setLeaf 26 6 (endBoot r s) else endBoot r s)) := by
  rw [exec_ready, execReady]
  apply done_eq
  rw [if_neg (by simp [hphase, hlaid, hruns, hsafe])]
  simp only [Bool.not_eq_true']
  rfl

/-- An armed watchdog on a running core warns, or resets (R782; the 999 ms left are log 96's). -/
theorem exec_watchdog_armed {s : State} (harmed : s.dbg.wdArmed = true) (hruns : s.dbg.halted = false) :
    exec .wdWarn s = .next (settle s (setLeaf 25 2 { s with dbg.wdRemain := 999 })) ∧
    exec .watchdogExpiry s = .next (settle s (enterReset 6 0 s)) := by
  have hcounts : (s.dbg.wdArmed && !s.dbg.halted) = true := by rw [harmed, hruns]; rfl
  rw [exec_wdWarn, execWdWarn, exec_watchdogExpiry, execWatchdogExpiry]
  exact ⟨done_if hcounts, done_if hcounts⟩

theorem exec_thermalSample_whole {rs : List Int} {s : State} (hup : supUp s = true) (hlen : rs.length = 8) :
    let r := (takeSample (withOffsets rs (armOffset s)) (armOffset s)).2
    let n := popcount r.therm.valid
    let t := setThrottle (decide (n < 4) ||
      (if r.therm.throttle then decide (r.therm.cool < 16) else decide (r.therm.hot = 16))) r
    let u := sensorEntry (if t.therm.throttle then count 0x8C10 1 t else t)
    exec (.thermalSample rs) s = .next (settle s (setCritical (decide (n = 0) ||
      (if u.therm.critical then decide (u.therm.critCool < 16) else decide (u.therm.critHot = 16))) u)) := by
  intro r n t u
  rw [exec_thermalSample, execThermalSample]
  apply done_eq
  rw [if_neg (by simp [hup, hlen])]

theorem exec_injectOffsetEnd_ends (i : Fin 8) (s : State) : exec (.injectOffsetEnd i) s = .next (settle s { s with
    dbg.offsets := s.dbg.offsets.filter (fun o => decide (o.1 ≠ i.val)) }) := by
  rw [exec_injectOffsetEnd, execInjectOffsetEnd]
  exact done_eq rfl

/-- Settles O40: each clause is its command's lemma; an image's is the lemma of its check. -/
theorem bootEventsComplete : Obligations.BootEventsComplete := by
  refine ⟨fun _ _ hphase hsafe => exec_fuseLoadDone_fuses hphase hsafe,
    fun _ hphase hsafe hfw => exec_selfTestDone_tested hphase hsafe hfw,
    fun _ hready hsafe hphase => exec_hbmTrainingDone_allStacks hready hsafe hphase,
    fun _ _ hready hsafe hphase hok => exec_hbmTrainingDone_failed hready hsafe hphase hok,
    fun tab img s hrom hsafe hsel hleft => ?flash,
    fun _ hrom hsafe hsel hleft => (exec_imageCheckDone_flash hrom hsafe hsel hleft).1,
    fun s hrom hsafe hwait hcheck => ?host,
    fun _ _ hphase hlaid hruns hsafe => exec_ready_initialised hphase hlaid hruns hsafe,
    fun _ harmed hruns => exec_watchdog_armed harmed hruns,
    fun _ _ hup hlen => exec_thermalSample_whole hup hlen,
    exec_injectOffsetEnd_ends⟩
  case flash =>
    rw [(exec_imageCheckDone_flash hrom hsafe hsel hleft).2]
    refine ⟨fun hmode => ?_, fun m hmode => ?_⟩
    · rw [flashChecked_noMode hmode]
    · rw [flashChecked_mode hmode]
  case host =>
    rw [exec_imageCheckDone_host hrom hsafe hwait hcheck, hostChecked_eq]

end Sys2Proof.Machine
end

section
/-!
PROOFS. Domain switches, gating, parity visits, recovery and errors of internal SRAM (R98, R101, R116, R118, R119, R135, R163,
R165, R217, R222, R281, R287).
-/
namespace Sys2Proof.Machine
open Sys2Proof

/-! ### The meaning of each command -/

theorem exec_domainSwitchStart (s : State) : exec .domainSwitchStart s = execDomainSwitchStart s := rfl

theorem exec_domainSwitchDone (s : State) : exec .domainSwitchDone s = execDomainSwitchDone s := rfl

theorem exec_pdFail (s : State) : exec .pdFail s = execPdFail s := rfl

theorem exec_autoGateOff (h : Fin 2) (s : State) : exec (.autoGateOff h) s = execAutoGateOff h s := rfl

theorem exec_parityCheckerVisit (off : Nat) (flips : Word) (s : State) :
    exec (.parityCheckerVisit off flips) s = execParityCheckerVisit off flips s := rfl

theorem exec_recoverDone (ok : Bool) (s : State) : exec (.recoverDone ok) s = execRecoverDone ok s := rfl

theorem exec_sramUe (u : SramUnit) (s : State) : exec (.sramUe u) s = execSramUe u s := rfl

theorem exec_sramCorr (u : CorrUnit) (s : State) : exec (.sramCorr u) s = execSramCorr u s := rfl

/-! ### A switch's command (R281) -/

/-- A switch whose command is still in flight ends it with PD_STAT.ON in W2. -/
theorem endSwitch_inFlight {w : DomSwitch} {t : Nat} {s : State} (code : Nat) (hw : w.ticket = some t)
    (hflight : (ticketsOf (fun l => l == .domain w.dom w.on) s).contains t = true) :
    endSwitch w code s = completeTicket t code [w32 s.power.on.toNat] s := by
  rw [endSwitch, hw]
  exact if_pos hflight

/-- A completion switches no domain. -/
theorem completeTicket_power (t code : Nat) (ws : List Word) (s : State) :
    (completeTicket t code ws s).power = s.power := by
  unfold completeTicket
  split
  · rfl
  · split <;> rfl

/-! ### Internal SRAM (Table 05-2) -/

/-- With every domain on, any SRAM is powered and clocked out of reset. -/
theorem sramOn_allOn {d : Option Nat} {s : State} (hclk : s.power.cclk = true) (hheld : resetHeld s = false)
    (hon : s.power.on = 0xFFF) (hd : ∀ k ∈ d, k < 12) : sramOn d s = true := by
  have hbits : ∀ k < 12, (0xFFF : BitVec 12).getLsbD k = true := by decide
  cases d with
  | none => simp [sramOn, hclk, hheld]
  | some k => simpa [sramOn, domOn, hclk, hheld, hon] using hbits k (hd k rfl)

/-- The source and bit of the leaf of an uncorrectable error (Table 05-2). -/
def ueLeaf : SramUnit → Nat × Nat
  | .dma => (2, 4)
  | .cmp => (7, 2)
  | .cip => (8, 5)
  | .fmt => (10, 5)
  | .vrf => (19, 2)
  | .sup => (26, 5)

/-- The source and bit of the notice of a correction (Table 05-2). -/
def corrLeaf : CorrUnit → Nat × Nat
  | .dma => (2, 3)
  | .cmp => (7, 1)
  | .sup => (26, 4)

/-! ### The commands where their event can occur -/

/-- The first switch of the queue, with none running (R116, R118, R119, R281). -/
theorem exec_domainSwitchStart_next {w : DomSwitch} {rest : List DomSwitch} {s : State}
    (hqueue : s.power.queue = w :: rest) (hidle : s.power.switching = none) (hrun : supRuns s = true) :
    let t : State := { s with power.queue := rest }
    exec .domainSwitchStart s = .next (settle s (
      if domOn w.dom s = w.on then endSwitch w rOk t
      else if w.on = false ∧ (offAllowed w.dom t = false ∨ (w.ticket = none ∧ halfStill w.dom t = false)) then
        endSwitch w rState t
      else if w.on then { t with power.switching := some w }
      else { t with power.switching := some w, power.on := clrBit s.power.on w.dom })) := by
  intro t
  rw [exec_domainSwitchStart, execDomainSwitchStart]
  apply done_eq
  split
  · next w' rest' hqueue' _ =>
    obtain ⟨rfl, rfl⟩ := List.cons.inj (hqueue'.symm.trans hqueue)
    simp only [Option.isNone_iff_eq_none]
    exact if_neg (by rw [hrun]; decide)
  · next hother => exact (hother w rest hqueue hidle).elim

theorem exec_domainSwitchDone_running {w : DomSwitch} {s : State} (hw : s.power.switching = some w) :
    let t := if w.on then domainOn w.dom { s with power.switching := none, power.on := setBit s.power.on w.dom }
      else domainOff w.dom { s with power.switching := none }
    exec .domainSwitchDone s = .next (settle s (checkStreams (endSwitch w rOk
      (if w.ticket.isNone then setLeaf 19 0 t else t)))) := by
  intro t
  rw [exec_domainSwitchDone, execDomainSwitchDone]
  apply doneS_eq
  rw [hw]

/-- The domain stays off, its blocks halt, and the command ends with E_FAULT (R135; log 172). -/
theorem exec_pdFail_switchingOn {w : DomSwitch} {s : State} (hw : s.power.switching = some w) (hon : w.on = true) :
    let b := haltBlocks (failedBlocks w.dom) (setLeaf 23 1 { s with power.switching := none })
    exec .pdFail s = .next (settle s (endSwitch w rFault (queueFault
      { level := 2, source := 23, leaf := 1, stamp := s.tether.stamp, detail := 0, preempted := false, owes := b.1 }
      b.2))) := by
  intro b
  rw [exec_pdFail, execPdFail]
  apply done_eq
  rw [hw]
  exact if_neg (by rw [hon]; decide)

/-- A still half joins the queue of switches once (R101). -/
theorem exec_autoGateOff_still {h : Fin 2} {s : State} (hauto : s.power.autoVrf = true) (hgov : govOn s = true)
    (hon : domOn (8 + h.val) s = true) (hoff : offAllowed (8 + h.val) s = true)
    (hstill : halfStill (8 + h.val) s = true)
    (hfree : ∀ w ∈ s.power.queue ++ s.power.switching.toList, w.dom ≠ 8 + h.val) :
    exec (.autoGateOff h) s = .next (settle s (queueSwitch (8 + h.val) false none s)) := by
  have hnone : (s.power.queue ++ s.power.switching.toList).any (fun w => decide (w.dom = 8 + h.val)) = false :=
    List.any_eq_false.mpr (fun w hw => by simpa using hfree w hw)
  rw [exec_autoGateOff, execAutoGateOff]
  apply done_eq
  exact if_pos (by rw [hauto, hgov, hon, hoff, hstill, hnone]; rfl)

theorem exec_parityCheckerVisit_on {off : Nat} {flips rw : Word} {s : State} (hbits : configBits off = some rw)
    (hheld : resetHeld s = false) (hclk : s.power.cclk = true) (hon : configOn off s = true) :
    let t := upsetReg off flips rw s
    exec (.parityCheckerVisit off flips) s = .next (settle s (
      if t.regs.badParity.contains off && !t.regs.parityReported.contains off then reportParity off t else t)) := by
  intro t
  rw [exec_parityCheckerVisit, execParityCheckerVisit]
  apply done_eq
  rw [hbits]
  exact if_neg (by rw [hheld, hclk, hon]; decide)

theorem exec_recoverDone_recovering {ok : Bool} {t src : Nat} {s : State} (hrec : recovering s = some (t, src))
    (hrun : supRuns s = true) :
    exec (.recoverDone ok) s = .next (settle s (checkStreams (recovered src ok t s))) := by
  rw [exec_recoverDone, execRecoverDone]
  apply doneS_eq
  rw [hrec]
  exact if_pos hrun

/-- VRF's SRAM is on while either half is (Table 05-2). -/
theorem exec_sramUe_allOn {u : SramUnit} {s : State} (hclk : s.power.cclk = true) (hheld : resetHeld s = false)
    (hon : s.power.on = 0xFFF) :
    exec (.sramUe u) s = .next (settle s (raise4 (ueLeaf u).1 (leafCode 0 (ueLeaf u).2) s)) := by
  rw [exec_sramUe, execSramUe]
  apply done_eq
  cases u with
  | dma | cmp | cip | fmt | sup => exact if_pos (sramOn_allOn hclk hheld hon (by decide))
  | vrf => exact if_pos (by rw [sramOn_allOn hclk hheld hon (by decide)]; rfl)

theorem exec_sramCorr_allOn {u : CorrUnit} {s : State} (hclk : s.power.cclk = true) (hheld : resetHeld s = false)
    (hon : s.power.on = 0xFFF) :
    exec (.sramCorr u) s = .next (settle s (setLeaf (corrLeaf u).1 (corrLeaf u).2 s)) := by
  rw [exec_sramCorr, execSramCorr]
  apply done_eq
  cases u with
  | sup | cmp | dma => exact if_pos (sramOn_allOn hclk hheld hon (by decide))

/-- Settles O42: each clause is its command's lemma; an SRAM's leaf is shown for each unit. -/
theorem domainEventsComplete : Obligations.DomainEventsComplete := by
  refine ⟨fun _ _ _ hqueue hidle hrun => exec_domainSwitchStart_next hqueue hidle hrun,
    fun _ _ hw => exec_domainSwitchDone_running hw,
    fun _ _ hw hon => exec_pdFail_switchingOn hw hon,
    fun _ _ hauto hgov hon hoff hstill hfree => exec_autoGateOff_still hauto hgov hon hoff hstill hfree,
    fun _ _ _ _ hbits hheld hclk hon => exec_parityCheckerVisit_on hbits hheld hclk hon,
    fun _ _ _ _ hrec hrun => exec_recoverDone_recovering hrec hrun,
    fun u _ hclk hheld hon => ?uncorrectable,
    fun u _ hclk hheld hon => ?corrected⟩
  case uncorrectable =>
    rw [exec_sramUe_allOn hclk hheld hon]
    cases u <;> rfl
  case corrected =>
    rw [exec_sramCorr_allOn hclk hheld hon]
    cases u <;> rfl

/-- Settles O43: the switch ends its command at once, and a completion changes no domain (R119). -/
theorem switchToTheSameStateChangesNothing : Obligations.SwitchToTheSameStateChangesNothing := by
  intro d t on rest s hqueue hidle hrun hsame hflight
  refine ⟨?_, completeTicket_power t rOk _ _⟩
  rw [exec_domainSwitchStart_next hqueue hidle hrun]
  dsimp only
  rw [if_pos hsame, endSwitch_inFlight rOk rfl hflight]

end Sys2Proof.Machine
end

section
/-!
PROOFS. The PCIe link: link-up, hot reset, configuration writes, correctable and fatal errors (R126, R127, R209, R291 to R293,
R307, R318, R327, R334, R335, R337, R704).
-/
namespace Sys2Proof.Machine
open Sys2Proof

/-! ### The meaning of each command -/

theorem exec_pcieLinkUp (speed : Nat) (lanes : LinkLanes) (s : State) :
    exec (.pcieLinkUp speed lanes) s = execPcieLinkUp speed lanes s := rfl

theorem exec_hotReset (down : Bool) (s : State) : exec (.hotReset down) s = execHotReset down s := rfl

theorem exec_configSpaceWrite (w : CfgWrite) (s : State) :
    exec (.configSpaceWrite w) s = execConfigSpaceWrite w s := rfl

theorem exec_aerCorr (s : State) : exec .aerCorr s = execAerCorr s := rfl

theorem exec_aerFatal (detail : BitVec 16) (s : State) : exec (.aerFatal detail) s = execAerFatal detail s := rfl

/-! ### The reset and the header -/

/-- What a reset of the controller leaves of PCIe, the DMA engine and MSI-X (R126, R127, R337). -/
theorem pcieReset_parts (up : Bool) (s : State) :
    (pcieReset up s).pcie = { cfgUp := up } ∧
    (pcieReset up s).dma = { enabled := (pcieReset up s).dma.enabled, errInfo := 0 } ∧
    (pcieReset up s).irq.msixPending = false := by
  simp only [pcieReset, and_self]

/-- What a configuration write changes: what paused goes on, and a size code that is not supported is not taken (R209, R291,
R293, R307, R327; log 179). -/
def takeConfig (w : CfgWrite) (s : State) : State :=
  match w with
  | .bme b => resumeStreams { s with pcie.bme := b }
  | .d3 b => resumeStreams { s with pcie.d3 := b }
  | .devCtl mps mrrs ro ns tag10 => { s with
      pcie.mps := if mps.toNat ≤ 2 then mps else s.pcie.mps, pcie.mrrs := if mrrs.toNat ≤ 5 then mrrs else s.pcie.mrrs
      pcie.roEn := ro, pcie.nsEn := ns, pcie.tag10 := tag10 }
  | .msix en fn => { s with pcie.msixEnable := en, pcie.msixFnMask := fn }
  | .bar r v => writeBar r v s

/-- The IDs, the class, the BARs and the subsystem IDs (R292, R293). -/
theorem configHeader_words (s : State) :
    configHeader 0x00 s = some 0x48124E48 ∧ configHeader 0x08 s = some 0x01800020 ∧
    configHeader 0x10 s = some s.pcie.bar0 ∧ configHeader 0x14 s = some 0 ∧
    configHeader 0x2C s = some 0x00014E48 := ⟨rfl, rfl, rfl, rfl, rfl⟩

/-! ### The commands where their event can occur -/

theorem exec_pcieLinkUp_trained {speed width : Nat} {inv : BitVec 16} {s : State} (hup : hostUp s = true)
    (hlo : 1 ≤ speed) (hhi : speed ≤ 5) (hwidth : width ∈ ([1, 2, 4, 8, 16] : List Nat)) :
    let u := (List.range 16).foldl (fun s i => setInverted (112 + i) (inv.getLsbD i) s) s
    let t : State := { u with
      pcie.speed := BitVec.ofNat 4 speed, pcie.width := BitVec.ofNat 5 width, power.pll := setBit u.power.pll 1 }
    exec (.pcieLinkUp speed { width := width, inverted := inv }) s =
      .next (settle s (if speed < 5 ∨ width < 16 then setLeaf 1 1 t else t)) := by
  intro u t
  have hspeed : ¬(speed < 1 ∨ 5 < speed) := by omega
  rw [exec_pcieLinkUp, execPcieLinkUp]
  apply done_eq
  exact if_neg (by rw [hup, decide_eq_false hspeed, List.contains_eq_mem, decide_eq_true hwidth]; decide)

theorem exec_hotReset_up {down : Bool} {s : State} (hup : hostUp s = true) :
    exec (.hotReset down) s = .next (settle s (setLeaf 1 0 (pcieReset true s))) := by
  rw [exec_hotReset, execHotReset]
  exact done_if hup

theorem exec_configSpaceWrite_up {w : CfgWrite} {s : State} (hup : hostUp s = true) :
    exec (.configSpaceWrite w) s = .next (settle s (takeConfig w s)) := by
  rw [exec_configSpaceWrite, execConfigSpaceWrite]
  apply done_eq
  exact if_neg (by rw [hup]; decide)

theorem exec_aerCorr_up {s : State} (hup : hostUp s = true) :
    exec .aerCorr s = .next (settle s (setLeaf 1 5 (count 0x8210 1 s))) := by
  rw [exec_aerCorr, execAerCorr]
  exact done_if hup

theorem exec_aerFatal_up {detail : BitVec 16} {s : State} (hup : hostUp s = true) :
    exec (.aerFatal detail) s = .next (settle s (raise2 1 (leafCode 0 6) 1 0 s)) := by
  rw [exec_aerFatal, execAerFatal]
  exact done_if hup

/-- Settles O49: each clause is its command's lemma, the controller being up. -/
theorem pcieLinkEventsComplete : Obligations.PcieLinkEventsComplete :=
  ⟨fun _ _ _ _ hup hlo hhi hwidth => exec_pcieLinkUp_trained hup hlo hhi hwidth,
   fun _ _ hup => exec_hotReset_up hup,
   pcieReset_parts true,
   fun _ _ hup => ⟨exec_configSpaceWrite_up hup, exec_configSpaceWrite_up hup⟩,
   fun _ _ _ _ _ _ hup => exec_configSpaceWrite_up hup,
   fun _ _ _ hup => exec_configSpaceWrite_up hup,
   fun _ _ hup => ⟨exec_configSpaceWrite_up hup, exec_configSpaceWrite_up hup⟩,
   configHeader_words,
   fun _ hup => exec_aerCorr_up hup,
   fun _ _ hup => exec_aerFatal_up hup⟩

end Sys2Proof.Machine
end

section
/-!
PROOFS. What follows from any command: control messages and reads that go out, wide-value generations, the RoCE hold, the
attention condition and its message (R188, R207, R208, R209, R210, R219, R327, R364, R373, R572).
-/
namespace Sys2Proof.Machine
open Sys2Proof

/-! ### Control messages (R572; log 165) -/

/-- A message that goes out leaves every waiting list as it was. -/
theorem emitCtl_ctlq (n k : Trn) (m : Nat × Nat × List Nat) (s : State) :
    (emitCtl n m s).trn[k].ctlq = s.trn[k].ctlq := by
  simp only [emitCtl, modTrn_trn, emit_trn, upd_get]
  split <;> rfl

/-- The messages that wait for one role go out, and no others. -/
theorem drainCtl_ctlq (n k : Trn) (s : State) :
    (drainCtl n s).trn[k].ctlq = if n = k then [] else s.trn[k].ctlq := by
  unfold drainCtl
  split
  · rename_i hnone
    split
    · rename_i hnk
      rw [← hnk, hnone]
    · rfl
  · refine foldl_keeps (fun t : State => t.trn[k].ctlq = if n = k then [] else s.trn[k].ctlq) _
      (fun t m ht => (emitCtl_ctlq n k m t).trans ht) _ _ ?_
    simp only [modTrn_trn, upd_get]
    split <;> rfl

theorem foldl_drainCtl_ctlq (ns : List Trn) (k : Trn) (s : State) :
    (ns.foldl (fun s n => drainCtl n s) s).trn[k].ctlq = if k ∈ ns then [] else s.trn[k].ctlq := by
  induction ns generalizing s with
  | nil => simp
  | cons n ns ih =>
    rw [List.foldl_cons, ih, drainCtl_ctlq]
    by_cases hin : k ∈ ns
    · simp [hin]
    · simp [hin, eq_comm]

/-- Once all roles have sent, no message waits. -/
theorem drainAll_ctlq (s : State) (n : Trn) : (drainAll s).trn[n].ctlq = [] := by
  rw [drainAll, foldl_drainCtl_ctlq]
  exact if_pos (List.mem_finRange n)

theorem drainCtl_of_none {n : Trn} {s : State} (h : s.trn[n].ctlq = []) : drainCtl n s = s := by
  rw [drainCtl, h]

theorem drainAll_of_none {s : State} (h : ∀ n : Trn, s.trn[n].ctlq = []) : drainAll s = s :=
  foldl_keeps (fun t => t = s) _ (fun t n ht => by rw [ht, drainCtl_of_none (h n)]) allTrn s rfl

/-! ### Reads (R327) -/

theorem issueReads_of_barred {s : State} (h : pcieIssues s = false) : issueReads s = s := by
  rw [issueReads, h]
  rfl

/-! ### Wide-value generations (R188) -/

theorem settleWide_of_unchanged {s t : State}
    (h : ∀ k ∈ ([0x01, 0x02, 0x10, 0x11, 0x20] : List Nat), itemChanged k s t = false) : settleWide s t = t := by
  simp only [List.forall_mem_cons] at h
  obtain ⟨h01, h02, h10, h11, h20, -⟩ := h
  simp only [settleWide, List.foldl_cons, List.foldl_nil, h01, h02, h10, h11, h20, Bool.false_eq_true, if_false, ite_self]

/-! ### The RoCE hold (R364, R373) -/

/-- `v` is `t` with the hold brought up to date: a hold that begins sets its leaf, one that ends lets buffers be posted. -/
structure HoldSettled (t v : State) : Prop where
  frame : v = { t with irq.cause := v.irq.cause, net := v.net, ing := v.ing }
  cause : v.irq.cause =
    if holdInForce t && !t.net.held then (setLeaf 5 1 { t with net.held := true }).irq.cause else t.irq.cause
  stands : holdInForce t = t.net.held → v.net = t.net ∧ v.ing = t.ing
  inForce : holdInForce t = true → v.net = { t.net with held := true } ∧ v.ing = t.ing
  ports : ∀ p : Port, portSame t.net.port[p] v.net.port[p]
  streams : { v.ing with stream := t.ing.stream } = t.ing ∧ ∀ i : Strm, streamSame t.ing.stream[i] v.ing.stream[i]

/-- The hold stands as it should. -/
theorem HoldSettled.of_standing {t : State} (h : holdInForce t = t.net.held) : HoldSettled t t where
  frame := rfl
  cause := by rw [h, Bool.and_not_self]; rfl
  stands _ := ⟨rfl, rfl⟩
  inForce hforce := by rw [← h.symm.trans hforce]; exact ⟨rfl, rfl⟩
  ports _ := portSame_refl _
  streams := ⟨rfl, fun _ => rfl⟩

/-- A hold begins. -/
theorem HoldSettled.of_beginning {t : State} (hforce : holdInForce t = true) (hheld : t.net.held = false) :
    HoldSettled t (setLeaf 5 1 { t with net.held := true }) where
  frame := rfl
  cause := by rw [hforce, hheld]; rfl
  stands h := absurd (hforce.symm.trans (h.trans hheld)) (by decide)
  inForce _ := ⟨rfl, rfl⟩
  ports _ := portSame_refl _
  streams := ⟨rfl, fun _ => rfl⟩

/-- A hold ends. -/
theorem HoldSettled.of_ending {t : State} (hforce : holdInForce t = false) (hheld : t.net.held = true) :
    HoldSettled t (postBuffers { t with net.held := false }) := by
  obtain ⟨hframe, hports, hstreams⟩ := postBuffers_frame { t with net.held := false }
  exact {
    frame := by rw [hframe]
    cause := by rw [hframe, hforce]; rfl
    stands := fun h => absurd (hforce.symm.trans (h.trans hheld)) (by decide)
    inForce := fun h => absurd (hforce.symm.trans h) (by decide)
    ports := hports
    streams := ⟨by rw [hframe], hstreams⟩ }

theorem settleHold_settled (t : State) : HoldSettled t (settleHold t) := by
  unfold settleHold
  cases hforce : holdInForce t <;> cases hheld : t.net.held
  · exact .of_standing (hforce.trans hheld.symm)
  · exact .of_ending hforce hheld
  · exact .of_beginning hforce hheld
  · exact .of_standing (hforce.trans hheld.symm)

/-! ### The attention condition and its message (R207 to R210, R219) -/

/-- The pin and the message follow attention; a message goes only where it may. -/
theorem settleIrq_eq (s : State) : ∃ out pending due runs,
    settleIrq s = { s with out := out, irq := { s.irq with
      attention := attentionNow s, intN := attentionNow s && !s.irq.pinOff && !s.irq.eoiRelease,
      msixPending := pending, msixDue := due, holdoffRuns := runs } } ∧
    (out = s.out ∨ (out = .msix :: s.out ∧ attentionNow s = true ∧ msixAllowed s = true ∧ s.irq.holdoffRuns = false)) := by
  unfold settleIrq
  dsimp only
  split
  · rename_i hcall
    have hattention : attentionNow s = true := (Bool.and_eq_true_iff.mp hcall).1
    rcases callMsix_cases _ with ⟨-, h⟩ | ⟨-, -, h⟩ | ⟨hallowed, hfree, h⟩
    · rw [h]
      exact ⟨_, _, _, _, rfl, .inl rfl⟩
    · rw [h]
      exact ⟨_, _, _, _, rfl, .inl rfl⟩
    · rw [h]
      exact ⟨_, _, _, _, rfl, .inr ⟨rfl, hattention, hallowed, hfree⟩⟩
  · exact ⟨_, _, _, _, rfl, .inl rfl⟩

/-- The pin, the message and what has gone out are no part of the attention condition. -/
theorem attentionNow_outputs (s : State) (out : List Out) (attention intN pending due runs : Bool) :
    attentionNow { s with out := out, irq := { s.irq with
      attention := attention, intN := intN, msixPending := pending, msixDue := due, holdoffRuns := runs } } =
    attentionNow s := by
  simp only [attentionNow, summary, summaryBit, causeView, statusBits]
  rfl

/-! ### All of it -/

/-- What brings the outputs up to date, in its order: generations, the hold, the attention condition. -/
theorem settle_parts (s t' : State) : ∃ gen v out pending due runs,
    settleWide s (issueReads (drainAll t')) = { issueReads (drainAll t') with regs.wv.gen := gen } ∧
    HoldSettled { issueReads (drainAll t') with regs.wv.gen := gen } v ∧
    settle s t' = { v with out := out, irq := { v.irq with
      attention := attentionNow v, intN := attentionNow v && !v.irq.pinOff && !v.irq.eoiRelease,
      msixPending := pending, msixDue := due, holdoffRuns := runs } } ∧
    (out = v.out ∨ (out = .msix :: v.out ∧ attentionNow v = true ∧ msixAllowed v = true ∧ v.irq.holdoffRuns = false)) := by
  obtain ⟨out, pending, due, runs, hirq, hout⟩ := settleIrq_eq (settleHold (settleWide s (issueReads (drainAll t'))))
  have hwide := settleWide_gen s (issueReads (drainAll t'))
  have hhold := settleHold_settled (settleWide s (issueReads (drainAll t')))
  refine ⟨_, _, out, pending, due, runs, hwide, ?_, hirq, hout⟩
  rw [← show settleWide s (issueReads (drainAll t')) = _ from hwide]
  exact hhold

/-- Settles O5: messages and reads go out first; the rest is what the generations, the hold and the attention condition
change, each by its own lemma. -/
theorem whatFollowsFromAnyCommand : Obligations.WhatFollowsFromAnyCommand := by
  refine ⟨drainAll_ctlq, fun _ h => drainAll_of_none h, fun _ h => issueReads_of_barred h, fun s t' => ?_⟩
  obtain ⟨gen, v, out, pending, due, runs, hwide, hhold, hsettle, hout⟩ := settle_parts s t'
  dsimp only
  generalize issueReads (drainAll t') = t at hwide hhold ⊢
  generalize settle s t' = u at hsettle ⊢
  have hv : v = { t with regs.wv.gen := gen, irq.cause := v.irq.cause, net := v.net, ing := v.ing } := hhold.frame
  have hattention : attentionNow u = attentionNow v := by rw [hsettle, attentionNow_outputs]
  refine ⟨?frame, ?message, ?irq, ?stands, ?inForce, ?ports, ?ing, ?streams, ?regs⟩
  case frame => rw [hsettle, hv]
  case message =>
    have hvout : v.out = t.out := by rw [hv]
    have hvallowed : msixAllowed v = msixAllowed t := by rw [hv]; rfl
    have hvfree : v.irq.holdoffRuns = t.irq.holdoffRuns := by rw [hv]
    rw [hsettle, ← hvout, ← hvallowed, ← hvfree]
    exact hout
  case irq =>
    have hvirq : v.irq = { t.irq with cause := v.irq.cause } := by rw [hv]
    have hcause : v.irq.cause =
        if holdInForce t && !t.net.held then (setLeaf 5 1 { t with net.held := true }).irq.cause else t.irq.cause :=
      hhold.cause
    rw [hattention, ← hcause, hsettle, hvirq]
  case stands => rw [hsettle]; exact hhold.stands
  case inForce => rw [hsettle]; exact hhold.inForce
  case ports => rw [hsettle]; exact hhold.ports
  case ing => rw [hsettle]; exact hhold.streams.1
  case streams => rw [hsettle]; exact hhold.streams.2
  case regs =>
    intro hsame
    have hgen : t = { t with regs.wv.gen := gen } := (settleWide_of_unchanged hsame).symm.trans hwide
    rw [hsettle, hv]
    exact (congrArg State.regs hgen).symm

end Sys2Proof.Machine
end

section
/-!
PROOFS. The shadows of the counters' high bits (R181 to R183).
-/
namespace Sys2Proof.Machine
open Sys2Proof Sys2Proof.Claims

/-! ### What a command's end leaves of registers and supplies -/

/-- Messages and reads that go out touch transports, the DMA engine and streams. -/
def Outgoing (s t : State) : Prop :=
  ∃ trn dma ing out, t = { s with trn := trn, dma := dma, ing := ing, out := out }

theorem Outgoing.refl (s : State) : Outgoing s s := ⟨_, _, _, _, rfl⟩

theorem Outgoing.trans {s t u : State} (h : Outgoing s t) (k : Outgoing t u) : Outgoing s u := by
  obtain ⟨_, _, _, _, rfl⟩ := h
  obtain ⟨_, _, _, _, rfl⟩ := k
  exact ⟨_, _, _, _, rfl⟩

/-- What every step of a fold sends, the fold sends. -/
theorem Outgoing.foldl {α : Type} {f : State → α → State} (hf : ∀ s a, Outgoing s (f s a)) (as : List α) (s : State) :
    Outgoing s (as.foldl f s) :=
  foldl_keeps (fun t => Outgoing s t) f (fun t a h => h.trans (hf t a)) as s (.refl s)

theorem emit_outgoing (o : Out) (s : State) : Outgoing s (emit o s) := ⟨_, _, _, _, rfl⟩

theorem drainCtl_outgoing (n : Trn) (s : State) : Outgoing s (drainCtl n s) := by
  unfold drainCtl
  split
  · exact .refl s
  · exact Outgoing.trans ⟨_, _, _, _, rfl⟩ (.foldl (fun _ _ => ⟨_, _, _, _, rfl⟩) _ _)

theorem issuePayloads_outgoing (i : Strm) (s : State) : Outgoing s (issuePayloads i s) := by
  unfold issuePayloads
  dsimp only
  split
  · exact .refl s
  · exact Outgoing.trans ⟨_, _, _, _, rfl⟩ (.foldl (fun s p => emit_outgoing _ s) _ _)

theorem issueChan_outgoing (c : Fin 8) (s : State) : Outgoing s (issueChan c s) := by
  unfold issueChan
  dsimp only
  split
  · exact ⟨_, _, _, _, rfl⟩
  · split
    · split
      · exact .refl s
      · exact ⟨_, _, _, _, rfl⟩
    · exact .refl s

theorem issueSq_outgoing (s : State) : Outgoing s (issueSq s) := by
  unfold issueSq
  split
  · exact .refl s
  · split
    · exact .refl s
    · exact ⟨_, _, _, _, rfl⟩

theorem issueReads_outgoing (s : State) : Outgoing s (issueReads s) := by
  unfold issueReads
  split
  · exact .refl s
  · exact ((Outgoing.foldl (fun s i => issuePayloads_outgoing i s) _ s).trans
      (.foldl (fun s c => issueChan_outgoing c s) _ _)).trans (issueSq_outgoing _)

theorem drainAll_outgoing (s : State) : Outgoing s (drainAll s) := .foldl (fun s n => drainCtl_outgoing n s) allTrn s

/-- What follows from any command leaves the registers but for generations, and the supplies. -/
theorem settle_registers (s t : State) :
    ∃ gen, (settle s t).regs = { t.regs with wv.gen := gen } ∧ (settle s t).power = t.power := by
  obtain ⟨-, -, -, hfollows⟩ := whatFollowsFromAnyCommand
  obtain ⟨hframe, -⟩ := hfollows s t
  obtain ⟨_, _, _, _, hsent⟩ := (drainAll_outgoing t).trans (issueReads_outgoing _)
  refine ⟨(settle s t).regs.wv.gen, ?_, ?_⟩ <;> rw [hframe, hsent]

theorem shadowsOf_settle (o : Origin) (s t : State) : shadowsOf o (settle s t) = shadowsOf o t := by
  obtain ⟨gen, hregs, -⟩ := settle_registers s t
  cases o <;> simp only [shadowsOf, hregs]

theorem settle_power (s t : State) : (settle s t).power = t.power := by
  obtain ⟨_, -, hpower⟩ := settle_registers s t
  exact hpower

/-! ### Powered counters (R156, R183) -/

theorem counterOn_congr {off : Nat} {s t : State} (h : t.power = s.power) : counterOn off t = counterOn off s := by
  simp only [counterOn, srcOn, domOn, h]

/-- A counter without power reads zero. -/
theorem counterValue_of_unpowered {off : Nat} {s : State} (h : counterOn off s = false) : counterValue off s = 0 := by
  have hcycle : off ≠ 0x8D00 := fun e => by
    rw [e] at h
    exact absurd h Bool.true_eq_false.mp
  rw [counterValue, if_neg hcycle, h]
  rfl

/-! ### A counter's high word (R182) -/

/-- The high word of a powered counter shows the reading origin's shadow. -/
theorem bar0View_counterHigh {o : Origin} {off : Nat} {s : State} (hcounter : isCounter off = true) (hlow : off % 8 = 0) :
    bar0View o (off + 4) s =
      if counterOn off s = true then BitVec.ofNat 32 (spGet 0 (shadowsOf o s) off).toNat else 0 := by
  have habove := isCounter_above hcounter
  have hbelow : off < 0xBFFC := by
    simp only [isCounter, counterTable, List.any_cons, List.any_nil, Bool.or_false, Bool.or_eq_true,
      decide_eq_true_eq] at hcounter
    omega
  unfold bar0View
  rw [if_neg (by omega), if_neg (by omega), if_neg (by omega), if_neg (by omega), if_neg (by omega), if_neg (by omega),
    if_neg (by omega), if_neg (by omega), if_pos (by omega), if_neg (by omega), Nat.add_sub_cancel]
  cases counterOn off s <;> rfl

/-- The high word shows the same where the supplies and the origin's shadow are the same. -/
theorem bar0View_counterHigh_congr {o : Origin} {off : Nat} {s t : State} (hcounter : isCounter off = true)
    (hlow : off % 8 = 0) (hpower : t.power = s.power)
    (hshadow : spGet 0 (shadowsOf o t) off = spGet 0 (shadowsOf o s) off) :
    bar0View o (off + 4) t = bar0View o (off + 4) s := by
  rw [bar0View_counterHigh hcounter hlow, bar0View_counterHigh hcounter hlow, counterOn_congr hpower, hshadow]

/-- Bits 47 to 32 of a counter, as a word. -/
theorem highBits_eq (v : BitVec 48) :
    BitVec.ofNat 32 ((v >>> 32).truncate 16).toNat = BitVec.ofNat 32 (v.toNat / 2 ^ 32) := by
  have hlt : v.toNat / 2 ^ 32 < 2 ^ 16 := Nat.div_lt_of_lt_mul v.isLt
  rw [BitVec.truncate_eq_setWidth, BitVec.toNat_setWidth, BitVec.toNat_ushiftRight, Nat.shiftRight_eq_div_pow,
    Nat.mod_eq_of_lt hlt]

/-! ### What a read of the low word latches -/

/-- The counter's shadow of the reading origin takes bits 47 to 32; every other shadow stays. -/
theorem spGet_shadowsOf_latchShadow (o o' : Origin) (off k : Nat) (s : State) :
    spGet 0 (shadowsOf o' (latchShadow o off s)) k =
      if o' = o ∧ k = off then (counterValue off s >>> 32).truncate 16 else spGet 0 (shadowsOf o' s) k := by
  by_cases ho : o' = o
  · subst ho
    cases o' <;> simp only [latchShadow, shadowsOf, spGet_spSet, true_and]
  · have hother : shadowsOf o' (latchShadow o off s) = shadowsOf o' s := by
      cases o <;> cases o' <;> simp [latchShadow, shadowsOf] at ho ⊢
    rw [hother, if_neg (fun h => ho h.1)]

theorem latchShadow_power (o : Origin) (off : Nat) (s : State) : (latchShadow o off s).power = s.power := by
  cases o <;> rfl

/-- A value that goes out leaves registers, stamp and supplies as they were. -/
theorem shown_parts (o : Origin) (off : Nat) (s : State) :
    (shown o off s).regs = s.regs ∧ (shown o off s).tether = s.tether ∧ (shown o off s).power = s.power := by
  cases o <;> exact ⟨rfl, rfl, rfl⟩

theorem shadowsOf_shown (o o' : Origin) (off : Nat) (s : State) : shadowsOf o' (shown o off s) = shadowsOf o' s := by
  obtain ⟨hregs, -, -⟩ := shown_parts o off s
  cases o' <;> simp only [shadowsOf, hregs]

theorem counterValue_shown (o : Origin) (off k : Nat) (s : State) :
    counterValue k (shown o off s) = counterValue k s := by
  obtain ⟨hregs, htether, hpower⟩ := shown_parts o off s
  simp only [counterValue, counter, counterOn_congr hpower, hregs, htether]

/-- The state after a read of a counter's low word. -/
def afterLowRead (o : Origin) (off : Nat) (s : State) : State := settle s (latchShadow o off (shown o off s))

theorem afterLowRead_power (o : Origin) (off : Nat) (s : State) : (afterLowRead o off s).power = s.power := by
  obtain ⟨-, -, hpower⟩ := shown_parts o off s
  rw [afterLowRead, settle_power, latchShadow_power, hpower]

theorem afterLowRead_shadow (o o' : Origin) (off k : Nat) (s : State) :
    spGet 0 (shadowsOf o' (afterLowRead o off s)) k =
      if o' = o ∧ k = off then (counterValue off s >>> 32).truncate 16 else spGet 0 (shadowsOf o' s) k := by
  rw [afterLowRead, shadowsOf_settle, spGet_shadowsOf_latchShadow, counterValue_shown, shadowsOf_shown]

/-- The reading origin's high word then shows the bits that the counter had. -/
theorem bar0View_afterLowRead {o : Origin} {off : Nat} {s : State} (hcounter : isCounter off = true)
    (hlow : off % 8 = 0) :
    bar0View o (off + 4) (afterLowRead o off s) = BitVec.ofNat 32 ((counterValue off s).toNat / 2 ^ 32) := by
  rw [bar0View_counterHigh hcounter hlow, counterOn_congr (afterLowRead_power o off s), afterLowRead_shadow,
    if_pos (And.intro rfl rfl : o = o ∧ off = off), highBits_eq]
  cases hon : counterOn off s with
  | true => rfl
  | false => rw [counterValue_of_unpowered hon]; rfl

/-! ### Resets of counters and their shadows (R182, R183) -/

theorem shadowsOf_reset (o : Origin) : shadowsOf o State.reset = [] := by cases o <;> rfl

theorem shadowsOf_dropCounters (o : Origin) (lo hi : Nat) (s : State) :
    shadowsOf o (dropCounters lo hi s) = spDrop (fun k => decide (lo ≤ k ∧ k < hi)) (shadowsOf o s) := by
  cases o <;> rfl

/-- An empty shadow shows zero. -/
theorem bar0View_counterHigh_zero {o : Origin} {off : Nat} {s : State} (hcounter : isCounter off = true)
    (hlow : off % 8 = 0) (hshadow : spGet 0 (shadowsOf o s) off = 0) : bar0View o (off + 4) s = 0 := by
  rw [bar0View_counterHigh hcounter hlow, hshadow]
  exact ite_self _

/-- Settles O9: the read latches one shadow, later counting touches none, and both resets empty them. -/
theorem counterShadowHoldsTheHighBits : Obligations.CounterShadowHoldsTheHighBits := by
  refine ⟨fun o off s hup himpl hcounter hlow => ⟨afterLowRead o off s,
      exec_counterLoRead_latched hup himpl hcounter hlow, bar0View_afterLowRead hcounter hlow,
      fun _ _ => bar0View_counterHigh_congr hcounter hlow rfl ?counted,
      fun o' k hk hklow hother => bar0View_counterHigh_congr hk hklow (afterLowRead_power o off s) ?others⟩,
    fun o off hcounter hlow => bar0View_counterHigh_zero hcounter hlow ?reset,
    fun o lo hi off s hcounter hlow hlo hhi => bar0View_counterHigh_zero hcounter hlow ?dropped⟩
  case counted => cases o <;> rfl
  case others =>
    rw [afterLowRead_shadow, if_neg]
    rintro ⟨ho, hoff⟩
    exact hother.elim (fun h => h ho) (fun h => h hoff)
  case reset => rw [shadowsOf_reset]; rfl
  case dropped => rw [shadowsOf_dropCounters, spGet_spDrop, if_pos (decide_eq_true ⟨hlo, hhi⟩)]

end Sys2Proof.Machine
end

section
/-!
PROOFS. Mailbox, doorbell and ticket registers, the heartbeat, and the delay of SYS.RESET (R154, R193, R242 to R244, R255,
R259, R260, R277, R278, R282).
-/
namespace Sys2Proof.Machine
open Sys2Proof Sys2Proof.Claims

/-! ### The meaning of each command -/

theorem exec_mbxGo (o : Origin) (c : Chan) (v : Word) (s : State) : exec (.mbxGo o c v) s = execMbxGo o c v s := rfl

theorem exec_mbxWriteWhileFull (c : Chan) (r : Fin 18) (v : Word) (s : State) :
    exec (.mbxWriteWhileFull c r v) s = execMbxWriteWhileFull c r v s := rfl

theorem exec_mbxStatRead (o : Origin) (c : Chan) (s : State) : exec (.mbxStatRead o c) s = execMbxStatRead o c s := rfl

theorem exec_cqDoneRelease (o : Origin) (k : Fin 2) (v : Word) (s : State) :
    exec (.cqDoneRelease o k v) s = execCqDoneRelease o k v s := rfl

theorem exec_dbStatClear (o : Origin) (v : Word) (s : State) : exec (.dbStatClear o v) s = execDbStatClear o v s := rfl

theorem exec_nackedClear (o : Origin) (s : State) : exec (.nackedClear o) s = execNackedClear o s := rfl

theorem exec_heartbeat (s : State) : exec .heartbeat s = execHeartbeat s := rfl

theorem exec_sysResetDelayExpiry (s : State) : exec .sysResetDelayExpiry s = execSysResetDelayExpiry s := rfl

/-! ### Array elements -/

theorem getN_fin {α : Type} {n : Nat} (v : Vector α n) (i : Fin n) (d : α) : getN v i.val d = v[i] := by
  rw [getN, dif_pos i.isLt]
  rfl

theorem updN_fin {α : Type} {n : Nat} (v : Vector α n) (i : Fin n) (f : α → α) : updN v i.val f = upd v i f := by
  rw [updN, dif_pos i.isLt]
  rfl

theorem useModule_mbx (o : Origin) (s : State) : (useModule o s).mbx = s.mbx := by
  unfold useModule
  split <;> rfl

/-! ### The registers of a channel (Tables 06-15 to 06-18) -/

/-- The BAR0 offset is that of register `r` of channel `c`. -/
structure ChanReg (off : Nat) (c : Chan) (r : Nat) : Prop where
  chan : (off - 0x1000) / 0x100 = c.val
  reg : off % 0x100 = r
  low : 0x1000 ≤ off
  high : off < 0x1A00

theorem ChanReg.of_eq {off : Nat} {c : Chan} {r : Nat} (h : off = 0x1000 + 0x100 * c.val + r) (hr : r < 0x100) :
    ChanReg off c r := by
  constructor <;> omega

section
variable {off : Nat} {c : Chan} {r : Nat} (h : ChanReg off c r)
include h

/-- Each channel has the registers at 0x00 to 0x48. -/
theorem ChanReg.implemented (hr : r < 0x4C) (halign : r % 4 = 0) : implemented off = true := by
  obtain ⟨-, hreg, hlow, hhigh⟩ := h
  have halign' : off % 4 = 0 := by omega
  simp only [Machine.implemented, halign', hlow, hhigh, hreg, hr, and_self, decide_true, Bool.and_true,
    Bool.or_true, Bool.true_or]

theorem ChanReg.not_counter : ¬isCounter off = true := fun hcounter => by
  have := isCounter_above hcounter
  have := h.high
  omega

theorem ChanReg.storeReg (o : Origin) (v : Word) (s : State) : storeReg o off v s = writeChan c r v s := by
  obtain ⟨hchan, hreg, hlow, hhigh⟩ := h
  unfold Machine.storeReg
  rw [if_neg (by omega), if_pos (by omega), dif_pos (by rw [hchan]; exact c.isLt), hreg]
  congr 1
  exact Fin.ext hchan

/-- Over PCIe a read of MBX_n_STAT clears TAKEN, DONE and CA; over another port it clears nothing (R154). -/
theorem ChanReg.bar0Effect (hstat : r = 0x44) (o : Origin) (s : State) : bar0Effect o off s =
    if o = .pcie then modChan c (fun k => { k with taken := false, done := false, ca := false }) s else s := by
  subst hstat
  have hcounter := h.not_counter
  obtain ⟨hchan, hreg, hlow, hhigh⟩ := h
  have hwindow : off ≠ 0x104 := by omega
  have hwide : off ≠ 0x13C := by omega
  simp only [Machine.bar0Effect, hcounter, hwindow, hwide, hlow, hhigh, hreg, hchan, updN_fin, Bool.false_and,
    Bool.false_eq_true, false_and, and_self, if_false, if_true, ite_not]
  rfl

/-- A read of MBX_n_STAT shows its fields (Table 06-17). -/
theorem ChanReg.bar0View (hstat : r = 0x44) (o : Origin) (s : State) : bar0View o off s = mbxStat s.mbx.chan[c] := by
  subst hstat
  obtain ⟨hchan, hreg, hlow, hhigh⟩ := h
  unfold Machine.bar0View
  rw [if_neg (by omega), if_pos (by omega), hchan, hreg, Vector.getElem?_eq_getElem c.isLt]
  rfl

/-- A full channel refuses its origin's writes of its message and CTRL words, and MBX_8 all of them (R243, R244). -/
theorem ChanReg.writeRefused_full {s : State} (hr : r < 0x4C) (halign : r % 4 = 0) (hword : r < 0x44 ∨ c.val = 8)
    (hfull : s.mbx.chan[c].full = true) : writeRefused (chanOrigin c.val) off s = some (.full c.val) := by
  have himpl := h.implemented hr halign
  obtain ⟨hchan, hreg, hlow, hhigh⟩ := h
  by_cases h8 : c.val = 8
  · have hc : c = 8 := Fin.ext h8
    subst hc
    exact if_pos ⟨rfl, by omega, by omega, hfull⟩
  · have hown : ¬(chanOrigin c.val = .i2c ∧ 0x1800 ≤ off ∧ off < 0x1900 ∧ s.mbx.chan[8].full = true) := by omega
    have hwindow : ¬((off = 0x100 ∨ off = 0x104 ∨ off = 0x10C) ∧ (winOf (chanOrigin c.val) s).busy = true) := by omega
    rw [writeRefused, if_neg hown, if_neg (by rw [himpl]; decide), if_neg hwindow, if_pos (by omega)]
    simp only [hchan, getN_fin, hfull, ne_eq, not_true_eq_false, if_false, if_true]

end

/-! ### What a write does to its register -/

/-- GO makes the channel FULL once firmware is up and nothing else is promised; else it is answered at once (R242, R277,
R278). -/
theorem writeChan_go {c : Chan} {v : Word} {s : State} (hgo : v.getLsbD 0 = true) :
    writeChan c 0x40 v s = modChan c (fun k =>
      if fwUp s && !s.mbx.resetDue && !s.power.standbyAcked then { k with full := true }
      else { k with ack := pack [(24, field k.msg[0] 16 8), (0, rBusy)], done := true }) s := by
  rw [show writeChan c 0x40 v s = go c s from if_pos hgo, go]
  cases fwUp s <;> cases s.mbx.resetDue <;> cases s.power.standbyAcked <;> rfl

theorem storeReg_cqDone (o : Origin) (k : Fin 2) (v : Word) (s : State) :
    storeReg o (0x2008 + 4 * k.val) v s = releaseTickets k.val v s := by
  match k with
  | 0 => rfl
  | 1 => rfl

theorem storeReg_dbStat (o : Origin) (v : Word) (s : State) :
    storeReg o 0x2000 v s = { s with mbx.dbStat := s.mbx.dbStat &&& ~~~v } := rfl

theorem storeReg_nacked (o : Origin) (s : State) :
    storeReg o 0x1844 0x20 s = modChan 8 (fun k => { k with nacked := false }) s := rfl

/-! ### What a word on its way to a register leaves as it was -/

theorem arrived_mbx (o : Origin) (off : Nat) (v : Word) (s : State) : (arrived o off v s).mbx = s.mbx :=
  (arrived_parts o off v s).1

theorem arrived_power (o : Origin) (off : Nat) (v : Word) (s : State) : (arrived o off v s).power = s.power :=
  (arrived_parts o off v s).2.2.1

theorem fwUp_arrived (o : Origin) (off : Nat) (v : Word) (s : State) : fwUp (arrived o off v s) = fwUp s := by
  simp only [fwUp, fwReady, fwSafe, arrived_boot]

/-! ### The commands where their event can occur -/

theorem exec_mbxGo_accepted {o : Origin} {c : Chan} {v : Word} {s : State} (hw : Writes o (0x1040 + 0x100 * c.val) s)
    (hgo : v.getLsbD 0 = true) :
    exec (.mbxGo o c v) s = .next (settle s (modChan c (fun k =>
      if fwUp s && !s.mbx.resetDue && !s.power.standbyAcked then { k with full := true }
      else { k with ack := pack [(24, field k.msg[0] 16 8), (0, rBusy)], done := true })
      (arrived o (0x1040 + 0x100 * c.val) v s))) := by
  have hctrl : ChanReg (0x1040 + 0x100 * c.val) c 0x40 := .of_eq (by omega) (by decide)
  rw [exec_mbxGo, execMbxGo]
  apply done_eq
  rw [writeBy_accepted o _ v s hw, hctrl.storeReg, writeChan_go hgo, fwUp_arrived, arrived_mbx, arrived_power]

/-- The origin sees the refusal in its own way (R243, R244). -/
theorem exec_mbxWriteWhileFull_refused {c : Chan} {r : Fin 18} {v : Word} {s : State}
    (hup : originUp (chanOrigin c.val) s = true) (hword : r.val ≤ 16 ∨ c.val = 8) (hfull : s.mbx.chan[c].full = true) :
    exec (.mbxWriteWhileFull c r v) s = .next (settle s (refuseWrite (chanOrigin c.val)
      (0x1000 + 0x100 * c.val + 4 * r.val) (.full c.val) (useModule (chanOrigin c.val) s))) := by
  have hreg : ChanReg (0x1000 + 0x100 * c.val + 4 * r.val) c (4 * r.val) := .of_eq rfl (by omega)
  have hfull' : (useModule (chanOrigin c.val) s).mbx.chan[c].full = true := by rw [useModule_mbx, hfull]
  rw [exec_mbxWriteWhileFull, execMbxWriteWhileFull]
  apply done_eq
  rw [writeBy, if_pos hup, bar0Write, hreg.writeRefused_full (by omega) (by omega) (by omega) hfull']

theorem refuseWrite_full {c : Chan} {off : Nat} {s : State} :
    refuseWrite (chanOrigin c.val) off (.full c.val) (useModule (chanOrigin c.val) s) =
      if c.val = 9 then count 0x8E00 1 { s with dm.dmactive := true, dm.sberror := 7 }
      else if c.val = 8 then nack (count 0x8140 1 (setLeaf 0 2 (modChan c (fun k => { k with nacked := true }) s)))
      else emit (.completerAbort off) (count (0x8100 + 8 * c.val) 1 (setLeaf 0 1
        (modChan c (fun k => { k with ca := true }) s))) := by
  unfold chanOrigin
  split
  · rfl
  · split
    · simp only [useModule, refuseWrite, updN_fin]; rfl
    · simp only [useModule, refuseWrite, updN_fin]; rfl

theorem exec_mbxStatRead_shown {o : Origin} {c : Chan} {s : State} (hup : originUp o s = true) :
    exec (.mbxStatRead o c) s = .next (settle s (
      if o = .pcie then modChan c (fun k => { k with taken := false, done := false, ca := false })
        (emit (.readData o (0x1044 + 0x100 * c.val) (mbxStat s.mbx.chan[c])) s)
      else emit (.readData o (0x1044 + 0x100 * c.val) (mbxStat s.mbx.chan[c])) (useModule o s))) := by
  have hstat : ChanReg (0x1044 + 0x100 * c.val) c 0x44 := .of_eq (by omega) (by decide)
  rw [exec_mbxStatRead, execMbxStatRead]
  apply done_eq
  rw [readBy_shown o _ s hup (hstat.implemented (by decide) (by decide)), hstat.bar0Effect rfl, shown, hstat.bar0View rfl,
    useModule_mbx]
  split
  · rename_i ho
    subst ho
    rfl
  · rfl

theorem exec_cqDoneRelease_accepted {o : Origin} {k : Fin 2} {v : Word} {s : State} (hw : Writes o (0x2008 + 4 * k.val) s) :
    exec (.cqDoneRelease o k v) s =
      .next (settle s (releaseTickets k.val v (arrived o (0x2008 + 4 * k.val) v s))) := by
  rw [exec_cqDoneRelease, execCqDoneRelease]
  apply done_eq
  rw [writeBy_accepted o _ v s hw, storeReg_cqDone]

theorem exec_dbStatClear_accepted {o : Origin} {v : Word} {s : State} (hw : Writes o 0x2000 s) :
    exec (.dbStatClear o v) s =
      .next (settle s { arrived o 0x2000 v s with mbx.dbStat := s.mbx.dbStat &&& ~~~v }) := by
  rw [exec_dbStatClear, execDbStatClear]
  apply done_eq
  rw [writeBy_accepted o _ v s hw, storeReg_dbStat, ← arrived_mbx o 0x2000 v s]

theorem exec_nackedClear_accepted {o : Origin} {s : State} (hw : Writes o 0x1844 s) :
    exec (.nackedClear o) s =
      .next (settle s (modChan 8 (fun k => { k with nacked := false }) (arrived o 0x1844 0x20 s))) := by
  rw [exec_nackedClear, execNackedClear]
  apply done_eq
  rw [writeBy_accepted o _ _ s hw, storeReg_nacked]

theorem exec_heartbeat_beats {s : State} (hms : s.mbx.config.heartbeatMs ≠ 0) (hrun : supRuns s = true) :
    exec .heartbeat s = .next (settle s (ring 12 { s with mbx.heartbeat := s.mbx.heartbeat + 1 })) := by
  rw [exec_heartbeat, execHeartbeat]
  exact done_if ⟨hms, hrun⟩

theorem exec_sysResetDelayExpiry_due {s : State} (hdue : s.mbx.resetDue = true) :
    exec .sysResetDelayExpiry s = .next (settle s (enterReset 8 0 s)) := by
  rw [exec_sysResetDelayExpiry, execSysResetDelayExpiry]
  exact done_if hdue

/-- Settles O30: each clause is its command's lemma; how a full channel refuses a write is shown for each origin. -/
theorem mailboxRegisterAccessesComplete : Obligations.MailboxRegisterAccessesComplete :=
  ⟨fun _ _ _ _ hw hgo => exec_mbxGo_accepted hw hgo,
   fun _ _ _ _ hup hword hfull => (exec_mbxWriteWhileFull_refused hup hword hfull).trans (by rw [refuseWrite_full]),
   fun _ _ _ hup => exec_mbxStatRead_shown hup,
   fun _ _ _ _ hw => exec_cqDoneRelease_accepted hw,
   fun _ _ _ hw => exec_dbStatClear_accepted hw,
   fun _ _ hw => exec_nackedClear_accepted hw,
   fun _ hms hrun => exec_heartbeat_beats hms hrun,
   fun _ hdue => exec_sysResetDelayExpiry_due hdue⟩

end Sys2Proof.Machine
end

section
/-!
PROOFS. Writes of the streams' ring doorbells and of the host channels' registers (R193, R298, R315, R320, R321, R325, R330,
R364).
-/
namespace Sys2Proof.Machine
open Sys2Proof Sys2Proof.Claims

/-! ### The meaning of each command -/

theorem exec_strmSqTailWrite (i : Strm) (v : Word) (s : State) :
    exec (.strmSqTailWrite i v) s = execStrmSqTailWrite i v s := rfl

theorem exec_strmCqHeadWrite (i : Strm) (v : Word) (s : State) :
    exec (.strmCqHeadWrite i v) s = execStrmCqHeadWrite i v s := rfl

theorem exec_dmaTailWrite (c : Fin 8) (v : Word) (s : State) : exec (.dmaTailWrite c v) s = execDmaTailWrite c v s := rfl

theorem exec_dmaEnable (o : Origin) (c : Fin 8) (s : State) : exec (.dmaEnable o c) s = execDmaEnable o c s := rfl

theorem exec_dmaDisable (o : Origin) (c : Fin 8) (s : State) : exec (.dmaDisable o c) s = execDmaDisable o c s := rfl

theorem exec_dmaResume (o : Origin) (c : Fin 8) (s : State) : exec (.dmaResume o c) s = execDmaResume o c s := rfl

theorem exec_dmaHdoneClear (o : Origin) (v : Word) (s : State) :
    exec (.dmaHdoneClear o v) s = execDmaHdoneClear o v s := rfl

/-! ### Which register a word reaches (Tables 07-14 to 07-18) -/

theorem storeReg_strmSq (o : Origin) (i : Strm) (v : Word) (s : State) :
    storeReg o (0x3000 + 8 * i.val) v s = writeSqTail i (field v 0 16) s := by
  have hstrm : (0x3000 + 8 * i.val - 0x3000) / 8 = i.val := by omega
  unfold storeReg
  rw [if_neg (by omega), if_neg (by omega), if_neg (by omega), if_pos (by omega), dif_pos (by omega), if_pos (by omega)]
  congr 1
  exact Fin.ext hstrm

theorem storeReg_strmCq (o : Origin) (i : Strm) (v : Word) (s : State) :
    storeReg o (0x3004 + 8 * i.val) v s = writeCqHead i (field v 0 16) s := by
  have hstrm : (0x3004 + 8 * i.val - 0x3000) / 8 = i.val := by omega
  unfold storeReg
  rw [if_neg (by omega), if_neg (by omega), if_neg (by omega), if_pos (by omega), dif_pos (by omega), if_neg (by omega)]
  congr 1
  exact Fin.ext hstrm

/-- The registers of a host channel lie 0x200 apart. -/
theorem storeReg_host {off r : Nat} {c : Fin 8} (hoff : off = 0x4000 + 0x200 * c.val + r) (hr : r < 0x200) (o : Origin)
    (v : Word) (s : State) : storeReg o off v s = writeHost c r v s := by
  have hchan : (off - 0x4000) / 0x200 = c.val := by omega
  have hreg : off % 0x200 = r := by omega
  unfold storeReg
  rw [if_neg (by omega), if_neg (by omega), if_neg (by omega), if_neg (by omega), if_pos (by omega), dif_pos (by omega),
    hreg]
  congr 1
  exact Fin.ext hchan

theorem storeReg_dmaTail (o : Origin) (c : Fin 8) (v : Word) (s : State) :
    storeReg o (0x400C + 0x200 * c.val) v s = modHost c (fun h => { h with tail := v.truncate 12 }) s :=
  storeReg_host (r := 0x0C) (by omega) (by decide) o v s

theorem storeReg_dmaEnable (o : Origin) (c : Fin 8) (s : State) :
    storeReg o (0x4014 + 0x200 * c.val) 1 s = enableHost c s :=
  storeReg_host (r := 0x14) (by omega) (by decide) o 1 s

theorem storeReg_dmaDisable (o : Origin) (c : Fin 8) (s : State) :
    storeReg o (0x4014 + 0x200 * c.val) 0 s = disableHost c s :=
  storeReg_host (r := 0x14) (by omega) (by decide) o 0 s

/-- RESUME comes with ENABLE kept at 1. -/
theorem storeReg_dmaResume (o : Origin) (c : Fin 8) (s : State) :
    storeReg o (0x4014 + 0x200 * c.val) 5 s = enableHost c (resumeHost c s) :=
  storeReg_host (r := 0x14) (by omega) (by decide) o 5 s

theorem storeReg_dmaHdone (o : Origin) (v : Word) (s : State) :
    storeReg o 0x5140 v s = { s with dma.hdone := s.dma.hdone &&& ~~~(v.truncate 8) } := rfl

/-! ### Doorbells of a stream's rings (R298, R320, R321; log 177) -/

theorem writeSqTail_attached {i : Strm} {v : Nat} {s : State} {r : Rings} (hr : s.ing.stream[i].rings = some r)
    (hsq : r.hasSq = true) (hstate : s.ing.stream[i].state ≠ .detached) :
    writeSqTail i v s = if v < 2 ^ r.sqLog then modStream i (fun m => { m with sqTail := BitVec.ofNat 16 v }) s
      else descErr 0xFF i.val 0 1 s := by
  have hopen : ¬(!r.hasSq || s.ing.stream[i].state == .detached) = true := by
    rw [hsq, beq_eq_false_iff_ne.mpr hstate]
    decide
  simp only [writeSqTail, hr, if_neg hopen, ge_iff_le, ← Nat.not_lt, ite_not]

theorem writeSqTail_noSq {i : Strm} {v : Nat} {s : State} {r : Rings} (hr : s.ing.stream[i].rings = some r)
    (hsq : r.hasSq = false) : writeSqTail i v s = descErr 0xFF i.val 0 3 s := by
  simp only [writeSqTail, hr, hsq, Bool.not_false, Bool.true_or, if_true]

theorem writeCqHead_attached {i : Strm} {v : Nat} {s : State} {r : Rings} (hr : s.ing.stream[i].rings = some r)
    (hstate : s.ing.stream[i].state ≠ .detached) :
    writeCqHead i v s =
      if v < 2 ^ r.cqLog ∧ (v + 2 ^ r.cqLog - s.ing.stream[i].cqHead.toNat) % 2 ^ r.cqLog ≤
          (s.ing.stream[i].cqTail.toNat + 2 ^ r.cqLog - s.ing.stream[i].cqHead.toNat) % 2 ^ r.cqLog then
        postBuffers (postHeld i s.ing.stream[i].held.length
          (modStream i (fun m => { m with cqHead := BitVec.ofNat 16 v }) s))
      else descErr 0xFF i.val 0 2 s := by
  simp only [writeCqHead, hr, if_neg hstate]
  rw [← ite_not]
  simp only [not_or, ge_iff_le, gt_iff_lt, Nat.not_le, Nat.not_lt]

/-! ### A host channel's CTRL (R315, R325, R330; logs 45, 46, 181) -/

theorem enableHost_off {c : Fin 8} {s : State} (h : s.dma.chan[c].enable = false) :
    enableHost c s =
      let t := modHost c (fun h => { h with enable := true, halted := false }) s
      if 4 ≤ s.dma.chan[c].log2.toNat ∧ s.dma.chan[c].log2.toNat ≤ 12 then t else haltHost c rParam 0x09 t := by
  have hsize : (s.dma.chan[c].log2.toNat < 4 ∨ s.dma.chan[c].log2.toNat > 12) ↔
      ¬(4 ≤ s.dma.chan[c].log2.toNat ∧ s.dma.chan[c].log2.toNat ≤ 12) := by omega
  simp only [enableHost, h, Bool.false_eq_true, if_false, hsize, ite_not]

theorem enableHost_on {c : Fin 8} {s : State} (h : s.dma.chan[c].enable = true) : enableHost c s = s := by
  rw [enableHost, h]
  rfl

theorem resumeHost_halted {c : Fin 8} {s : State} (h : s.dma.chan[c].halted = true) :
    resumeHost c s = modHost c (fun h => { h with
      halted := false, rewind := false,
      head := if h.rewind then 0 else BitVec.ofNat 12 ((h.head.toNat + 1) % 2 ^ h.log2.toNat) }) s := by
  rw [resumeHost, h]
  rfl

/-- Resuming leaves the channel enabled. -/
theorem resumeHost_enable {c : Fin 8} {s : State} (h : s.dma.chan[c].halted = true) :
    (resumeHost c s).dma.chan[c].enable = s.dma.chan[c].enable := by
  rw [resumeHost_halted h, modHost_dma, upd_get, if_pos rfl]

/-! ### What a word on its way to a register leaves as it was -/

theorem arrived_ing (o : Origin) (off : Nat) (v : Word) (s : State) : (arrived o off v s).ing = s.ing := by
  obtain ⟨-, -, -, hing, -, -⟩ := arrived_parts o off v s
  exact hing

theorem arrived_dma (o : Origin) (off : Nat) (v : Word) (s : State) : (arrived o off v s).dma = s.dma := by
  obtain ⟨-, -, -, -, hdma, -⟩ := arrived_parts o off v s
  exact hdma

/-! ### The commands where their event can occur -/

theorem exec_strmSqTailWrite_attached {i : Strm} {v : Word} {s : State} {r : Rings}
    (hw : Writes .pcie (0x3000 + 8 * i.val) s) (hr : s.ing.stream[i].rings = some r) (hsq : r.hasSq = true)
    (hstate : s.ing.stream[i].state ≠ .detached) :
    exec (.strmSqTailWrite i v) s = .next (settle s (
      if field v 0 16 < 2 ^ r.sqLog then modStream i (fun m => { m with sqTail := BitVec.ofNat 16 (field v 0 16) })
        (arrived .pcie (0x3000 + 8 * i.val) v s)
      else descErr 0xFF i.val 0 1 (arrived .pcie (0x3000 + 8 * i.val) v s))) := by
  have hing := arrived_ing .pcie (0x3000 + 8 * i.val) v s
  rw [exec_strmSqTailWrite, execStrmSqTailWrite]
  apply done_eq
  rw [writeBy_accepted .pcie _ v s hw, storeReg_strmSq]
  exact writeSqTail_attached (by rw [hing]; exact hr) hsq (by rw [hing]; exact hstate)

theorem exec_strmSqTailWrite_noSq {i : Strm} {v : Word} {s : State} {r : Rings}
    (hw : Writes .pcie (0x3000 + 8 * i.val) s) (hr : s.ing.stream[i].rings = some r) (hsq : r.hasSq = false) :
    exec (.strmSqTailWrite i v) s =
      .next (settle s (descErr 0xFF i.val 0 3 (arrived .pcie (0x3000 + 8 * i.val) v s))) := by
  rw [exec_strmSqTailWrite, execStrmSqTailWrite]
  apply done_eq
  rw [writeBy_accepted .pcie _ v s hw, storeReg_strmSq]
  exact writeSqTail_noSq (by rw [arrived_ing]; exact hr) hsq

theorem exec_strmCqHeadWrite_attached {i : Strm} {v : Word} {s : State} {r : Rings}
    (hw : Writes .pcie (0x3004 + 8 * i.val) s) (hr : s.ing.stream[i].rings = some r)
    (hstate : s.ing.stream[i].state ≠ .detached) :
    exec (.strmCqHeadWrite i v) s = .next (settle s (
      if field v 0 16 < 2 ^ r.cqLog ∧
          (field v 0 16 + 2 ^ r.cqLog - s.ing.stream[i].cqHead.toNat) % 2 ^ r.cqLog ≤
            (s.ing.stream[i].cqTail.toNat + 2 ^ r.cqLog - s.ing.stream[i].cqHead.toNat) % 2 ^ r.cqLog then
        postBuffers (postHeld i s.ing.stream[i].held.length
          (modStream i (fun m => { m with cqHead := BitVec.ofNat 16 (field v 0 16) })
            (arrived .pcie (0x3004 + 8 * i.val) v s)))
      else descErr 0xFF i.val 0 2 (arrived .pcie (0x3004 + 8 * i.val) v s))) := by
  have hing := arrived_ing .pcie (0x3004 + 8 * i.val) v s
  rw [exec_strmCqHeadWrite, execStrmCqHeadWrite]
  apply done_eq
  rw [writeBy_accepted .pcie _ v s hw, storeReg_strmCq,
    writeCqHead_attached (by rw [hing]; exact hr) (by rw [hing]; exact hstate), hing]

theorem exec_dmaTailWrite_accepted {c : Fin 8} {v : Word} {s : State} (hw : Writes .pcie (0x400C + 0x200 * c.val) s) :
    exec (.dmaTailWrite c v) s = .next (settle s (modHost c (fun h => { h with tail := v.truncate 12 })
      (arrived .pcie (0x400C + 0x200 * c.val) v s))) := by
  rw [exec_dmaTailWrite, execDmaTailWrite]
  apply done_eq
  rw [writeBy_accepted .pcie _ v s hw, storeReg_dmaTail]

theorem exec_dmaEnable_off {o : Origin} {c : Fin 8} {s : State} (hw : Writes o (0x4014 + 0x200 * c.val) s)
    (hoff : s.dma.chan[c].enable = false) :
    exec (.dmaEnable o c) s = .next (settle s (
      let t := modHost c (fun h => { h with enable := true, halted := false }) (arrived o (0x4014 + 0x200 * c.val) 1 s)
      if 4 ≤ s.dma.chan[c].log2.toNat ∧ s.dma.chan[c].log2.toNat ≤ 12 then t else haltHost c rParam 0x09 t)) := by
  have hdma := arrived_dma o (0x4014 + 0x200 * c.val) 1 s
  rw [exec_dmaEnable, execDmaEnable]
  apply done_eq
  rw [writeBy_accepted o _ 1 s hw, storeReg_dmaEnable, enableHost_off (by rw [hdma]; exact hoff), hdma]

theorem exec_dmaDisable_accepted {o : Origin} {c : Fin 8} {s : State} (hw : Writes o (0x4014 + 0x200 * c.val) s) :
    exec (.dmaDisable o c) s = .next (settle s (modHost c (fun h => { h with
      enable := false, fetching := false, head := if h.desc.isSome then h.head else 0, rewind := h.desc.isSome })
      (arrived o (0x4014 + 0x200 * c.val) 0 s))) := by
  rw [exec_dmaDisable, execDmaDisable]
  apply done_eq
  rw [writeBy_accepted o _ 0 s hw, storeReg_dmaDisable]
  rfl

theorem exec_dmaResume_halted {o : Origin} {c : Fin 8} {s : State} (hw : Writes o (0x4014 + 0x200 * c.val) s)
    (hon : s.dma.chan[c].enable = true) (hhalt : s.dma.chan[c].halted = true) :
    exec (.dmaResume o c) s = .next (settle s (modHost c (fun h => { h with
      halted := false, rewind := false,
      head := if h.rewind then 0 else BitVec.ofNat 12 ((h.head.toNat + 1) % 2 ^ h.log2.toNat) })
      (arrived o (0x4014 + 0x200 * c.val) 5 s))) := by
  have hdma := arrived_dma o (0x4014 + 0x200 * c.val) 5 s
  have hhalt' : (arrived o (0x4014 + 0x200 * c.val) 5 s).dma.chan[c].halted = true := by rw [hdma]; exact hhalt
  rw [exec_dmaResume, execDmaResume]
  apply done_eq
  rw [writeBy_accepted o _ 5 s hw, storeReg_dmaResume, ← resumeHost_halted hhalt']
  exact enableHost_on (by rw [resumeHost_enable hhalt', hdma]; exact hon)

theorem exec_dmaHdoneClear_accepted {o : Origin} {v : Word} {s : State} (hw : Writes o 0x5140 s) :
    exec (.dmaHdoneClear o v) s =
      .next (settle s { arrived o 0x5140 v s with dma.hdone := s.dma.hdone &&& ~~~(v.truncate 8) }) := by
  rw [exec_dmaHdoneClear, execDmaHdoneClear]
  apply done_eq
  rw [writeBy_accepted o _ v s hw, storeReg_dmaHdone, ← arrived_dma o 0x5140 v s]

/-- Settles O32: each clause is its command's lemma, on the rings or in the channel's state that it speaks of. -/
theorem ringAndDmaRegisterWritesComplete : Obligations.RingAndDmaRegisterWritesComplete :=
  ⟨fun _ _ _ _ hw hr hsq hstate => exec_strmSqTailWrite_attached hw hr hsq hstate,
   fun _ _ _ _ hw hr hsq => exec_strmSqTailWrite_noSq hw hr hsq,
   fun _ _ _ _ hw hr hstate => exec_strmCqHeadWrite_attached hw hr hstate,
   fun _ _ _ hw => exec_dmaTailWrite_accepted hw,
   fun _ _ _ hw hoff => exec_dmaEnable_off hw hoff,
   fun _ _ _ hw => exec_dmaDisable_accepted hw,
   fun _ _ _ hw hon hhalt => exec_dmaResume_halted hw hon hhalt,
   fun _ _ _ hw => exec_dmaHdoneClear_accepted hw⟩

end Sys2Proof.Machine
end

section
/-!
PROOFS. The windows into far space, the far side's answers and silences, and the wide-value port (R167, R169, R170, R172,
R174, R185, R186, R198, R199, R202).
-/
namespace Sys2Proof.Machine
open Sys2Proof Sys2Proof.Claims

/-! ### The meaning of each command -/

theorem exec_indAddrWrite (o : Origin) (v : Word) (s : State) :
    exec (.indAddrWrite o v) s = execIndAddrWrite o v s := rfl

theorem exec_indDataRead (o : Origin) (s : State) : exec (.indDataRead o) s = execIndDataRead o s := rfl

theorem exec_indDataWrite (o : Origin) (v : Word) (s : State) :
    exec (.indDataWrite o v) s = execIndDataWrite o v s := rfl

theorem exec_farPrefetchDone (o : Origin) (r : FarReply) (s : State) :
    exec (.farPrefetchDone o r) s = execFarPrefetchDone o r s := rfl

theorem exec_farWriteAck (o : Origin) (ok : Bool) (s : State) : exec (.farWriteAck o ok) s = execFarWriteAck o ok s := rfl

theorem exec_farAccessTimeout (o : Origin) (s : State) : exec (.farAccessTimeout o) s = execFarAccessTimeout o s := rfl

theorem exec_wvSelWrite (o : Origin) (v : Word) (s : State) : exec (.wvSelWrite o v) s = execWvSelWrite o v s := rfl

theorem exec_wvPieceLoaded (s : State) : exec .wvPieceLoaded s = execWvPieceLoaded s := rfl

theorem exec_wvData3Read (o : Origin) (s : State) : exec (.wvData3Read o) s = execWvData3Read o s := rfl

/-! ### The registers of a window and of the wide-value port -/

theorem storeReg_indAddr (o : Origin) (v : Word) (s : State) : storeReg o 0x100 v s = writeAddr o v s := rfl

theorem storeReg_indData (o : Origin) (v : Word) (s : State) : storeReg o 0x104 v s = postFar o v s := rfl

theorem storeReg_wvSel (o : Origin) (v : Word) (s : State) : storeReg o 0x120 v s = writeWvSel v s := rfl

/-- A value that goes out leaves every window as it was. -/
theorem winOf_shown (o o' : Origin) (off : Nat) (s : State) : winOf o' (shown o off s) = winOf o' s := by
  have hregs : (shown o off s).regs = s.regs := by cases o <;> rfl
  cases o' <;> simp only [winOf, hregs]

theorem shown_wv (o : Origin) (off : Nat) (s : State) : (shown o off s).regs.wv = s.regs.wv := by cases o <;> rfl

/-- A read of IND_DATA over PCIe or the debug port moves on under AUTOINC once the word is ready (R169). -/
theorem bar0Effect_indData (o : Origin) (s : State) : bar0Effect o 0x104 s =
    if (o == .pcie || o == .debug) && (winOf o s).ready && (winOf o s).autoinc then advanceRead o s else s := by
  have hmoves : (0x104 = 0x104 ∧ (o = .pcie ∨ o = .debug) ∧ (winOf o s).ready = true ∧ (winOf o s).autoinc = true) ↔
      ((o == .pcie || o == .debug) && (winOf o s).ready && (winOf o s).autoinc) = true := by
    simp only [Bool.and_eq_true, Bool.or_eq_true, beq_iff_eq, true_and, and_assoc]
  have heffect : bar0Effect o 0x104 s = if 0x104 = 0x104 ∧ (o = .pcie ∨ o = .debug) ∧ (winOf o s).ready = true ∧
      (winOf o s).autoinc = true then advanceRead o s else s := ite_self _
  rw [heffect]
  by_cases h : ((o == .pcie || o == .debug) && (winOf o s).ready && (winOf o s).autoinc) = true
  · rw [if_pos h, if_pos (hmoves.mpr h)]
  · rw [if_neg h, if_neg (mt hmoves.mp h)]

/-- A PCIe read of WV_DATA_3 ends the piece's validity and under AUTONEXT loads the next (R186, R199). -/
theorem bar0Effect_wvData3 (o : Origin) (s : State) :
    let next := s.regs.wv.autonext && decide (s.regs.wv.piece.toNat + 1 < s.regs.wv.pieces.toNat)
    bar0Effect o 0x13C s =
      if o = .pcie ∧ s.regs.wv.valid = true then { s with regs.wv := { s.regs.wv with
        valid := false, loading := next, piece := if next then s.regs.wv.piece + 1 else s.regs.wv.piece } }
      else s := by
  intro next
  by_cases ho : o = .pcie
  · subst ho
    have hread : bar0Effect .pcie 0x13C s =
        if !s.regs.wv.valid then s else { s with regs.wv := { s.regs.wv with
          valid := false, loading := next, piece := if next then s.regs.wv.piece + 1 else s.regs.wv.piece } } := rfl
    rw [hread]
    simp only [true_and, Bool.not_eq_true', ← Bool.not_eq_true, ite_not]
  · rw [if_neg (fun h => ho h.1)]
    exact if_pos ho

/-! ### Answers of the far side (R170, R172, R198, R202) -/

theorem readAnswered_word (q : FarReq) (v : Word) (s : State) : readAnswered q (.word v) s =
    if q.live then farWord q.origin (farValue q.addr v (popFar q.addr s)) (popFar q.addr s) else popFar q.addr s := by
  rw [readAnswered]
  cases q.live <;> rfl

theorem readAnswered_farError (q : FarReq) (s : State) : readAnswered q .farError s =
    if q.live then farError q.origin 5 (popFar q.addr s) else popFar q.addr s := by
  rw [readAnswered]
  cases q.live <;> rfl

theorem sendCtl_polarity (n : Trn) (type arg : Nat) (body : List Nat) (s : State) :
    (sendCtl n type arg body s).regs.polarity = s.regs.polarity := by
  unfold sendCtl
  split <;> rfl

theorem setFarQueue_polarity (a : Nat) (l : List FarReq) (s : State) :
    (setFarQueue a l s).regs.polarity = s.regs.polarity := by
  unfold setFarQueue
  split <;> rfl

/-- The next request that begins to be served turns no lane's polarity. -/
theorem popFar_polarity (a : Nat) (s : State) : (popFar a s).regs.polarity = s.regs.polarity := by
  rw [popFar, serveFar]
  split
  · rw [sendFar]
    split <;> rw [sendCtl_polarity, setFarQueue_polarity]
  · exact setFarQueue_polarity _ _ s

theorem modWin_polarity (o : Origin) (f : Window → Window) (s : State) :
    (modWin o f s).regs.polarity = s.regs.polarity := by cases o <;> rfl

/-- A write that failed turns no lane's polarity. -/
theorem writeDone_failed (q : FarReq) (s : State) : writeDone q false s = farError q.origin 5 (popFar q.addr s) := by
  have hsame : (farError q.origin 5 (popFar q.addr s)).regs.polarity = s.regs.polarity := by
    rw [farError, modWin_polarity, popFar_polarity]
  have hdone : writeAnswered q false s = farError q.origin 5 (popFar q.addr s) := rfl
  rw [writeDone, hdone]
  split
  · exact if_neg (fun h => h (by rw [hsame]))
  · rfl

/-- A write that takes effect on a live lane's polarity loses its link (R92). -/
theorem writeDone_acknowledged (q : FarReq) (s : State) :
    let t := modWin q.origin (fun w => { w with busy := false, far := .idle })
      (farApply q.addr q.value (popFar q.addr s))
    writeDone q true s = match laneOf q.addr with
      | none => t
      | some i => if laneInversion i.val s.regs.polarity[i] = laneInversion i.val t.regs.polarity[i] then t
          else laneLost i.val t := by
  intro t
  have hdone : writeAnswered q true s = t := rfl
  rw [writeDone, hdone]
  cases laneOf q.addr with
  | none => rfl
  | some i => exact ite_not _ _ _

/-! ### Silence (R174, R202) -/

/-- No request of the origin that it gave up is in service. -/
def NothingAbandoned (o : Origin) (s : State) : Prop :=
  (∀ x, s.regs.bus.head? = some x → x.live = true ∨ x.origin ≠ o) ∧
  ∀ (n : Trn) (x : FarReq), s.trn[n].far.head? = some x → x.live = true ∨ x.origin ≠ o

/-- A queue whose first request waits, or is another's, has no abandoned one of this origin in service. -/
theorem filter_abandoned_eq_none {o : Origin} {q : Option FarReq}
    (h : ∀ x, q = some x → x.live = true ∨ x.origin ≠ o) :
    q.filter (fun x => !x.live && decide (x.origin = o)) = none := by
  rw [Option.filter_eq_none_iff]
  intro x hx
  rcases h x hx with hlive | hother
  · simp [hlive]
  · simp [hother]

/-- Whose request is first in a queue, as `farTimeout` asks and as the spec says it. -/
theorem firstOf_iff (o : Origin) (q : Option FarReq) :
    (q.map (fun x => decide (x.origin = o))).getD false = true ↔ q.map (fun x => x.origin) = some o := by
  cases q <;> simp

/-- The origin's own access ends with TIMEOUT; where it was being served the next is served. -/
theorem farTimeout_waiting {o : Origin} {a : Nat} {s : State}
    (hfar : (winOf o s).far = .read a ∨ ∃ v, (winOf o s).far = .write a v) (hnone : NothingAbandoned o s) :
    farTimeout o s = farError o 4 (
      if (farQueue a s).head?.map (fun x => x.origin) = some o then popFar a s else abandonIn o a s) := by
  obtain ⟨hbus, htrn⟩ := hnone
  have hports : allTrn.find? (fun n =>
      (s.trn[n].far.head?.filter (fun x => !x.live && decide (x.origin = o))).isSome) = none := by
    rw [List.find?_eq_none]
    intro n _
    rw [filter_abandoned_eq_none (htrn n)]
    decide
  unfold farTimeout
  rcases hfar with hread | ⟨v, hwrite⟩
  · simp only [filter_abandoned_eq_none hbus, hports, hread, firstOf_iff]
  · simp only [filter_abandoned_eq_none hbus, hports, hwrite, firstOf_iff]

/-! ### The commands where their event can occur -/

theorem exec_indAddrWrite_accepted {o : Origin} {v : Word} {s : State} (ho : o ≠ .i2c) (hw : Writes o 0x100 s) :
    exec (.indAddrWrite o v) s = .next (settle s (startPrefetch o (modWin o (fun w => { w with addr := v &&& 0xFFFFFFFC })
      (arrived o 0x100 v s)))) := by
  rw [exec_indAddrWrite, execIndAddrWrite]
  apply done_eq
  rw [if_neg ho, writeBy_accepted o _ v s hw, storeReg_indAddr, writeAddr]

theorem exec_indDataRead_shown {o : Origin} {s : State} (hup : originUp o s = true) (ho : o ≠ .i2c) :
    exec (.indDataRead o) s = .next (settle s (
      if (o == .pcie || o == .debug) && (winOf o s).ready && (winOf o s).autoinc then advanceRead o (shown o 0x104 s)
      else shown o 0x104 s)) := by
  rw [exec_indDataRead, execIndDataRead]
  apply done_eq
  rw [if_neg ho, readBy_shown o _ s hup rfl, bar0Effect_indData, winOf_shown]

theorem exec_indDataWrite_accepted {o : Origin} {v : Word} {s : State} (ho : o ≠ .i2c) (hw : Writes o 0x104 s) :
    exec (.indDataWrite o v) s = .next (settle s (postFar o v (arrived o 0x104 v s))) := by
  rw [exec_indDataWrite, execIndDataWrite]
  apply done_eq
  rw [if_neg ho, writeBy_accepted o _ v s hw, storeReg_indData]

/-- The I2C window's accesses go through its own commands (R175 to R179). -/
theorem exec_indAccesses_i2c {v : Word} {s : State} (hup : originUp .i2c s = true) :
    exec (.indAddrWrite .i2c v) s = .next (settle s (i2cSetAddr v s)) ∧
    exec (.indDataRead .i2c) s = .next (settle s (emit (.i2cRead (i2cReadBytes 4 0 s).1) (i2cReadBytes 4 0 s).2)) ∧
    exec (.indDataWrite .i2c v) s = .next (settle s (i2cWriteWord v s)) := by
  rw [exec_indAddrWrite, execIndAddrWrite, exec_indDataRead, execIndDataRead, exec_indDataWrite, execIndDataWrite]
  refine ⟨done_eq ?_, done_eq ?_, done_eq ?_⟩ <;> rw [if_pos rfl, if_pos hup]

theorem exec_farPrefetchDone_read {o : Origin} {q : FarReq} {v : Word} {s : State} (hq : answeredFar o s = some q)
    (hread : q.write = false) :
    exec (.farPrefetchDone o (.word v)) s = .next (settle s (if q.live
      then farWord q.origin (farValue q.addr v (popFar q.addr s)) (popFar q.addr s) else popFar q.addr s)) ∧
    exec (.farPrefetchDone o .farError) s = .next (settle s (if q.live
      then farError q.origin 5 (popFar q.addr s) else popFar q.addr s)) := by
  simp only [exec_farPrefetchDone, execFarPrefetchDone, ← readAnswered_word, ← readAnswered_farError]
  constructor <;>
  · apply done_eq
    simp only [hq, hread, Bool.false_eq_true, if_false]

/-- An answer to a write leaves what `writeDone` makes of it, streams without a transport looked at (R620). -/
theorem exec_farWriteAck_write {o : Origin} {q : FarReq} {ok : Bool} {s t : State} (hq : answeredFar o s = some q)
    (hwrite : q.write = true) (hdone : writeDone q ok s = t) :
    exec (.farWriteAck o ok) s = .next (settle s (checkStreams t)) := by
  rw [exec_farWriteAck, execFarWriteAck]
  apply doneS_eq
  simp only [hq, hwrite, if_true]
  exact hdone

theorem exec_farAccessTimeout_waiting {o : Origin} {a : Nat} {s : State}
    (hfar : (winOf o s).far = .read a ∨ ∃ v, (winOf o s).far = .write a v) (hnone : NothingAbandoned o s) :
    exec (.farAccessTimeout o) s = .next (settle s (farError o 4 (
      if (farQueue a s).head?.map (fun x => x.origin) = some o then popFar a s else abandonIn o a s))) := by
  rw [exec_farAccessTimeout, execFarAccessTimeout]
  exact done_eq (farTimeout_waiting hfar hnone)

theorem exec_wvSelWrite_accepted {o : Origin} {v : Word} {s : State} (hw : Writes o 0x120 s) :
    exec (.wvSelWrite o v) s = .next (settle s { arrived o 0x120 v s with regs.wv := { s.regs.wv with
      autonext := v.getLsbD 31, item := BitVec.ofNat 8 (field v 8 8), piece := v.truncate 8, valid := false, err := false,
      loading := true } }) := by
  rw [exec_wvSelWrite, execWvSelWrite]
  apply done_eq
  rw [writeBy_accepted o _ v s hw, storeReg_wvSel, writeWvSel, arrived_wv]

theorem exec_wvPieceLoaded_loading {s : State} (hload : s.regs.wv.loading = true) :
    exec .wvPieceLoaded s = .next (settle s (wvLoad s)) := by
  rw [exec_wvPieceLoaded, execWvPieceLoaded]
  exact done_if hload

theorem exec_wvData3Read_shown {o : Origin} {s : State} (hup : originUp o s = true) :
    let next := s.regs.wv.autonext && decide (s.regs.wv.piece.toNat + 1 < s.regs.wv.pieces.toNat)
    exec (.wvData3Read o) s = .next (settle s (
      if o = .pcie ∧ s.regs.wv.valid = true then { shown o 0x13C s with regs.wv := { s.regs.wv with
        valid := false, loading := next, piece := if next then s.regs.wv.piece + 1 else s.regs.wv.piece } }
      else shown o 0x13C s)) := by
  intro next
  rw [exec_wvData3Read, execWvData3Read]
  apply done_eq
  rw [readBy_shown o _ s hup rfl, bar0Effect_wvData3, shown_wv]

/-- Settles O33: each clause is its command's lemma; an acknowledge is shown by what `writeDone` does of it. -/
theorem windowsAndWideValuesComplete : Obligations.WindowsAndWideValuesComplete :=
  ⟨fun _ _ _ ho hw => exec_indAddrWrite_accepted ho hw,
   fun _ _ hup ho => exec_indDataRead_shown hup ho,
   fun _ _ _ ho hw => exec_indDataWrite_accepted ho hw,
   fun _ _ hup => exec_indAccesses_i2c hup,
   fun _ _ _ _ hq hread => exec_farPrefetchDone_read hq hread,
   fun _ q s hq hwrite =>
     ⟨exec_farWriteAck_write hq hwrite (writeDone_failed q s),
      by intro t; exact exec_farWriteAck_write hq hwrite (writeDone_acknowledged q s)⟩,
   fun _ _ _ hfar hbus htrn => exec_farAccessTimeout_waiting hfar ⟨hbus, htrn⟩,
   fun _ _ _ hw => exec_wvSelWrite_accepted hw,
   fun _ hload => exec_wvPieceLoaded_loading hload,
   fun _ _ hup => exec_wvData3Read_shown hup⟩

end Sys2Proof.Machine
end

section
/-!
PROOFS. The outputs that follow from the state stand as the state says after every step, and at reset (R207, R209, R213,
R219, R373, R401).
-/
namespace Sys2Proof.Machine
open Sys2Proof Sys2Proof.Claims

/-! ### The RoCE hold (R373) -/

/-- Staging memory alone says how many extents are free. -/
theorem freeCount_congr {s t : State} (h : t.stg = s.stg) : freeCount t = freeCount s := by
  unfold freeCount ownerCount
  rw [h]

/-- The hold is in force by the bytes over the cap, the descriptors, staging memory and its settings. -/
theorem holdInForce_congr {s t : State} (hdebt : t.ing.debt = s.ing.debt) (hrecs : t.ing.recs = s.ing.recs)
    (hroom : t.rateRoom = s.rateRoom) (hstg : t.stg = s.stg) (hmbx : t.mbx = s.mbx) :
    holdInForce t = holdInForce s := by
  rw [holdInForce, rateHold, highWater, occupied, hdebt, hrecs, hroom, hmbx, freeCount_congr hstg, hstg]
  rfl

/-- What a hold's beginning or end changes decides no hold. -/
theorem HoldSettled.holdInForce_eq {t v : State} (h : HoldSettled t v) : holdInForce v = holdInForce t := by
  obtain ⟨hing, -⟩ := h.streams
  have hdebt : v.ing.debt = t.ing.debt := (congrArg Ing.debt hing :)
  have hrecs : v.ing.recs = t.ing.recs := (congrArg Ing.recs hing :)
  refine holdInForce_congr hdebt hrecs ?_ ?_ ?_ <;> rw [h.frame]

theorem holdInForce_settleHold (t : State) : holdInForce (settleHold t) = holdInForce t :=
  (settleHold_settled t).holdInForce_eq

theorem postBuffers_held (s : State) : (postBuffers s).net.held = s.net.held := by
  obtain ⟨hframe, -⟩ := postBuffers_frame s
  rw [hframe]

theorem settleHold_held (t : State) : (settleHold t).net.held = holdInForce t := by
  simp only [settleHold]
  cases hforce : holdInForce t <;> cases hheld : t.net.held
  · exact hheld
  · simp only [Bool.not_false, Bool.and_true, Bool.false_and, Bool.false_eq_true, if_false, if_true, postBuffers_held]
  · rfl
  · exact hheld

/-! ### The pin and the message (R207 to R209, R219) -/

/-- Pending stands after a message is called for only where it may not go. -/
theorem callMsix_msixPending {s : State} (hpending : s.irq.msixPending = true → msixAllowed s = false)
    (h : (callMsix s).irq.msixPending = true) : msixAllowed (callMsix s) = false := by
  rcases callMsix_cases s with ⟨hforbidden, heq⟩ | ⟨-, -, heq⟩ | ⟨-, -, heq⟩ <;> rw [heq] at h ⊢
  · exact hforbidden
  · exact hpending h
  · exact hpending h

/-- Pending stands only where the host forbids the message (R209). -/
theorem settleIrq_msixPending (s : State) (h : (settleIrq s).irq.msixPending = true) :
    msixAllowed (settleIrq s) = false := by
  have hcleared : (s.irq.msixPending && !(s.irq.msixPending && msixAllowed s)) = true → msixAllowed s = false := by
    cases s.irq.msixPending <;> cases msixAllowed s <;> decide
  unfold settleIrq at h ⊢
  dsimp only at h ⊢
  split at h
  · rename_i hcall
    rw [if_pos hcall]
    exact callMsix_msixPending hcleared h
  · rename_i hcall
    rw [if_neg hcall]
    exact hcleared h

/-- Bringing the pin and the message up to date makes the outputs stand, where the hold does. -/
theorem settleIrq_outputsCurrent {s : State} (hheld : s.net.held = holdInForce s) : OutputsCurrent (settleIrq s) := by
  have hpending := settleIrq_msixPending s
  obtain ⟨out, pending, due, runs, heq, -⟩ := settleIrq_eq s
  rw [heq] at hpending ⊢
  have hattention := attentionNow_outputs s out (attentionNow s)
    (attentionNow s && !s.irq.pinOff && !s.irq.eoiRelease) pending due runs
  refine ⟨hattention.symm, ?pin, hpending, hheld⟩
  case pin => rw [hattention]

/-! ### Every step -/

/-- After what follows from any command the outputs stand as the state says. -/
theorem settle_outputsCurrent (s t : State) : OutputsCurrent (settle s t) :=
  settleIrq_outputsCurrent ((settleHold_held _).trans (holdInForce_settleHold _).symm)

/-- Every step answers a state that `settle` leaves. -/
theorem step_settles (s : State) : ∃ r t, step s = .next (settle r t) := by
  unfold step
  cases s.pending with
  | nil => exact ⟨s, idle s, rfl⟩
  | cons c rest => exact ⟨_, exec_settles c { s with pending := rest }⟩

/-- Settles O3: every step ends in `settle`, which leaves the outputs as the state says. -/
theorem everyStepKeepsOutputsCurrent : Obligations.EveryStepKeepsOutputsCurrent := by
  refine ⟨fun s => ?goesOn, fun s t _ hstep => ?keeps⟩
  case goesOn =>
    obtain ⟨r, t, h⟩ := step_settles s
    exact ⟨settle r t, h⟩
  case keeps =>
    obtain ⟨r, u, h⟩ := step_settles s
    obtain rfl : settle r u = t := Host.Outcome.next.inj (h.symm.trans hstep)
    exact settle_outputsCurrent r u

/-! ### Reset (R207, R373, R412) -/

theorem attentionNow_reset : attentionNow State.reset = false := rfl

theorem holdInForce_reset : holdInForce State.reset = false := rfl

theorem reset_outputsCurrent : OutputsCurrent State.reset := by
  refine ⟨attentionNow_reset.symm, ?pin, fun hpending => ?pending, holdInForce_reset.symm⟩
  case pin => rw [attentionNow_reset]; rfl
  case pending => exact absurd hpending Bool.false_ne_true

/-- Settles O4: nothing asks for attention or holds RoCE at reset, and memory, queue and trace are empty. -/
theorem resetMeetsTheInvariants : Obligations.ResetMeetsTheInvariants :=
  ⟨reset_outputsCurrent, rfl, rfl, rfl, rfl⟩

end Sys2Proof.Machine
end

section
/-!
PROOFS. Faults taken in hand, their handling's end, and a safe-state stop that times out (R226, R227, R236, R264, R286,
R832).
-/
namespace Sys2Proof.Machine
open Sys2Proof

/-! ### The meaning of each command -/

theorem exec_faultInHand (s : State) : exec .faultInHand s = execFaultInHand s := rfl

theorem exec_faultHandlingDone (s : State) : exec .faultHandlingDone s = execFaultHandlingDone s := rfl

theorem exec_safeStopTimeout (n : Trn) (s : State) : exec (.safeStopTimeout n) s = execSafeStopTimeout n s := rfl

/-! ### The next fault (R227) -/

/-- No waiting fault has a higher level than the top one. -/
theorem level_le_topLevel {g : FaultRec} {s : State} (hg : g ∈ s.faults.suspended ∨ g ∈ s.faults.queue) :
    g.level ≤ topLevel s := by
  have hlevel : g.level ∈ (s.faults.suspended ++ s.faults.queue).map FaultRec.level :=
    List.mem_map_of_mem (List.mem_append.mpr hg)
  rw [topLevel, ← List.foldl_map (g := max) (f := FaultRec.level), List.foldl_max]
  exact Nat.le_trans (List.le_max?_getD_of_mem hlevel) (Nat.le_max_right _ _)

theorem takeFault_suspended {f : FaultRec} {s : State}
    (hf : s.faults.suspended.find? (fun g => g.level = topLevel s) = some f) :
    takeFault s = { s with faults.inHand := some f, faults.suspended := s.faults.suspended.erase f } := by
  simp only [takeFault, hf]

theorem takeFault_queued {f : FaultRec} {s : State}
    (hnone : s.faults.suspended.find? (fun g => g.level = topLevel s) = none)
    (hf : s.faults.queue.find? (fun g => g.level = topLevel s) = some f) :
    takeFault s = { s with faults.inHand := some f, faults.queue := s.faults.queue.erase f } := by
  simp only [takeFault, hnone, hf]

/-! ### The end of handling (R226, R264, R286, R832) -/

/-- No descriptor is owed where none was. -/
theorem inOrder_nil (s : State) : inOrder [] s = [] := List.filter_eq_nil_iff.mpr fun _ _ => Bool.false_ne_true

/-- A fault that owes nothing posts nothing. -/
theorem postOwed_of_none {f : FaultRec} {s : State} (h : f.owes = []) : postOwed f s = (f, s) := by
  rw [postOwed, h, inOrder_nil]
  rfl

theorem appendLog_of_room {f : FaultRec} {unhandled : Bool} {s : State} (h : ¬ s.faults.log.length ≥ 65536) :
    appendLog f unhandled s = { s with
      faults.log := s.faults.log ++ [{ index := s.faults.nextLog, flt := f, unhandled := unhandled }],
      faults.nextLog := s.faults.nextLog + 1 } := by
  rw [appendLog, logFull, if_neg (by simpa using h)]

/-! ### The commands where their event can occur -/

theorem exec_faultInHand_free {s : State} (hrun : supRuns s = true) (hsafe : s.faults.safe = false)
    (hfree : s.faults.inHand = none) : exec .faultInHand s = .next (settle s (takeFault s)) := by
  rw [exec_faultInHand, execFaultInHand]
  exact done_if (by rw [hrun, hsafe, hfree]; rfl)

theorem exec_faultHandlingDone_inHand {f : FaultRec} {s : State} (hrun : supRuns s = true)
    (hf : s.faults.inHand = some f) :
    let r := postOwed { f with owes := inOrder f.owes s } s
    exec .faultHandlingDone s = .next (settle s (
      if r.1.owes ≠ [] then { r.2 with faults.inHand := some r.1 }
      else if r.2.faults.log.length ≥ 65536 then overflow { r.2 with faults.inHand := none }
      else appendLog r.1 false { r.2 with faults.inHand := none })) := by
  intro r
  rw [exec_faultHandlingDone, execFaultHandlingDone]
  apply done_eq
  simp only [hf, hrun, Bool.not_true, Bool.false_eq_true, if_false, logFull, decide_eq_true_eq, Bool.not_eq_true',
    List.isEmpty_eq_false_iff, r]

/-- A fault that owes nothing is logged as handled, or overflows a full log. -/
theorem exec_faultHandlingDone_owesNone {f : FaultRec} {s : State} (hrun : supRuns s = true)
    (hf : s.faults.inHand = some f) (howes : f.owes = []) :
    exec .faultHandlingDone s = .next (settle s (
      if s.faults.log.length ≥ 65536 then overflow { s with faults.inHand := none }
      else { s with
        faults.inHand := none,
        faults.log := s.faults.log ++ [{ index := s.faults.nextLog, flt := f, unhandled := false }],
        faults.nextLog := s.faults.nextLog + 1 })) := by
  have hsame : { f with owes := inOrder f.owes s } = f := by rw [howes, inOrder_nil, ← howes]
  rw [exec_faultHandlingDone_inHand hrun hf, hsame, postOwed_of_none howes, if_neg (fun hne => hne howes)]
  split
  · rfl
  · rename_i hroom
    exact congrArg (fun t => Host.Outcome.next (settle s t)) (appendLog_of_room hroom)

theorem exec_safeStopTimeout_waiting {n : Trn} {s : State} (hwait : s.faults.safeStopping.getLsbD n.val = true) :
    exec (.safeStopTimeout n) s = .next (settle s (modTrn n (fun t => { t with
      downlink := false, sysref := false, gate := false, wait0 := 0, wait1 := 0 })
      (drainCtl n { s with faults.safeStopping := clrBit s.faults.safeStopping n.val }))) := by
  rw [exec_safeStopTimeout, execSafeStopTimeout]
  exact done_if hwait

/-- Settles O34: each clause is its command's lemma; the highest level is the maximum of those that wait. -/
theorem faultHandlingStepsComplete : Obligations.FaultHandlingStepsComplete :=
  ⟨fun _ _ hrun hsafe hfree hf => by rw [exec_faultInHand_free hrun hsafe hfree, takeFault_suspended hf],
   fun _ _ hrun hsafe hfree hnone hf => by rw [exec_faultInHand_free hrun hsafe hfree, takeFault_queued hnone hf],
   fun _ _ hg => level_le_topLevel hg,
   fun _ _ hrun hf howes => exec_faultHandlingDone_owesNone hrun hf howes,
   fun _ _ hrun hf => exec_faultHandlingDone_inHand hrun hf,
   fun _ _ hwait => exec_safeStopTimeout_waiting hwait⟩

end Sys2Proof.Machine
end

section
/-!
PROOFS. The command protocol: refusals, replays, the short commands of the SYS family, and the unknown opcode (R242, R246,
R248 to R250, R262, R280, R282, R283, R286, R288, R739).
-/
namespace Sys2Proof.Machine
open Sys2Proof Sys2Proof.Claims

/-! ### Loading a message (R739) -/

/-- Loading a message leaves the mailboxes as they were. -/
theorem loaded_mbx (c : Chan) (s : State) : (loaded c s).mbx = s.mbx := by
  obtain ⟨_, _, _, h, -, -⟩ := loaded_step c s
  rw [h]

/-! ### Every command row runs its form -/

/-- A command row runs its form on its channel; a row that looks at streams does so after it. -/
theorem exec_commandOf {i : Instr} {k : Cmd} {c : Chan} {look : Bool} (h : commandOf i = some (k, c, look)) (s : State) :
    exec i s = .next (settle s (withStreams look (runCommand k c s))) := by
  unfold commandOf at h
  split at h <;> cases h <;> rfl

/-! ### Refusals (R262) -/

/-- Settles O10: every row runs its form, and a form's refusal answers the code and remembers the exchange. -/
theorem refusedCommandsChangeOnlyTheirAnswer : Obligations.RefusedCommandsChangeOnlyTheirAnswer := by
  intro i k c look s hrow htaken hrefused
  refine ⟨?_, loaded_mbx c s⟩
  rw [exec_commandOf hrow, runCommand_refused k c s htaken hrefused]

/-! ### Repeats of the remembered SEQ (R249, R250) -/

/-- The remembered message itself is answered as it was, with REPLAY (R249). -/
theorem replayed_same {m : Msg} {r : Remembered} {s : State} (hr : s.mbx.chan[m.chan].remembered = some r)
    (hseq : field r.header 16 8 = m.seq) (hheader : r.header = m.header) (hparams : r.params = m.params) :
    replayed m s = some (posted m (fun x => { x with msg := r.answer, ack := r.ack ||| 0x00800000 }) s) := by
  simp only [replayed, hr]
  rw [if_neg (fun hne => hne hseq), if_pos ⟨hheader, hparams⟩]

/-- Another message of the remembered SEQ is refused (R250). -/
theorem replayed_other {m : Msg} {r : Remembered} {s : State} (hr : s.mbx.chan[m.chan].remembered = some r)
    (hseq : field r.header 16 8 = m.seq) (hother : r.header ≠ m.header ∨ r.params ≠ m.params) :
    replayed m s = some (answer m rParam 0 false [] s) := by
  simp only [replayed, hr]
  rw [if_neg (fun hne => hne hseq), if_neg (fun ⟨hheader, hparams⟩ => hother.elim (· hheader) (· hparams))]

/-- Settles O11: what the channel remembers decides between the two answers of `replayed`, which every row gives first. -/
theorem repeatedSeqIsReplayedOrRefused : Obligations.RepeatedSeqIsReplayedOrRefused := by
  intro i k c look s r hrow htakes hopcode hmine hremembered hseq
  have hloaded : (loaded c s).mbx.chan[(msgOf c s).chan].remembered = some r := by rw [loaded_mbx]; exact hremembered
  refine ⟨fun hheader hparams => ?same, fun hother => ?other⟩
  case same =>
    rw [exec_commandOf hrow,
      runCommand_replayed k c s _ htakes hopcode hmine (replayed_same hloaded hseq hheader hparams), posted, loaded_mbx]
    rfl
  case other =>
    rw [exec_commandOf hrow, runCommand_replayed k c s _ htakes hopcode hmine (replayed_other hloaded hseq hother)]

/-! ### The short commands of the SYS family -/

/-- A row that runs a short form, accepted, answers OK with the form's words and effect. -/
theorem answers_of_commandOf {k : Cmd} {i : Chan → Instr} {words : Msg → State → List Word} {effect : Msg → State → State}
    (hrow : ∀ c, commandOf (i c) = some (k, c, false)) (hshort : ∀ m, k.long m = none)
    (hact : ∀ m s, k.act m s = (rOk, words m s, effect m s)) : Answers k i words effect := by
  intro c s haccepted
  rw [exec_commandOf (hrow c), runCommand_short k c s haccepted (hshort _), hact]
  rfl

/-- GET of a parameter answers its row of Table 06-13. -/
theorem sysConfigGet_act {m : Msg} {s : State} {v d lo hi : Nat} (h : configRow (m.p 2).toNat s = some (v, d, lo, hi)) :
    sysConfigGet.act m s = (rOk, getAnswer v d lo hi, s) := by
  simp only [sysConfigGet, h]

/-- Settles O12: each row runs a short form whose answer and effect are its table's. -/
theorem sysQueriesAnswer : Obligations.SysQueriesAnswer := by
  refine ⟨answers_of_commandOf (fun _ => rfl) (fun _ => rfl) (fun _ _ => rfl),
    answers_of_commandOf (fun _ => rfl) (fun _ => rfl) (fun _ _ => rfl),
    answers_of_commandOf (fun _ => rfl) (fun _ => rfl) (fun _ _ => rfl),
    answers_of_commandOf (fun _ => rfl) (fun _ => rfl) (fun _ _ => rfl), ?configGet⟩
  case configGet =>
    intro c s v d lo hi haccepted hrow
    rw [exec_commandOf (i := .sysConfigGet c) rfl, runCommand_short _ c s haccepted rfl, sysConfigGet_act hrow]
    rfl

/-- Settles O13: each row runs a short form whose one effect is the setting. -/
theorem sysSettingsComplete : Obligations.SysSettingsComplete :=
  ⟨answers_of_commandOf (fun _ => rfl) (fun _ => rfl) (fun _ _ => rfl),
   answers_of_commandOf (fun _ => rfl) (fun _ => rfl) (fun _ _ => rfl),
   answers_of_commandOf (fun _ => rfl) (fun _ => rfl) (fun _ _ => rfl),
   answers_of_commandOf (fun _ => rfl) (fun _ => rfl) (fun _ _ => rfl),
   answers_of_commandOf (fun _ => rfl) (fun _ => rfl) (fun _ _ => rfl),
   answers_of_commandOf (fun _ => rfl) (fun _ => rfl) (fun _ _ => rfl)⟩

/-! ### The unknown opcode (R262, R739, R830) -/

theorem exec_unknownOpcode (c : Chan) (s : State) : exec (.unknownOpcode c) s = execUnknownOpcode c s := rfl

/-- A new message of an unknown opcode is answered in the state that took it: its words are not loaded. -/
theorem exec_unknownOpcode_new {c : Chan} {s : State} (htakes : takes c s = true)
    (hnew : replayed (msgOf c s) s = none) (hunknown : knownOpcodes.contains (msgOf c s).opcode = false) :
    exec (.unknownOpcode c) s =
      .next (settle s (answered c (if s.faults.safe then rFault else rOpcode) [] s s)) := by
  rw [exec_unknownOpcode, execUnknownOpcode]
  apply done_eq
  simp only [htakes, hnew, hunknown, Bool.not_true, Bool.or_self, Bool.false_eq_true, if_false, answered]

/-- What follows from any command leaves the tether log. -/
theorem settle_tether (s t : State) : (settle s t).tether = t.tether := by
  obtain ⟨-, -, -, hfollows⟩ := whatFollowsFromAnyCommand
  obtain ⟨hframe, -⟩ := hfollows s t
  obtain ⟨_, _, _, _, hsent⟩ := (drainAll_outgoing t).trans (issueReads_outgoing _)
  rw [hframe, hsent]

/-- An answer is no entry of the tether log. -/
theorem answered_tether (c : Chan) (code : Nat) (words : List Word) (s t : State) :
    (answered c code words s t).tether = t.tether := rfl

/-- Channel 0 as it holds a message of the unlisted opcode 0x0D01 with SEQ 1. -/
def unlistedMessage : Channel := { full := true, msg := (Vector.replicate 16 0).set 0 0x00010D01 }

/-- Firmware is READY, the tether log's writer runs, and channel 0 is FULL with a message of an unlisted opcode. -/
def unlistedWaits : State := { State.reset with
  boot.phase := .running, boot.fwState := 5, tether.running := true,
  mbx.chan := State.reset.mbx.chan.set 0 unlistedMessage }

/-- The message's header word, loaded, is one unit of the log. -/
theorem loaded_unlistedWaits_ringPos : (loaded 0 unlistedWaits).tether.ringPos = 1 := rfl

/-- Refutes O14: the model answers the unknown opcode without loading its message, so the log holds no LOAD entry of its
header (R739), which the statement has. -/
theorem not_unknownOpcodeAnswersOpcodeError : ¬ Obligations.UnknownOpcodeAnswersOpcodeError := by
  intro h
  have htakes : takes 0 unlistedWaits = true := rfl
  have hnew : replayed (msgOf 0 unlistedWaits) unlistedWaits = none := rfl
  have hnewLoaded : replayed (msgOf 0 unlistedWaits) (loaded 0 unlistedWaits) = none := rfl
  have hunknown : knownOpcodes.contains (msgOf 0 unlistedWaits).opcode = false := by decide
  have hstates := Host.Outcome.next.inj
    ((exec_unknownOpcode_new htakes hnew hunknown).symm.trans (h 0 unlistedWaits htakes hnewLoaded hunknown))
  have hring : unlistedWaits.tether.ringPos = (loaded 0 unlistedWaits).tether.ringPos := by
    simpa only [settle_tether, answered_tether] using congrArg (fun t : State => t.tether.ringPos) hstates
  rw [loaded_unlistedWaits_ringPos] at hring
  exact absurd hring (by decide)

end Sys2Proof.Machine
end

section
/-!
PROOFS. The short commands of the NET, DMA and PROFILE families (R338 to R340, R386, R388, R389, R391, R392, R468, R470;
Table 07-10; log 108).
-/
namespace Sys2Proof.Machine
open Sys2Proof Sys2Proof.Claims

/-! ### DMA.INFO's fill figures (R338; log 108) -/

/-- Reads outstanding are none where none is under way, else a free value within the tags of Table 07-1. -/
theorem readsOutstanding_spec (s : State) : ∃ n k, readsOutstanding s = (n, { s with free := s.free + k }) ∧
    (readsUnderWay s = false → n = 0) ∧ n ≤ 512 ∧ (s.pcie.tag10 = false → n ≤ 256) := by
  cases hreads : readsUnderWay s with
  | false => exact ⟨0, 0, by rw [readsOutstanding, hreads]; rfl, fun _ => rfl, by omega, fun _ => by omega⟩
  | true =>
    refine ⟨(freeValue s).1.toNat % (if s.pcie.tag10 then 513 else 257), 1, by rw [readsOutstanding, hreads]; rfl,
      fun hnone => Bool.noConfusion hnone, ?_, fun htag => ?_⟩
    · split <;> omega
    · rw [htag]
      exact Nat.le_of_lt_succ (Nat.mod_lt _ (by decide))

/-- A buffer holds nothing where nothing moves, else a free value up to its size. -/
theorem bufferUse_spec (moving : Bool) (limit : Nat) (s : State) :
    ∃ n k, bufferUse moving limit s = (n, { s with free := s.free + k }) ∧ (moving = false → n = 0) ∧ n ≤ limit := by
  cases moving with
  | false => exact ⟨0, 0, rfl, fun _ => rfl, Nat.zero_le _⟩
  | true => exact ⟨_, 1, rfl, fun hnone => Bool.noConfusion hnone, Nat.le_of_lt_succ (Nat.mod_lt _ (Nat.succ_pos _))⟩

/-- DMA.INFO answers the link, the three figures and the shares; only free values are used up. -/
theorem dmaInfo_act (m : Msg) (s : State) : ∃ n rd wr k,
    dmaInfo.act m s = (rOk, [pcieLink s, w32 n, w32 rd, w32 wr, pack [(4, s.dma.shareWr.toNat), (0, s.dma.shareRd.toNat)]],
      { s with free := s.free + k }) ∧
    (readsUnderWay s = false → n = 0 ∧ rd = 0) ∧ (writesUnderWay s = false → wr = 0) ∧
    n ≤ 512 ∧ (s.pcie.tag10 = false → n ≤ 256) ∧ rd ≤ 1536 * 1024 ∧ wr ≤ 512 * 1024 := by
  obtain ⟨n, i, hn, hidle, hmax, hmax8⟩ := readsOutstanding_spec s
  obtain ⟨rd, j, hrd, hrdIdle, hrdMax⟩ := bufferUse_spec (readsUnderWay s) (1536 * 1024) { s with free := s.free + i }
  obtain ⟨wr, k, hwr, hwrIdle, hwrMax⟩ := bufferUse_spec (writesUnderWay s) (512 * 1024) { s with free := s.free + i + j }
  refine ⟨n, rd, wr, i + j + k, ?_, fun hnone => ⟨hidle hnone, hrdIdle hnone⟩, hwrIdle, hmax, hmax8, hrdMax, hwrMax⟩
  simp only [dmaInfo, hn, hrd, hwr, ← Nat.add_assoc]

/-! ### Answers that depend on what exists -/

/-- The words of a queue pair that exists (R391). -/
theorem netQpQuery_act {m : Msg} {s : State} {q : Qp} (hq : getQp (portOf m) (qpIndex m) s = some q) :
    netQpQuery.act m s = (rOk, queryWords q, s) := by
  simp only [netQpQuery, hq]

/-- The words of a profile that was set (R468). -/
theorem profileGet_act_set {m : Msg} {s : State} {p : Profile} (hp : getN s.cmp.profile (m.f 1 0 5) none = some p) :
    profileGet.act m s =
      (rOk, [p.p2, p.p3, p.p4, p.p5, pack [(0, b2n true), (8, boundTo (m.f 1 0 5) s)]], s) := by
  simp only [profileGet, hp, Option.isSome_some]

/-- The words of a profile that was not set (R468). -/
theorem profileGet_act_unset {m : Msg} {s : State} (hp : getN s.cmp.profile (m.f 1 0 5) none = none) :
    profileGet.act m s = (rOk, [0, 0, 0, 0, pack [(0, b2n false), (8, boundTo (m.f 1 0 5) s)]], s) := by
  simp only [profileGet, hp, Option.isSome_none]

/-- Settles O22: each row runs a short form; the answers that depend on what exists have a lemma for each case. -/
theorem netDmaProfileQueriesAnswer : Obligations.NetDmaProfileQueriesAnswer := by
  refine ⟨answers_of_commandOf (fun _ => rfl) (fun _ => rfl) (fun _ _ => rfl), ?qpQuery,
    answers_of_commandOf (fun _ => rfl) (fun _ => rfl) (fun _ _ => rfl), ?info,
    answers_of_commandOf (fun _ => rfl) (fun _ => rfl) (fun _ _ => rfl),
    answers_of_commandOf (fun _ => rfl) (fun _ => rfl) ?profile,
    answers_of_commandOf (fun _ => rfl) (fun _ => rfl) (fun _ _ => rfl)⟩
  case qpQuery =>
    intro c s q haccepted hq
    rw [exec_commandOf (i := .netQpQuery c) rfl, runCommand_short _ c s haccepted rfl, netQpQuery_act hq]
    rfl
  case info =>
    intro c s haccepted l
    obtain ⟨n, rd, wr, k, hact, hfigures⟩ := dmaInfo_act (msgOf c s) l
    refine ⟨n, rd, wr, k, ?_, hfigures⟩
    rw [exec_commandOf (i := .dmaInfo c) rfl, runCommand_short _ c s haccepted rfl, hact]
    rfl
  case profile =>
    intro m s
    cases hp : getN s.cmp.profile (m.f 1 0 5) none with
    | some p => exact profileGet_act_set hp
    | none => exact profileGet_act_unset hp

/-- Settles O23: each row runs a short form whose one effect is the setting. -/
theorem netDmaSettingsComplete : Obligations.NetDmaSettingsComplete :=
  ⟨answers_of_commandOf (fun _ => rfl) (fun _ => rfl) (fun _ _ => rfl),
   answers_of_commandOf (fun _ => rfl) (fun _ => rfl) (fun _ _ => rfl),
   answers_of_commandOf (fun _ => rfl) (fun _ => rfl) (fun _ _ => rfl),
   answers_of_commandOf (fun _ => rfl) (fun _ => rfl) (fun _ _ => rfl)⟩

end Sys2Proof.Machine
end

section
/-!
PROOFS. SQ pulls, payloads, landings, reads that fail, and the descriptors of host channels (R300, R302, R303, R306, R311,
R312, R315, R328, R330 to R332; Tables 07-5, 07-8 and 07-21).
-/
namespace Sys2Proof.Machine
open Sys2Proof

/-! ### The meaning of each command -/

theorem exec_sqPull (i : Strm) (es : List (BitVec 512)) (s : State) : exec (.sqPull i es) s = execSqPull i es s := rfl

theorem exec_payloadPullDone (i : Strm) (idx : Nat) (payload : List Byte) (s : State) :
    exec (.payloadPullDone i idx payload) s = execPayloadPullDone i idx payload s := rfl

theorem exec_landing (r : Nat) (s : State) : exec (.landing r) s = execLanding r s := rfl

theorem exec_readCompletionError (t : ReadTarget) (e : ReadError) (s : State) :
    exec (.readCompletionError t e) s = execReadCompletionError t e s := rfl

theorem exec_cplTimeout (t : ReadTarget) (s : State) : exec (.cplTimeout t) s = execCplTimeout t s := rfl

theorem exec_descriptorFetch (c : Fin 8) (d : BitVec 256) (s : State) :
    exec (.descriptorFetch c d) s = execDescriptorFetch c d s := rfl

theorem exec_descriptorEnd (c : Fin 8) (e : DescEnd) (s : State) :
    exec (.descriptorEnd c e) s = execDescriptorEnd c e s := rfl

/-! ### The DMA transfer buffer (Table 19-6) -/

/-- The transfer goes on where injector 3 is not armed. -/
theorem throughBuffer_unarmed {s : State} (go : State → State)
    (h : (s.dbg.armed.find? (fun a => a.code == 3)) = none) : throughBuffer go s = go s := by
  simp only [throughBuffer, takeInjector, Bool.and_true, h]

/-! ### The commands where their event can occur -/

theorem exec_sqPull_comes {i : Strm} {es : List (BitVec 512)} {s : State} (hcomes : pullComes i es.length s = true) :
    let t := es.foldl (pullEntry i) (count 0x8200 (64 * es.length)
      (emit (.hostRead (sqPlace s.ing.stream[i]) (64 * es.length) false false) { s with dma.sqOut := none }))
    exec (.sqPull i es) s = .next (settle s (drainPulls i (2 * t.ing.stream[i].pulls.length) t)) := by
  intro t
  rw [exec_sqPull, execSqPull]
  apply done_eq
  exact if_neg (by rw [hcomes]; decide)

theorem exec_payloadPullDone_whole {i : Strm} {idx : Nat} {p : Pull} {payload : List Byte} {s : State}
    (hopen : openPull i idx s = some p) (hlen : payload.length = p.len) (halive : pcieAlive s = true)
    (hunarmed : (s.dbg.armed.find? (fun a => a.code == 3)) = none) :
    exec (.payloadPullDone i idx payload) s = .next (settle s (payloadIn i p payload s)) := by
  rw [exec_payloadPullDone, execPayloadPullDone]
  apply done_eq
  simp only [hopen]
  rw [if_pos ⟨hlen, halive⟩, throughBuffer_unarmed _ hunarmed]

theorem exec_landing_record {r : Nat} {v : Rec} {s : State} (hv : getRec r s = some v) :
    let t := if v.landed then s else landRec r s
    exec (.landing r) s = .next (settle s (postStaged v.stream t.ing.stream[v.stream].order.length t)) := by
  intro t
  rw [exec_landing, execLanding]
  apply done_eq
  simp only [hv, t]

/-- What a failing read does, by how its completion fails: UR, CA or poison (Table 07-8, R831). -/
def readError (t : ReadTarget) (e : ReadError) (s : State) : State :=
  match e with
  | .ur => readFailed t 1 s
  | .ca => readFailed t 2 s
  | .poison => readFailed t 4 (raise1 1 (leafCode 0 3) 0 [] s)

theorem exec_readCompletionError_open {t : ReadTarget} {e : ReadError} {s : State} (hopen : readOpen t s = true) :
    exec (.readCompletionError t e) s = .next (settle s (readError t e s)) := by
  rw [exec_readCompletionError, execReadCompletionError]
  apply done_eq
  exact if_neg (by rw [hopen]; decide)

theorem exec_cplTimeout_open {t : ReadTarget} {s : State} (hopen : readOpen t s = true) :
    exec (.cplTimeout t) s =
      .next (settle s (readFailed t 3 (count 0x8218 1 (raise1 1 (leafCode 0 2) 0 [] s)))) := by
  rw [exec_cplTimeout, execCplTimeout]
  apply done_eq
  exact if_neg (by rw [hopen]; decide)

theorem exec_descriptorFetch_comes {c : Fin 8} {d : BitVec 256} {s : State} (hcomes : fetchComes c s = true) :
    let t := count 0x8200 32 (modHost c (fun h => { h with fetching := false }) s)
    exec (.descriptorFetch c d) s = .next (settle s (
      match descRefused d t with
      | some (code, detail) => failDesc c code detail t
      | none => modHost c (fun h => { h with desc := some d, asked := false }) t)) := by
  intro t
  rw [exec_descriptorFetch, execDescriptorFetch]
  apply done_eq
  exact if_neg (by rw [hcomes]; decide)

/-- Data of the channel's descriptor, read from the host, come whole (R309, R312). -/
theorem exec_descriptorEnd_in {c : Fin 8} {d : BitVec 256} {bs : List Byte} {s : State}
    (hd : s.dma.chan[c].desc = some d) (hunarmed : (s.dbg.armed.find? (fun a => a.code == 3)) = none)
    (hdir : descDir d = false) (hasked : s.dma.chan[c].asked = true) (halive : pcieAlive s = true)
    (hlen : bs.length = descLen d) :
    exec (.descriptorEnd c (.data bs)) s = .next (settle s (descIn c d bs s)) := by
  have hcomes : endComes c d s = true := by simp only [endComes, hdir, hasked, halive]; rfl
  rw [exec_descriptorEnd, execDescriptorEnd]
  apply done_eq
  simp only [hd, hcomes, hdir, hlen, Bool.not_true, Bool.false_eq_true, if_false, if_true,
    throughBuffer_unarmed _ hunarmed]

/-- The channel's descriptor writes to the host, its barrier's read going out too (R307, R312). -/
theorem exec_descriptorEnd_out {c : Fin 8} {d : BitVec 256} {bs : List Byte} {s : State}
    (hd : s.dma.chan[c].desc = some d) (hunarmed : (s.dbg.armed.find? (fun a => a.code == 3)) = none)
    (hdir : descDir d = true) (hissues : pcieIssues s = true) (hwr : s.dma.shareWr ≠ 0)
    (hrd : descBarrier d = true → s.dma.shareRd ≠ 0) :
    exec (.descriptorEnd c (.data bs)) s = .next (settle s (descOut c d s)) := by
  have hbarrierRead : (!descBarrier d || s.dma.shareRd != 0) = true := by
    cases hbarrier : descBarrier d with
    | false => rfl
    | true => exact bne_iff_ne.mpr (hrd hbarrier)
  have hcomes : endComes c d s = true := by
    simp only [endComes, hdir, hissues, bne_iff_ne.mpr hwr, hbarrierRead]
    rfl
  rw [exec_descriptorEnd, execDescriptorEnd]
  apply done_eq
  simp only [hd, hcomes, hdir, Bool.not_true, Bool.false_eq_true, if_false, if_true, throughBuffer_unarmed _ hunarmed]

/-- Settles O50: each clause is its command's lemma, where the event can occur. -/
theorem submissionAndHostChannelEventsComplete : Obligations.SubmissionAndHostChannelEventsComplete :=
  ⟨fun _ _ _ hcomes => exec_sqPull_comes hcomes,
   fun _ _ _ _ _ hopen hlen halive hunarmed => exec_payloadPullDone_whole hopen hlen halive hunarmed,
   fun _ _ _ hv => exec_landing_record hv,
   fun _ _ hopen => ⟨exec_readCompletionError_open hopen, exec_readCompletionError_open hopen,
     exec_readCompletionError_open hopen, exec_cplTimeout_open hopen⟩,
   fun _ _ _ hcomes => exec_descriptorFetch_comes hcomes,
   fun _ _ _ _ hd hunarmed => ⟨exec_descriptorEnd_in hd hunarmed, exec_descriptorEnd_out hd hunarmed⟩⟩

end Sys2Proof.Machine
end

section
/-!
PROOFS. Staging memory as its requesters reach it: BAR2, narrow writes, write-backs, the scrubber, and a failing stack (R316,
R411, R414 to R419, R422, R428, R429, R831; Table 09-4).
-/
namespace Sys2Proof.Machine
open Sys2Proof

/-! ### The meaning of each command -/

theorem exec_bar2Read (off len : Nat) (u : Upset) (s : State) : exec (.bar2Read off len u) s = execBar2Read off len u s := rfl

theorem exec_bar2Write (off : Nat) (data : List Byte) (poisoned : Bool) (s : State) :
    exec (.bar2Write off data poisoned) s = execBar2Write off data poisoned s := rfl

theorem exec_narrowWrite (src : NarrowSrc) (off : Nat) (data : List Byte) (u : Upset) (s : State) :
    exec (.narrowWrite src off data u) s = execNarrowWrite src off data u s := rfl

theorem exec_mergeWriteBack (line : Nat) (s : State) :
    exec (.mergeWriteBack line) s = .next (settle s (writeBack line s)) := rfl

theorem exec_scrubLine (line : Nat) (u : Upset) (s : State) : exec (.scrubLine line u) s = execScrubLine line u s := rfl

theorem exec_stackFail (k : Fin 4) (s : State) : exec (.stackFail k) s = execStackFail k s := rfl

/-! ### The commands where their event can occur -/

theorem exec_bar2Read_up {off len : Nat} {u : Upset} {s : State} (hup : hostUp s = true) (hlen : 0 < len) :
    exec (.bar2Read off len u) s = .next (settle s (
      if hostReach false off len s then
        (match (readRange off len u s).2.1 with
          | .ok => emit (.bar2Read off (readRange off len u s).1 false) (readRange off len u s).2.2
          | .bad => emit (.bar2Read off (List.replicate len 0xFF) true) (afterRead .bad [] (readRange off len u s).2.2)
          | .control => afterRead .control [] (readRange off len u s).2.2)
      else urBar2 off s)) := by
  have hsome : (len == 0) = false := beq_false_of_ne (Nat.ne_of_gt hlen)
  rw [exec_bar2Read, execBar2Read]
  apply done_eq
  rw [hup, hsome]
  cases hreach : hostReach false off len s <;> rfl

/-- A write that reaches staging, where it is narrow in part and where it is not (Table 09-4, R414). -/
theorem bar2Store_eq (off : Nat) (data : List Byte) (s : State) : bar2Store off data s =
    if hostReach true off data.length s = false then urBar2 off s
    else if (off % 64 ≠ 0 ∨ (off + data.length) % 64 ≠ 0) ∧ hostMerges s = false then urBar2 off (rejectNarrow s)
    else (writeMerged off data s).2 := by
  simp only [bar2Store, hasNarrow, Bool.not_eq_true', Bool.and_eq_true, decide_eq_true_eq]

theorem exec_bar2Write_poisoned {off : Nat} {data : List Byte} {s : State} (hup : hostUp s = true) (hdata : data ≠ []) :
    exec (.bar2Write off data true) s = .next (settle s (raise1 1 (leafCode 0 3) 0 [] s)) := by
  rw [exec_bar2Write, execBar2Write]
  apply done_eq
  exact if_neg (by rw [hup, List.isEmpty_eq_false_iff.mpr hdata]; decide)

theorem exec_bar2Write_up {off : Nat} {data : List Byte} {s : State} (hup : hostUp s = true) (hdata : data ≠ []) :
    exec (.bar2Write off data false) s = .next (settle s (bar2Store off data s)) := by
  rw [exec_bar2Write, execBar2Write]
  apply done_eq
  exact if_neg (by rw [hup, List.isEmpty_eq_false_iff.mpr hdata]; decide)

theorem exec_narrowWrite_bar2 {off : Nat} {data : List Byte} {u : Upset} {s : State}
    (hnarrow : isNarrow off data.length = true) (hup : hostUp s = true) (hreach : hostReach true off data.length s = true) :
    exec (.narrowWrite .bar2 off data u) s = .next (settle s (
      if hostMerges s then (mergeWrite off data u s).2 else urBar2 off (rejectNarrow s))) := by
  rw [exec_narrowWrite, execNarrowWrite]
  apply done_eq
  simp only [hnarrow, hup, hreach]
  cases hostMerges s <;> rfl

/-- A host channel's write within its descriptor fails the descriptor out of reach, in direct mode, and where its merge is
abandoned without a reset (R316, R414, R428). -/
theorem exec_narrowWrite_dma {c : Fin 8} {d : BitVec 256} {off : Nat} {data : List Byte} {u : Upset} {s : State}
    (hnarrow : isNarrow off data.length = true) (hd : s.dma.chan[c].desc = some d) (hdir : descDir d = false)
    (hasked : s.dma.chan[c].asked = true) (halive : pcieAlive s = true) (hlo : descStg d ≤ off)
    (hhi : off + data.length ≤ descStg d + descLen d) :
    exec (.narrowWrite (.dma c) off data u) s = .next (settle s (
      if hostReach true off data.length s = false then failDesc c rParam 0x07 s
      else if hostMerges s then
        (if (mergeWrite off data u s).1 = .aborted ∧ (mergeWrite off data u s).2.boot.phase = s.boot.phase then
          failDesc c rFault 0x05 (mergeWrite off data u s).2
        else (mergeWrite off data u s).2)
      else failDesc c rParam 0x06 (rejectNarrow s))) := by
  have hinside : ¬(off < descStg d ∨ descStg d + descLen d < off + data.length) := by omega
  rw [exec_narrowWrite, execNarrowWrite]
  apply done_eq
  simp only [hnarrow, hd, hdir, hasked, halive, hinside]
  cases hostReach true off data.length s with
  | false => rfl
  | true =>
    cases hostMerges s with
    | false => rfl
    | true =>
      cases (mergeWrite off data u s).1 with
      | done => simp
      | aborted => simp

theorem exec_narrowWrite_sup {off : Nat} {data : List Byte} {u : Upset} {s : State}
    (hnarrow : isNarrow off data.length = true) (hrun : supRuns s = true) (hlaid : s.stg.laidOut = true)
    (hoff : off < 256 * extBytes) :
    exec (.narrowWrite .sup off data u) s = .next (settle s (mergeWrite off data u s).2) := by
  rw [exec_narrowWrite, execNarrowWrite]
  apply done_eq
  simp only [hnarrow, hrun, hlaid, decide_eq_true hoff]
  rfl

theorem exec_scrubLine_valid {line : Nat} {u : Upset} {s : State} (hscrub : s.stg.scrubbing = true)
    (hvalid : lineValid line s = true) :
    let r := readAny line u (writeBack line s)
    exec (.scrubLine line u) s = .next (settle s (afterRead r.1 [] (
      if lastScrubbed line r.2 then count 0x8428 1 r.2 else r.2))) := by
  intro r
  rw [exec_scrubLine, execScrubLine]
  apply done_eq
  exact if_neg (by rw [hscrub, hvalid]; decide)

theorem exec_stackFail_working {k : Fin 4} {s : State} (hok : s.stg.stackOk.getLsbD k.val = true) :
    exec (.stackFail k) s =
      .next (settle s (raise3 6 (leafCode 0 6) 0 { s with stg.stackOk := clrBit s.stg.stackOk k.val })) := by
  rw [exec_stackFail, execStackFail]
  exact done_if hok

/-- Settles O51: each clause is its command's lemma, for each source of a narrow write its own. -/
theorem stagingEventsComplete : Obligations.StagingEventsComplete :=
  ⟨fun _ _ _ _ hup hlen => exec_bar2Read_up hup hlen,
   fun off data s hup hdata => ⟨exec_bar2Write_poisoned hup hdata,
     (exec_bar2Write_up hup hdata).trans (by rw [bar2Store_eq off data s, urBar2])⟩,
   fun _ _ _ _ hnarrow => ⟨fun hup hreach => exec_narrowWrite_bar2 hnarrow hup hreach,
     fun _ _ hd hdir hasked halive hlo hhi => exec_narrowWrite_dma hnarrow hd hdir hasked halive hlo hhi,
     fun hrun hlaid hoff => exec_narrowWrite_sup hnarrow hrun hlaid hoff⟩,
   fun line s => exec_mergeWriteBack line s,
   fun _ _ _ hscrub hvalid => exec_scrubLine_valid hscrub hvalid,
   fun _ _ hok => exec_stackFail_working hok⟩

end Sys2Proof.Machine
end

section
/-!
PROOFS. The long commands of the NET and RESTORE families (R252, R376, R387, R390, R684, R700, R710 to R712).
-/
namespace Sys2Proof.Machine
open Sys2Proof Sys2Proof.Claims

/-! ### The meaning of each command -/

theorem exec_netPortEnable (c : Chan) (s : State) : exec (.netPortEnable c) s = done (runCommand netPortEnable c) s := rfl

theorem exec_netPortDisable (c : Chan) (s : State) :
    exec (.netPortDisable c) s = done (runCommand netPortDisable c) s := rfl

theorem exec_netQpDestroy (c : Chan) (s : State) : exec (.netQpDestroy c) s = done (runCommand netQpDestroy c) s := rfl

theorem exec_restoreRecord (c : Chan) (s : State) : exec (.restoreRecord c) s = done (runCommand restoreRecord c) s := rfl

theorem exec_restoreIndex (c : Chan) (s : State) : exec (.restoreIndex c) s = done (runCommand restoreIndex c) s := rfl

theorem exec_restoreRebuild (c : Chan) (s : State) : exec (.restoreRebuild c) s = done (runCommand restoreRebuild c) s := rfl

/-- Settles O24: each row runs a long form, which begins its work: the port's settings, the port idle (R387; at once, and
with an enabling in flight ended, by log 119), the draining QP (R390), the resolved request (R684), the scan or its place
behind the one that runs (R710, R711; log 146). -/
theorem netRestoreLongCommandsBegin : Obligations.NetRestoreLongCommandsBegin :=
  ⟨begins_of_runCommand exec_netPortEnable (fun _ => rfl) rfl,
   begins_of_runCommand exec_netPortDisable (fun _ => rfl) rfl,
   begins_of_runCommand exec_netQpDestroy (fun _ => rfl) rfl,
   begins_of_runCommand exec_restoreRecord (fun _ => rfl) rfl,
   begins_of_runCommand exec_restoreIndex (fun _ => rfl) rfl,
   begins_of_runCommand exec_restoreRebuild (fun _ => rfl) rfl⟩

end Sys2Proof.Machine
end

section
/-!
PROOFS. Pause sent and received, and the link, alignment, hold-time and FEC events of a port (R366, R368, R381 to R383,
R385, R387; Tables 08-8 and 08-12).
-/
namespace Sys2Proof.Machine
open Sys2Proof

/-! ### A port changed -/

theorem modPort_port_self (p : Port) (f : EthPort → EthPort) (s : State) :
    (modPort p f s).net.port[p] = f s.net.port[p] := by
  rw [modPort_net, upd_get, if_pos rfl]

/-- A PFC frame carries the enables that stand once the port has changed. -/
theorem sendPfc_modPort {p : Port} {f : EthPort → EthPort} {s : State} (quanta : Nat)
    (hen : (f s.net.port[p]).pfcEn = s.net.port[p].pfcEn) :
    sendPfc p quanta (modPort p f s) = emit (.pfc p s.net.port[p].pfcEn (BitVec.ofNat 16 quanta))
      (ethCount p 0x28 1 (ethCount p 0x08 64 (modPort p f s))) := by
  rw [sendPfc, modPort_port_self, hen]

/-! ### The meaning of each command -/

theorem exec_xoff (p : Port) (s : State) : exec (.xoff p) s = execXoff p s := rfl

theorem exec_pfcRepeat (p : Port) (s : State) : exec (.pfcRepeat p) s = execPfcRepeat p s := rfl

theorem exec_xon (p : Port) (s : State) : exec (.xon p) s = execXon p s := rfl

theorem exec_pfcReceived (p : Port) (q : List (BitVec 16)) (en : Byte) (s : State) :
    exec (.pfcReceived p q en) s = execPfcReceived p q en s := rfl

theorem exec_receivedPauseExpiry (p : Port) (prio : Fin 8) (s : State) :
    exec (.receivedPauseExpiry p prio) s = execReceivedPauseExpiry p prio s := rfl

theorem exec_pfcLong (p : Port) (rx : Bool) (s : State) : exec (.pfcLong p rx) s = execPfcLong p rx s := rfl

theorem exec_linkUp (p : Port) (s : State) : exec (.linkUp p) s = execLinkUp p s := rfl

theorem exec_ethLinkDown (p : Port) (align : Bool) (s : State) :
    exec (.ethLinkDown p align) s = execEthLinkDown p align s := rfl

theorem exec_linkHoldExpiry (p : Port) (s : State) : exec (.linkHoldExpiry p) s = execLinkHoldExpiry p s := rfl

theorem exec_portAlignTimeout (p : Port) (s : State) : exec (.portAlignTimeout p) s = execPortAlignTimeout p s := rfl

theorem exec_fecUncorr (w : FecWord) (s : State) : exec (.fecUncorr w) s = execFecUncorr w s := rfl

/-! ### Pause -/

theorem exec_xoff_reached {p : Port} {s : State} (hup : portUp p s = true) (hfree : s.net.port[p].pausedTx = 0)
    (hen : s.net.port[p].pfcEn ≠ 0) (hlevel : s.net.port[p].xoff * 1024 ≤ rxLevel p s) :
    exec (.xoff p) s = .next (settle s (emit (.pfc p s.net.port[p].pfcEn 65535)
      (ethCount p 0x28 1 (ethCount p 0x08 64 (modPort p (fun e => { e with pausedTx := e.pfcEn }) s))))) := by
  rw [exec_xoff, execXoff]
  apply done_eq
  rw [if_pos (by rw [hup, hfree, bne_iff_ne.mpr hen, decide_eq_true hlevel]; rfl)]
  exact sendPfc_modPort 65535 rfl

theorem exec_pfcRepeat_pausing {p : Port} {s : State} (hup : portUp p s = true) (hpause : s.net.port[p].pausedTx ≠ 0) :
    exec (.pfcRepeat p) s = .next (settle s (emit (.pfc p s.net.port[p].pfcEn 65535)
      (ethCount p 0x28 1 (ethCount p 0x08 64 s)))) := by
  rw [exec_pfcRepeat, execPfcRepeat]
  exact done_if (by rw [hup, bne_iff_ne.mpr hpause]; rfl)

theorem exec_xon_reached {p : Port} {s : State} (hup : portUp p s = true) (hpause : s.net.port[p].pausedTx ≠ 0)
    (hlevel : rxLevel p s ≤ s.net.port[p].xon * 1024) :
    exec (.xon p) s = .next (settle s (emit (.pfc p s.net.port[p].pfcEn 0)
      (ethCount p 0x28 1 (ethCount p 0x08 64 (modPort p (fun e => { e with pausedTx := 0, longTx := false }) s))))) := by
  rw [exec_xon, execXon]
  apply done_eq
  rw [if_pos (by rw [hup, bne_iff_ne.mpr hpause, decide_eq_true hlevel]; rfl)]
  exact sendPfc_modPort 0 rfl

theorem exec_pfcReceived_up {p : Port} {s : State} (q : List (BitVec 16)) (en : Byte) (hup : portUp p s = true) :
    let e := s.net.port[p]
    exec (.pfcReceived p q en) s = .next (settle s (setPausedRx p (ofBits 8 (fun i =>
      if en.getLsbD i && e.pfcEn.getLsbD i then (q.getD i 0) != 0 else e.pausedRx.getLsbD i))
      (ethCount p 0x30 1 (ethCount p 0x00 64 s)))) := by
  intro e
  rw [exec_pfcReceived, execPfcReceived]
  exact done_if_not (by rw [hup]; decide)

theorem exec_receivedPauseExpiry_paused {p : Port} {prio : Fin 8} {s : State}
    (hpause : s.net.port[p].pausedRx.getLsbD prio.val = true) :
    exec (.receivedPauseExpiry p prio) s =
      .next (settle s (setPausedRx p (clrBit s.net.port[p].pausedRx prio.val) s)) := by
  rw [exec_receivedPauseExpiry, execReceivedPauseExpiry]
  exact done_if hpause

theorem exec_pfcLong_received {p : Port} {s : State} (hup : portUp p s = true) (hpause : s.net.port[p].pausedRx ≠ 0) :
    exec (.pfcLong p true) s =
      .next (settle s (setLeaf (3 + p.val) 4 (modPort p (fun e => { e with longRx := true }) s))) := by
  rw [exec_pfcLong, execPfcLong]
  apply done_eq
  dsimp only
  rw [hup, bne_iff_ne.mpr hpause]
  rfl

theorem exec_pfcLong_sent {p : Port} {s : State} (hup : portUp p s = true) (hpause : s.net.port[p].pausedTx ≠ 0) :
    exec (.pfcLong p false) s =
      .next (settle s (setLeaf (3 + p.val) 4 (modPort p (fun e => { e with longTx := true }) s))) := by
  rw [exec_pfcLong, execPfcLong]
  apply done_eq
  dsimp only
  rw [hup, bne_iff_ne.mpr hpause]
  rfl

/-! ### Link -/

theorem exec_linkUp_down {p : Port} {s : State} (hrun : portRuns p s = true)
    (hdown : s.net.port[p].link = false ∨ s.net.port[p].aligned = false) :
    let t := modPort p (fun e => { e with link := true, aligned := true, holdRuns := false, dad := 0 }) s
    exec (.linkUp p) s = .next (settle s (completeWhere (fun w => w = .portEnable p) rOk []
      (ring 11 (setLeaf (3 + p.val) 0 { t with power.pll := setBit t.power.pll (2 + p.val) })))) := by
  intro t
  rw [exec_linkUp, execLinkUp]
  refine done_if_not ?_
  rcases hdown with h | h <;> simp [-Fin.getElem_fin, hrun, h]

/-- The link is lost, with the alignment (R381). -/
theorem exec_ethLinkDown_link {p : Port} {s : State} (hrun : portRuns p s = true) (hlink : s.net.port[p].link = true) :
    exec (.ethLinkDown p false) s = .next (settle s (raise1 (3 + p.val) (leafCode 0 1) 0 []
      (modPort p (fun e => { e with link := false, aligned := false, holdRuns := true }) s))) := by
  rw [exec_ethLinkDown, execEthLinkDown]
  apply done_eq
  rw [ethDown, hrun, if_neg Bool.false_ne_true, hlink]
  simp

/-- The alignment alone is lost: the link stays (R381). -/
theorem exec_ethLinkDown_align {p : Port} {s : State} (hrun : portRuns p s = true)
    (haligned : s.net.port[p].aligned = true) :
    exec (.ethLinkDown p true) s = .next (settle s (raise1 (3 + p.val) (leafCode 0 2) 0 []
      (modPort p (fun e => { e with aligned := false, holdRuns := true }) s))) := by
  rw [exec_ethLinkDown, execEthLinkDown]
  apply done_eq
  simp [-Fin.getElem_fin, ethDown, hrun, haligned]

theorem exec_linkHoldExpiry_running {p : Port} {s : State} (hrun : s.net.port[p].holdRuns = true) :
    exec (.linkHoldExpiry p) s = .next (settle s ((List.finRange 64).foldl (fun s i => match getQp p i s with
      | some q => if q.state = .rts then qpError p i 0xB 0 s else s
      | none => s) (modPort p (fun e => { e with holdRuns := false }) s))) := by
  rw [exec_linkHoldExpiry, execLinkHoldExpiry]
  exact done_if_not (by rw [hrun]; decide)

theorem exec_portAlignTimeout_unaligned {p : Port} {s : State} (haligned : s.net.port[p].aligned = false) :
    exec (.portAlignTimeout p) s =
      .next (settle s (completeWhere (fun w => w = .portEnable p) rMedia [] s)) := by
  rw [exec_portAlignTimeout, execPortAlignTimeout]
  exact done_if_not (by rw [haligned]; decide)

theorem exec_fecUncorr_up {w : FecWord} {s : State} (hup : portUp w.port s = true) :
    exec (.fecUncorr w) s = .next (settle s (if w.corrected then ethCount w.port 0x18 1 s
      else setLeaf (3 + w.port.val) 3 (ethCount w.port 0x20 1 s))) := by
  rw [exec_fecUncorr, execFecUncorr]
  exact done_if_not (by rw [hup]; decide)

/-- Settles O48: each clause is its command's lemma, where the event can occur. That XON ends PFC_LONG_TX is log 184's, the
PLL bit of a link that comes up log 87's, and the port that stays enabled after its timeout log 119's. -/
theorem ethernetPauseAndLinkEventsComplete : Obligations.EthernetPauseAndLinkEventsComplete :=
  ⟨fun _ _ hup hfree hen hlevel => exec_xoff_reached hup hfree hen hlevel,
   fun _ _ hup hpause => exec_pfcRepeat_pausing hup hpause,
   fun _ _ hup hpause hlevel => exec_xon_reached hup hpause hlevel,
   fun _ q en _ hup => exec_pfcReceived_up q en hup,
   fun _ _ _ hpause => exec_receivedPauseExpiry_paused hpause,
   fun _ _ hup => ⟨exec_pfcLong_received hup, exec_pfcLong_sent hup⟩,
   fun _ _ hrun hdown => exec_linkUp_down hrun hdown,
   fun _ _ hrun => ⟨exec_ethLinkDown_link hrun, exec_ethLinkDown_align hrun⟩,
   fun _ _ hrun => exec_linkHoldExpiry_running hrun,
   fun _ _ haligned => exec_portAlignTimeout_unaligned haligned,
   fun _ _ hup => ⟨exec_fecUncorr_up hup, exec_fecUncorr_up hup⟩⟩

end Sys2Proof.Machine
end

section
/-!
PROOFS. Inbound packets and the taking of closing packets; acknowledgements, timeouts and NAKs of outbound messages; the end
of a draining queue pair (R347, R348, R352, R359, R364, R365, R369, R370, R373, R376, R379, R390).
-/
namespace Sys2Proof.Machine
open Sys2Proof

/-! ### Ports and queue pairs as frames are counted and buffers change -/

/-- Of a port's change, only what it makes of the port as it stands matters. -/
theorem modPort_congr {p : Port} {f g : EthPort → EthPort} {s : State} (h : f s.net.port[p] = g s.net.port[p]) :
    modPort p f s = modPort p g s := by
  simp only [modPort, upd, Fin.getElem_fin] at h ⊢
  rw [h]

/-- A port that is up runs, with its link up and aligned. -/
theorem portUp_iff (p : Port) (s : State) : portUp p s = true ↔
    portRuns p s = true ∧ s.net.port[p].link = true ∧ s.net.port[p].aligned = true := by
  simp only [portUp, Bool.and_eq_true, and_assoc]

theorem getQp_ethCount (p q : Port) (i : Fin 64) (off k : Nat) (s : State) :
    getQp p i (ethCount q off k s) = getQp p i s := rfl

theorem portRuns_modPort {p : Port} {f : EthPort → EthPort} {s : State}
    (h : (f s.net.port[p]).enabled = s.net.port[p].enabled) : portRuns p (modPort p f s) = portRuns p s := by
  rw [portRuns, modPort_port_self, h]
  rfl

theorem getQp_modPort {p : Port} {f : EthPort → EthPort} {i : Fin 64} {s : State}
    (h : (f s.net.port[p]).qp = s.net.port[p].qp) : getQp p i (modPort p f s) = getQp p i s := by
  rw [getQp, modPort_port_self, h]
  rfl

/-- A port is `p` or the other one. -/
theorem eq_or_eq_otherPort : ∀ p q : Port, q = p ∨ q = otherPort p := by decide

theorem otherPort_ne : ∀ p : Port, p ≠ otherPort p := by decide

theorem otherPort_otherPort : ∀ p : Port, otherPort (otherPort p) = p := by decide

theorem modPort_port_other (p : Port) (f : EthPort → EthPort) (s : State) :
    (modPort p f s).net.port[otherPort p] = s.net.port[otherPort p] := by
  rw [modPort_net, upd_get, if_neg (otherPort_ne p)]

/-! ### Lengths of frames -/

/-- A frame is at most 89 bytes longer than what stands between base header and ICRC. -/
theorem frameBytes_le (v6 tag : Bool) (ext : Nat) : frameBytes v6 tag ext ≤ ext + 89 := by
  have htag : b2n tag ≤ 1 := by cases tag <;> decide
  have hip : (if v6 then 40 else 20 : Nat) ≤ 40 := by cases v6 <;> decide
  unfold frameBytes
  omega

theorem extBytesOf_le (k : RocePkt) : extBytesOf k ≤ k.payload.length + 20 := by
  unfold extBytesOf
  split <;> omega

/-- The queue pair tells the IP version, so no free value is used up. -/
theorem rxFrameBytes_of_qp {p : Port} {i : Fin 64} {q : Qp} {s : State} (ext : Nat) (hq : getQp p i s = some q) :
    rxFrameBytes p i.val ext s = (frameBytes (isV6 q.remote) (tagged s.net.port[p]) ext, s) := by
  rw [getQp] at hq
  unfold rxFrameBytes
  dsimp only
  rw [getN_fin, hq]

/-- The index of the addressed queue pair is its number's distance from the port's first (R347). -/
theorem val_of_qpOf {p : Port} {k : RocePkt} {i : Fin 64} (h : qpOf p k = some i) :
    k.qpn.toNat - (0x400 + 64 * p.val) = i.val := by
  dsimp only [qpOf] at h
  split at h
  · exact congrArg Fin.val (Option.some.inj h)
  · contradiction

theorem rxBytes_of_qp {p : Port} {k : RocePkt} {i : Fin 64} {q : Qp} {s : State} (hi : qpOf p k = some i)
    (hq : getQp p i s = some q) :
    rxBytes p k s = (frameBytes (isV6 q.remote) (tagged s.net.port[p]) (extBytesOf k), s) := by
  rw [rxBytes, val_of_qpOf hi, rxFrameBytes_of_qp _ hq]

theorem rxLevel_of_empty {p : Port} {s : State} (h : s.net.port[p].rx = []) : rxLevel p s = 0 := by
  rw [rxLevel, h]
  rfl

/-! ### The packet that stands alone in the buffers -/

theorem psnBehind_self (a : BitVec 24) : psnBehind a a = false := by
  simp [psnBehind]

/-- What the transport's checks make of an expected packet: its fate and the state. -/
def expectedFate (p : Port) (i : Fin 64) (q : Qp) (k : RocePkt) (s : State) : PktFate × State :=
  match checkPkt q k with
  | .bad kind leaf nak => (.gone, nakError p i k.psn kind leaf nak s)
  | .noCredit first => (.gone, ethCount p 0x50 1 (sendNak p i first 3
      (modQp p i (fun q => { q with msg := none, expPsn := first }) s)))
  | .good m => if opCloses k.op then (.waits, s) else (.gone, landPkt p i q k m s)

/-- An expected packet of a resolved queue pair in RTS meets the transport's checks. -/
theorem meetQp_expected {p : Port} {i : Fin 64} {q : Qp} {k : RocePkt} {s : State} (hi : qpOf p k = some i)
    (hq : getQp p i s = some q) (hop : k.op ≠ .cnp) (hlen : k.payload.length ≤ 4096) (hres : q.resolved = true)
    (hrts : q.state = .rts) (hpsn : k.psn = q.expPsn) : meetQp p k s = expectedFate p i q k s := by
  have hbehind : ¬ psnBehind k.psn q.expPsn = true := by rw [hpsn, psnBehind_self]; decide
  have hstate : ∀ x : QpState, x ≠ .rts → ¬ q.state = x := fun x hx h => hx (h.symm.trans hrts)
  rw [meetQp, hi]
  dsimp only
  rw [hq]
  dsimp only
  rw [if_neg hop, if_neg (Nat.not_lt.mpr hlen), if_neg (by rw [hres]; decide), if_neg (hstate .error (by decide)),
    if_neg (hstate .draining (by decide)), if_neg hbehind, if_neg (fun hne => hne hpsn)]
  rfl

theorem headGoes_of_empty {p : Port} {s : State} (h : s.net.port[p].rx = []) : headGoes p s = false := by
  rw [headGoes, h]

/-- With one packet in the buffers and the pipe free, that packet is served whichever port is next (R370). -/
theorem servePipe_alone {p : Port} {k : RocePkt} {s : State} (hpipe : s.net.pipe = 0) (hrx : s.net.port[p].rx = [k])
    (hother : s.net.port[otherPort p].rx = []) (hrun : portRuns p s = true) :
    servePipe s = if (meetQp p k s).1 = .gone then
        occupyPipe p k.payload.length (modPort p (fun e => { e with rx := [] }) (meetQp p k s).2)
      else s := by
  have hidle : headGoes (otherPort p) s = false := headGoes_of_empty hother
  have hhead : headGoes p s = ((meetQp p k s).1 == .gone) := by
    rw [headGoes, hrx]
    simp only [hrun, Bool.true_and]
  have hpass : passHead p s =
      occupyPipe p k.payload.length (modPort p (fun e => { e with rx := [] }) (meetQp p k s).2) := by
    rw [passHead, hrx]
  rw [← hpass]
  unfold servePipe
  rcases eq_or_eq_otherPort p s.net.turn with hturn | hturn <;>
    simp [-Fin.getElem_fin, hpipe, hturn, otherPort_otherPort, hidle, hhead]

/-! ### The meaning of each command -/

theorem exec_inboundPacket (p : Port) (k : RocePkt) (s : State) :
    exec (.inboundPacket p k) s = execInboundPacket p k s := rfl

theorem exec_closingPacketTaken (p : Port) (s : State) :
    exec (.closingPacketTaken p) s = execClosingPacketTaken p s := rfl

theorem exec_outboundAck (p : Port) (i : Fin 64) (a : RoceAck) (s : State) :
    exec (.outboundAck p i a) s = execOutboundAck p i a s := rfl

theorem exec_ackTimeout (p : Port) (i : Fin 64) (s : State) : exec (.ackTimeout p i) s = execAckTimeout p i s := rfl

theorem exec_remoteNak (p : Port) (i : Fin 64) (s : State) : exec (.remoteNak p i) s = execRemoteNak p i s := rfl

theorem exec_qpDestroyDone (p : Port) (i : Fin 64) (s : State) :
    exec (.qpDestroyDone p i) s = execQpDestroyDone p i s := rfl

/-! ### Inbound packets -/

/-- A packet without CE that finds the buffers empty enters the receive buffer and may be served at once. -/
theorem exec_inboundPacket_alone {p : Port} {i : Fin 64} {q : Qp} {k : RocePkt} {s : State} (hup : portUp p s = true)
    (hrx : s.net.port[p].rx = []) (hi : qpOf p k = some i) (hq : getQp p i s = some q) (hce : k.ce = false)
    (hlen : k.payload.length ≤ 4096) :
    exec (.inboundPacket p k) s = .next (settle s (servePipe
      (modPort p (fun e => { e with rx := [k] }) (ethCount p 0x00 (rxBytes p k s).1 s)))) := by
  have hroom : ¬ rxLevel p (ethCount p 0x00 (rxBytes p k s).1 s) + (rxBytes p k s).1 > 4194304 := by
    have hempty : rxLevel p (ethCount p 0x00 (rxBytes p k s).1 s) = 0 := rxLevel_of_empty hrx
    have hframe := frameBytes_le (isV6 q.remote) (tagged s.net.port[p]) (extBytesOf k)
    have hext := extBytesOf_le k
    rw [hempty, rxBytes_of_qp hi hq]
    dsimp only
    omega
  have hstate : (rxBytes p k s).2 = s := by rw [rxBytes_of_qp hi hq]
  have henters : modPort p (fun e => { e with rx := e.rx ++ [k] }) (ethCount p 0x00 (rxBytes p k s).1 s) =
      modPort p (fun e => { e with rx := [k] }) (ethCount p 0x00 (rxBytes p k s).1 s) := by
    apply modPort_congr
    have hcounted : (ethCount p 0x00 (rxBytes p k s).1 s).net.port[p].rx = [] := hrx
    rw [hcounted]
    rfl
  rw [exec_inboundPacket, execInboundPacket]
  apply done_eq
  dsimp only
  rw [hstate, ite_arrive_of_portUp hup, if_neg hroom]
  simp only [hi, Option.bind_some, getQp_ethCount, hq, Option.map_some, hce, Bool.false_and, Bool.false_eq_true,
    if_false, henters]

theorem exec_inboundPacket_expected {p : Port} {i : Fin 64} {q : Qp} {k : RocePkt} {s : State}
    (hup : portUp p s = true) (hrx : s.net.port[p].rx = []) (hother : s.net.port[otherPort p].rx = [])
    (hpipe : s.net.pipe = 0) (hi : qpOf p k = some i) (hq : getQp p i s = some q) (hce : k.ce = false)
    (hop : k.op ≠ .cnp) (hlen : k.payload.length ≤ 4096) (hres : q.resolved = true) (hrts : q.state = .rts)
    (hpsn : k.psn = q.expPsn) :
    let t := modPort p (fun e => { e with rx := [k] }) (ethCount p 0x00 (rxBytes p k s).1 s)
    let through := fun (u : State) => occupyPipe p k.payload.length (modPort p (fun e => { e with rx := [] }) u)
    exec (.inboundPacket p k) s = .next (settle s (
      match checkPkt q k with
      | .bad kind leaf nak => through (nakError p i k.psn kind leaf nak t)
      | .noCredit first => through (ethCount p 0x50 1 (sendNak p i first 3
          (modQp p i (fun q => { q with msg := none, expPsn := first }) t)))
      | .good m => if opCloses k.op then t else through (landPkt p i q k m t))) := by
  intro t through
  have hrunT : portRuns p t = true := (portRuns_modPort rfl).trans ((portUp_iff p s).mp hup).1
  have hqT : getQp p i t = some q := (getQp_modPort rfl).trans hq
  have hrxT : t.net.port[p].rx = [k] := by rw [modPort_port_self]
  have hotherT : t.net.port[otherPort p].rx = [] := by rw [modPort_port_other]; exact hother
  have hpipeT : t.net.pipe = 0 := hpipe
  rw [exec_inboundPacket_alone hup hrx hi hq hce hlen, servePipe_alone hpipeT hrxT hotherT hrunT,
    meetQp_expected hi hqT hop hlen hres hrts hpsn, expectedFate]
  cases checkPkt q k with
  | bad kind leaf nak => rfl
  | noCredit first => rfl
  | good m => cases opCloses k.op <;> rfl

/-! ### Closing packets -/

/-- A good closing packet at the buffer's head is ready for ING unless a hold stands (R359, R373). -/
theorem closingReady_head {p : Port} {i : Fin 64} {q : Qp} {k : RocePkt} {rest : List RocePkt} {m : InMsg} {s : State}
    (hrx : s.net.port[p].rx = k :: rest) (hi : qpOf p k = some i) (hq : getQp p i s = some q)
    (hgood : checkPkt q k = .good m) (hrun : portRuns p s = true) (hclose : opCloses k.op = true) (hrts : q.state = .rts)
    (haccept : canAccept s = true) (hrefuse : refusalWaits q.stream s = false) :
    closingReady p s = if holdInForce s = true then none else some (i, q, k, m) := by
  unfold closingReady
  simp only [hrx, hi, Option.bind_some, hq, Option.map_some, hgood, hrun, hclose, hrts, haccept, hrefuse]
  cases holdInForce s <;> rfl

theorem exec_closingPacketTaken_held {p : Port} {s : State} (hready : closingReady p s = none) :
    exec (.closingPacketTaken p) s = .next (settle s s) := by
  rw [exec_closingPacketTaken, execClosingPacketTaken]
  apply done_eq
  rw [hready]

theorem exec_closingPacketTaken_ready {p : Port} {i : Fin 64} {q : Qp} {k : RocePkt} {m : InMsg} {s : State}
    (hready : closingReady p s = some (i, q, k, m)) (hpipe : s.net.pipe = 0)
    (hturn : s.net.turn = p ∨ closingReady (otherPort p) s = none) :
    exec (.closingPacketTaken p) s = .next (settle s (occupyPipe p k.payload.length
      (takeClosing p i q k m (modPort p (fun e => { e with rx := e.rx.tail }) s)))) := by
  have hfree : ¬(s.net.pipe ≠ 0 ∨ (s.net.turn ≠ p ∧ (closingReady (otherPort p) s).isSome = true)) := by
    rintro (hbusy | ⟨hnot, hsome⟩)
    · exact hbusy hpipe
    · rcases hturn with h | h
      · exact hnot h
      · rw [h] at hsome
        contradiction
  rw [exec_closingPacketTaken, execClosingPacketTaken]
  apply done_eq
  rw [hready]
  exact if_neg hfree

/-! ### Outbound messages -/

/-- An acknowledgement or NAK of a queue pair that exists is acted on, where the receive buffer has room (R367). -/
theorem arriveFor_of_qp {p : Port} {i : Fin 64} {q : Qp} {s : State} (act : State → State) (hq : getQp p i s = some q)
    (hup : portUp p s = true) :
    let b := frameBytes (isV6 q.remote) (tagged s.net.port[p]) 4
    let t := ethCount p 0x00 b s
    arriveFor p i act s = if rxLevel p t + b > 4194304 then ethCount p 0x10 1 t else act t := by
  intro b t
  have hqT : (getQp p i t).isSome = true := by rw [getQp_ethCount, hq]; rfl
  rw [arriveFor, rxFrameBytes_of_qp _ hq]
  dsimp only
  rw [ite_arrive_of_portUp hup, if_pos hqT]

theorem ackUpTo_of_qp {p : Port} {i : Fin 64} {q : Qp} {psn : BitVec 24} {s : State} (hq : getQp p i s = some q) :
    ackUpTo p i psn s = (q.outstanding.takeWhile (fun o => lastPsn o == psn || psnBehind (lastPsn o) psn)).foldl ackMsg
      (modQp p i (fun q => { q with outstanding := leftAfter psn q.outstanding }) s) := by
  rw [ackUpTo, hq]
  rfl

theorem retryAll_oldest {p : Port} {i : Fin 64} {q : Qp} {o : OutMsg} {rest : List OutMsg} {s : State}
    (hq : getQp p i s = some q) (hout : q.outstanding = o :: rest) :
    retryAll p i s = if o.retries = 0 then qpError p i 9 3 s
      else (o :: rest).foldl (resend p i q)
        (modQp p i (fun q => { q with outstanding := { o with retries := o.retries - 1 } :: rest }) s) := by
  unfold retryAll
  simp only [hq, hout]

theorem exec_outboundAck_arrives {p : Port} {i : Fin 64} {q : Qp} {s : State} (psn : BitVec 24) (nak : Bool)
    (hq : getQp p i s = some q) (hup : portUp p s = true) :
    let b := frameBytes (isV6 q.remote) (tagged s.net.port[p]) 4
    let t := ethCount p 0x00 b s
    exec (.outboundAck p i { psn := psn, nak := nak }) s = .next (settle s (
      if rxLevel p t + b > 4194304 then ethCount p 0x10 1 t
      else if nak then retryAll p i (ackUpTo p i (psn - 1) t) else ackUpTo p i psn t)) := by
  intro b t
  rw [exec_outboundAck, execOutboundAck]
  exact done_eq (arriveFor_of_qp _ hq hup)

theorem exec_ackTimeout_oldest {p : Port} {i : Fin 64} {q : Qp} {o : OutMsg} {rest : List OutMsg} {s : State}
    (hq : getQp p i s = some q) (hout : q.outstanding = o :: rest) :
    exec (.ackTimeout p i) s = .next (settle s (
      if o.retries = 0 then qpError p i 9 3 s
      else (o :: rest).foldl (resend p i q)
        (modQp p i (fun q => { q with outstanding := { o with retries := o.retries - 1 } :: rest }) s))) := by
  rw [exec_ackTimeout, execAckTimeout]
  exact done_eq (retryAll_oldest hq hout)

theorem exec_remoteNak_outstanding {p : Port} {i : Fin 64} {q : Qp} {s : State} (hq : getQp p i s = some q)
    (hup : portUp p s = true) (hout : q.outstanding ≠ []) :
    let b := frameBytes (isV6 q.remote) (tagged s.net.port[p]) 4
    let t := ethCount p 0x00 b s
    exec (.remoteNak p i) s = .next (settle s (
      if rxLevel p t + b > 4194304 then ethCount p 0x10 1 t else qpError p i 0xC 0 t)) := by
  intro b t
  have hsome : ¬ q.outstanding.isEmpty = true := by rwa [List.isEmpty_iff]
  rw [exec_remoteNak, execRemoteNak]
  apply done_eq
  rw [arriveFor_of_qp _ hq hup]
  simp only [getQp_ethCount, hq, if_neg hsome, b, t]

/-- The partition is free, no frame of the queue pair waits, and its ticket completes with the discarded records (R390). -/
theorem exec_qpDestroyDone_drained {p : Port} {i : Fin 64} {q : Qp} {s : State} (hq : getQp p i s = some q)
    (hdrain : q.state = .draining) (hfoot : q.footprints = []) (hout : q.outstanding = []) :
    let t := modPort p (fun e => { e with qp := upd e.qp i (fun _ => none) })
      (dropFrames true p i (freeExtents ((List.range q.mib).map (fun k => q.base + k)) s))
    exec (.qpDestroyDone p i) s = .next (settle s (match q.ticket with
      | some t' => completeTicket t' rOk [w32 q.discarded] t
      | none => t)) := by
  intro t
  have hgone : ¬(q.state != .draining || !q.footprints.isEmpty || !q.outstanding.isEmpty) = true := by
    rw [hdrain, hfoot, hout]
    decide
  rw [exec_qpDestroyDone, execQpDestroyDone]
  apply done_eq
  rw [hq]
  exact if_neg hgone

/-- Settles O47: each clause is its command's lemma; a closing packet waits for ING where a hold stands, and is taken where
none does. -/
theorem rocePacketsAndMessagesComplete : Obligations.RocePacketsAndMessagesComplete := by
  refine ⟨?_, ?_, ?_, ?_, ?_, ?_⟩
  · intro p i q k s hup hrx hother hpipe hi hq hce hop hlen hres hrts hpsn
    exact exec_inboundPacket_expected hup hrx hother hpipe hi hq hce hop hlen hres hrts hpsn
  · intro p i q k rest m s hrx hi hq hgood hrun hclose hrts haccept hrefuse
    have hready := closingReady_head hrx hi hq hgood hrun hclose hrts haccept hrefuse
    constructor
    · intro hheld
      exact exec_closingPacketTaken_held (hready.trans (if_pos hheld))
    · intro hheld
      exact exec_closingPacketTaken_ready (hready.trans (if_neg (by rw [hheld]; decide)))
  · intro p i q psn nak s hq hup
    exact ⟨exec_outboundAck_arrives psn nak hq hup, ackUpTo_of_qp hq⟩
  · exact fun _ _ _ _ _ _ hq hout => exec_ackTimeout_oldest hq hout
  · exact fun _ _ _ _ hq hup hout => exec_remoteNak_outstanding hq hup hout
  · exact fun _ _ _ _ hq hdrain hfoot hout => exec_qpDestroyDone_drained hq hdrain hfoot hout

end Sys2Proof.Machine
end

section
/-!
PROOFS. A whole line written, and a poisoned one, as they read (R395, R396, R407, R409, R410, R412, R413, R415, R422).
-/
namespace Sys2Proof.Machine
open Sys2Proof

/-! ### Storing a line where no flip mask is armed (R413, R433) -/

theorem fireFlip_unarmed {l : Nat} {s : State} (hunarmed : s.stg.flipCtrl.getLsbD 31 = false) : fireFlip l s = s := by
  unfold fireFlip
  exact if_neg (by rw [hunarmed]; exact fun h => Bool.noConfusion h.1)

theorem storeWhole_unarmed {l : Nat} {s : State} (bs : List Byte) (hunarmed : s.stg.flipCtrl.getLsbD 31 = false) :
    storeWhole l bs s = storeLine l bs s := fireFlip_unarmed hunarmed

@[simp] theorem fireFlip_merge (l : Nat) (s : State) : (fireFlip l s).stg.merge = s.stg.merge := by
  obtain ⟨_, _, _, _, h⟩ := fireFlip_eq l s
  rw [h]

/-- The merge buffer's entry of a line is gone. -/
def dropEntry (l : Nat) (s : State) : State := { s with stg.merge := s.stg.merge.filter (fun m => m.line ≠ l) }

theorem writeBack_entry {l : Nat} {m : MergeLine} {s : State} (hm : s.stg.merge.find? (fun m => m.line = l) = some m) :
    writeBack l s = count 0x8410 1 (storeWhole l m.data (dropEntry l s)) := by
  rw [writeBack, hm]
  rfl

theorem writeBack_unarmed {l : Nat} {m : MergeLine} {s : State} (hunarmed : s.stg.flipCtrl.getLsbD 31 = false)
    (hm : s.stg.merge.find? (fun m => m.line = l) = some m) :
    writeBack l s = count 0x8410 1 (storeLine l m.data (dropEntry l s)) := by
  have hdropped : (dropEntry l s).stg.flipCtrl.getLsbD 31 = false := hunarmed
  rw [writeBack_entry hm, storeWhole_unarmed m.data hdropped]

theorem writeBack_flipCtrl {l : Nat} {s : State} (hunarmed : s.stg.flipCtrl.getLsbD 31 = false) :
    (writeBack l s).stg.flipCtrl = s.stg.flipCtrl := by
  cases hm : s.stg.merge.find? (fun m => m.line = l) with
  | none => rw [writeBack_none l s hm]
  | some m => rw [writeBack_unarmed hunarmed hm]; rfl

/-- A write-back leaves no entry of its line (R422). -/
theorem writeBack_merge (l : Nat) (s : State) : ∀ m ∈ (writeBack l s).stg.merge, m.line ≠ l := by
  cases hm : s.stg.merge.find? (fun m => m.line = l) with
  | none =>
    rw [writeBack_none l s hm]
    simpa using List.find?_eq_none.mp hm
  | some m =>
    rw [writeBack_entry hm, count_stg, storeWhole, fireFlip_merge]
    intro x hx
    simpa using (List.mem_filter.mp hx).2

theorem writeLine_unarmed {l : Nat} {s : State} (bs : List Byte) (hunarmed : s.stg.flipCtrl.getLsbD 31 = false) :
    writeLine l bs s = storeLine l bs (writeBack l s) :=
  storeWhole_unarmed bs (by rw [writeBack_flipCtrl hunarmed]; exact hunarmed)

/-! ### The line as it reads (R407, R409, R412) -/

@[simp] theorem upsetLine_nil (l : Nat) (s : State) : upsetLine l [] s = s := by
  unfold upsetLine
  split <;> rfl

theorem lineValid_storeLine {l k : Nat} (bs : List Byte) (s : State) :
    lineValid k (storeLine l bs s) = if k / 64 = l / 64 then true else lineValid k s := by
  unfold lineValid
  simp only [storeLine, setBytes_stg, spGet_spSet]
  split
  · exact Bool.or_true _
  · rfl

theorem storeLine_errs (l k : Nat) (bs : List Byte) (s : State) :
    spGet [] (storeLine l bs s).stg.errs k = if k = l then [] else spGet [] s.stg.errs k := by
  simp only [storeLine, setBytes_stg, spGet_spSet]

theorem storeLine_poison (l k : Nat) (bs : List Byte) (s : State) :
    spGet 0 (storeLine l bs s).stg.poison k = if k = l then 0 else spGet 0 s.stg.poison k := by
  simp only [storeLine, setBytes_stg, spGet_spSet]

theorem lineBytes_storeLine {bs : List Byte} (l : Nat) (s : State) (hlen : bs.length = 64) :
    lineBytes l (storeLine l bs s) = bs := by
  apply List.ext_getElem
  · simp [lineBytes, hlen]
  · intro i h₁ h₂
    have hin : 64 * l ≤ 64 * l + i ∧ 64 * l + i < 64 * l + bs.length := by omega
    simp only [lineBytes, List.getElem_map, List.getElem_range, storeLine_mem, setBytes_get, if_pos hin,
      Nat.add_sub_cancel_left]
    rw [List.getD_eq_getElem?_getD, List.getElem?_eq_getElem h₂, Option.getD_some]

/-- A valid line without errors and poison reads as stored. -/
theorem readLine_clean {l : Nat} {s : State} (hvalid : lineValid l s = true) (hpoison : spGet 0 s.stg.poison l = 0)
    (herrs : spGet [] s.stg.errs l = []) : readLine l [] s = (lineBytes l s, .ok, s) := by
  unfold readLine
  simp only [upsetLine_nil, hvalid, hpoison, herrs, Bool.not_true, Bool.false_eq_true, if_false, ne_eq, not_true_eq_false]

theorem readLine_storeLine {bs : List Byte} (l : Nat) (s : State) (hlen : bs.length = 64) :
    readLine l [] (storeLine l bs s) = (bs, .ok, storeLine l bs s) := by
  rw [readLine_clean (by rw [lineValid_storeLine, if_pos rfl]) (by rw [storeLine_poison, if_pos rfl])
    (by rw [storeLine_errs, if_pos rfl]), lineBytes_storeLine l s hlen]

/-- A valid line that is poisoned reads bad, or as a control error, by its region (R396, R409). -/
theorem readLine_poisoned {l : Nat} {s : State} (hvalid : lineValid l s = true) (hpoison : spGet 0 s.stg.poison l ≠ 0) :
    (readLine l [] s).2.1 = if isControl l s then .control else .bad := by
  unfold readLine
  simp only [upsetLine_nil, hvalid, Bool.not_true, Bool.false_eq_true, if_false, if_pos hpoison]
  split <;> rfl

theorem lineValid_poisonLine (l k : Nat) (s : State) :
    lineValid k (poisonLine l s) = lineValid k (storeLine l (List.replicate 64 0) s) := by
  simp only [lineValid, poisonLine]

theorem poisonLine_poison (l : Nat) (s : State) : spGet 0 (poisonLine l s).stg.poison l = 0xA5 := by
  simp only [poisonLine, spGet_spSet, if_true]

theorem isControl_poisonLine (l k : Nat) (s : State) : isControl k (poisonLine l s) = isControl k s := by
  have hlaid : (poisonLine l s).stg.laidOut = s.stg.laidOut := by
    simp only [poisonLine, storeLine, setBytes_stg]
  have hring : (poisonLine l s).stg.ringExtents = s.stg.ringExtents := by
    simp only [poisonLine, storeLine, setBytes_stg]
  rw [isControl, isControl, payloadBase, payloadBase, hlaid, hring]

theorem readLine_poisonLine (l : Nat) (s : State) :
    (readLine l [] (poisonLine l s)).2.1 = if isControl l s then .control else .bad := by
  have hvalid : lineValid l (poisonLine l s) = true := by rw [lineValid_poisonLine, lineValid_storeLine, if_pos rfl]
  rw [readLine_poisoned hvalid (by rw [poisonLine_poison]; decide), isControl_poisonLine]

/-! ### What a whole write leaves as it was -/

/-- Reads of staging see no difference but in line `l`, and in which lines of its block are valid. -/
structure DiffersInLine (l : Nat) (s t : State) : Prop where
  valid : ∀ k, k / 64 ≠ l / 64 → lineValid k t = lineValid k s
  bytes : ∀ a, a / 64 ≠ l → spGet 0 t.stg.mem a = spGet 0 s.stg.mem a
  marks : ∀ k, k ≠ l → spGet [] t.stg.errs k = spGet [] s.stg.errs k ∧ spGet 0 t.stg.poison k = spGet 0 s.stg.poison k

theorem DiffersInLine.trans {l : Nat} {s t u : State} (h : DiffersInLine l s t) (k : DiffersInLine l t u) :
    DiffersInLine l s u where
  valid i hi := (k.valid i hi).trans (h.valid i hi)
  bytes a ha := (k.bytes a ha).trans (h.bytes a ha)
  marks i hi := ⟨(k.marks i hi).1.trans (h.marks i hi).1, (k.marks i hi).2.trans (h.marks i hi).2⟩

/-- No more bytes than a line holds stay within it. -/
theorem storeLine_differsInLine {bs : List Byte} (l : Nat) (s : State) (hlen : bs.length ≤ 64) :
    DiffersInLine l s (storeLine l bs s) where
  valid k hk := by rw [lineValid_storeLine, if_neg hk]
  bytes a ha := by
    rw [storeLine_mem]
    exact setBytes_get_other _ _ _ _ (by omega)
  marks k hk := by
    rw [storeLine_errs, storeLine_poison, if_neg hk, if_neg hk]
    exact ⟨rfl, rfl⟩

theorem writeBack_differsInLine {l : Nat} {s : State} (hunarmed : s.stg.flipCtrl.getLsbD 31 = false)
    (hfit : ∀ m ∈ s.stg.merge, m.line = l → m.data.length ≤ 64) : DiffersInLine l s (writeBack l s) := by
  cases hm : s.stg.merge.find? (fun m => m.line = l) with
  | none =>
    rw [writeBack_none l s hm]
    exact ⟨fun _ _ => rfl, fun _ _ => rfl, fun _ _ => ⟨rfl, rfl⟩⟩
  | some m =>
    have hlen := hfit m (List.mem_of_find?_eq_some hm) (by simpa using List.find?_some hm)
    have hstored := storeLine_differsInLine l (dropEntry l s) hlen
    rw [writeBack_unarmed hunarmed hm]
    exact ⟨hstored.valid, hstored.bytes, hstored.marks⟩

/-- A whole line reads back, and nothing else reads otherwise, where the merge buffer holds no more than a line's 64 bytes
for it, as R415 has an entry hold. -/
theorem writeLine_readsBack_of_entries_fit {l : Nat} {bs : List Byte} {s : State} (hlen : bs.length = 64)
    (hunarmed : s.stg.flipCtrl.getLsbD 31 = false) (hfit : ∀ m ∈ s.stg.merge, m.line = l → m.data.length ≤ 64) :
    readLine l [] (writeLine l bs s) = (bs, .ok, writeLine l bs s) ∧
    (∀ m ∈ (writeLine l bs s).stg.merge, m.line ≠ l) ∧
    (∀ k, k / 64 = l / 64 → lineValid k (writeLine l bs s) = true) ∧ DiffersInLine l s (writeLine l bs s) := by
  rw [writeLine_unarmed bs hunarmed]
  exact ⟨readLine_storeLine l _ hlen, writeBack_merge l s, fun k hk => (lineValid_storeLine bs _).trans (if_pos hk),
    (writeBack_differsInLine hunarmed hfit).trans (storeLine_differsInLine l _ (Nat.le_of_eq hlen))⟩

/-! ### An entry of the merge buffer that is longer than its line -/

/-- A write-back stores every byte of its entry: the 65th goes to the line behind. -/
theorem writeLine_spills {l : Nat} {bs : List Byte} {m : MergeLine} {s : State} (hlen : bs.length = 64)
    (hm : s.stg.merge.find? (fun m => m.line = l) = some m) (hlong : 64 < m.data.length) :
    spGet 0 (writeLine l bs s).stg.mem (64 * (l + 1)) = m.data[64] := by
  rw [writeLine, storeWhole_mem, setBytes_get_other _ _ _ _ (by omega), writeBack_entry hm, count_stg, storeWhole_mem,
    setBytes_get, if_pos (by omega), show 64 * (l + 1) - 64 * l = 64 by omega]
  rw [List.getD_eq_getElem?_getD, List.getElem?_eq_getElem hlong, Option.getD_some]

/-- An entry of line 0 that holds 65 bytes, each 0xFF. -/
def overlongEntry : MergeLine := { line := 0, data := List.replicate 65 0xFF, mask := 0 }

/-- The reset state with that entry in the merge buffer. -/
def overlongMerge : State := { State.reset with stg.merge := [overlongEntry] }

/-- Refutes O6: it speaks of every state, also of one whose merge buffer holds 65 bytes for line 0; the write-back ahead of
the whole write (R422) then changes byte 64, which is none of line 0. -/
theorem not_wholeLineReadsBackAndPoisonReadsBad : ¬ Obligations.WholeLineReadsBackAndPoisonReadsBad := by
  rintro ⟨hwrite, -⟩
  have hlen : (List.replicate 64 (0 : Byte)).length = 64 := rfl
  obtain ⟨-, -, -, -, hbytes, -⟩ := hwrite 0 (List.replicate 64 0) overlongMerge hlen rfl
  have hspilt : spGet 0 (writeLine 0 (List.replicate 64 0) overlongMerge).stg.mem 64 = 0xFF :=
    writeLine_spills (l := 0) (m := overlongEntry) hlen rfl (by decide)
  have hkept : spGet 0 (writeLine 0 (List.replicate 64 0) overlongMerge).stg.mem 64 = 0 := hbytes 64 (by decide)
  rw [hspilt] at hkept
  exact absurd hkept (by decide)

end Sys2Proof.Machine
end

section
/-!
PROOFS. Compression: dispatch, blocks that leave their engine, and an engine's self-test (R427, R453, R455, R457, R458, R463,
R465).
-/
namespace Sys2Proof.Machine
open Sys2Proof

/-! ### The meaning of each command -/

theorem exec_cmpDispatch (s : State) : exec .cmpDispatch s = execCmpDispatch s := rfl

theorem exec_blockCoded (e : Fin 16) (selfOk : Bool) (s : State) :
    exec (.blockCoded e selfOk) s = execBlockCoded e selfOk s := rfl

theorem exec_engineKatStart (e : Fin 16) (s : State) : exec (.engineKatStart e) s = execEngineKatStart e s := rfl

theorem exec_engineKatDone (e : Fin 16) (pass : Bool) (s : State) :
    exec (.engineKatDone e pass) s = execEngineKatDone e pass s := rfl

/-! ### The commands where their event can occur -/

/-- An injector that is not armed does not fire. -/
theorem takeInjector_unarmed {code : Nat} {p : Injector → Bool} {s : State}
    (h : s.dbg.armed.find? (fun a => a.code == code && p a) = none) : takeInjector code p s = (none, s) := by
  rw [takeInjector, h]

/-- The engine has a job. -/
def giveJob (e : Fin 16) (j : CmpJob) (s : State) : State :=
  { s with cmp.engine := upd s.cmp.engine e (fun x => { x with job := some j }) }

theorem exec_cmpDispatch_decode {e : Fin 16} {r : Nat} {s p : State} (hon : cmpOn s = true) (hpack : packAll s = p)
    (hfree : (List.finRange 16).find? (fun e => engineFree e p) = some e) (hwaits : decodeWaiting p = some r) :
    exec .cmpDispatch s = .next (settle s (giveJob e (.decode r) p)) := by
  rw [exec_cmpDispatch, execCmpDispatch]
  apply done_eq
  simp only [hon, hpack, hfree, hwaits, Bool.not_true, Bool.false_eq_true, if_false, giveJob]

theorem exec_cmpDispatch_code {e : Fin 16} {i : Strm} {r k : Nat} {s p : State} (hon : cmpOn s = true)
    (hpack : packAll s = p) (hfree : (List.finRange 16).find? (fun e => engineFree e p) = some e)
    (hnone : decodeWaiting p = none) (hstuck : packStuck p = false)
    (hnext : (roundFrom p.cmp.turn).findSome? (fun i => (nextToCode i p).map (fun x => (i, x))) = some (i, r, k)) :
    exec .cmpDispatch s = .next (settle s (giveJob e (.code r k) (modRec r (fun v => { v with holder := .cmp })
      (modBlk r k (fun b => { b with st := .inEngine }) { p with cmp.turn := i.val })))) := by
  rw [exec_cmpDispatch, execCmpDispatch]
  apply done_eq
  simp only [hon, hpack, hfree, hnone, hstuck, hnext, Bool.not_true, Bool.false_eq_true, if_false, giveJob]

theorem exec_blockCoded_disagreeing {e : Fin 16} {r k : Nat} {s : State} (hon : cmpOn s = true)
    (hjob : s.cmp.engine[e].job = some (.code r k))
    (hunarmed : (s.dbg.armed.find? (fun a => a.code == 4 && decide (a.p2.toNat = e.val))) = none) :
    exec (.blockCoded e false) s = .next (settle s (selfCheckFailed e r s)) := by
  rw [exec_blockCoded, execBlockCoded]
  apply done_eq
  simp only [hon, hjob, takeInjector_unarmed hunarmed]
  rfl

theorem exec_blockCoded_agreeing {e : Fin 16} {r k : Nat} {v : Rec} {orig : List Byte} {s t : State}
    (hon : cmpOn s = true) (hjob : s.cmp.engine[e].job = some (.code r k))
    (hunarmed : (s.dbg.armed.find? (fun a => a.code == 4 && decide (a.p2.toNat = e.val))) = none)
    (hv : getRec r s = some v) (hopen : v.verdict = none)
    (hread : readHeld r (blockRanges (profileOf v.stream s) v k) s = (some orig, t)) :
    exec (.blockCoded e true) s = .next (settle s (blockCoded e r k orig v t)) := by
  rw [exec_blockCoded, execBlockCoded]
  apply done_eq
  simp only [hon, hjob, takeInjector_unarmed hunarmed, hv, hopen, hread]
  rfl

theorem exec_engineKatStart_due {e : Fin 16} {s : State} (hon : cmpOn s = true) (hrun : supRuns s = true)
    (hdue : s.cmp.engine[e].katDue = true) :
    exec (.engineKatStart e) s = .next (settle s { s with
      cmp.engine := upd s.cmp.engine e (fun x => { x with katDue := false, kat := true }) }) := by
  rw [exec_engineKatStart, execEngineKatStart]
  exact done_if (by rw [hon, hrun, hdue]; rfl)

theorem exec_engineKatDone_runs {e : Fin 16} {s : State} (pass : Bool) (hon : cmpOn s = true)
    (hkat : s.cmp.engine[e].kat = true) :
    exec (.engineKatDone e pass) s = .next (settle s { s with
      cmp.engine := upd s.cmp.engine e (fun x => { x with kat := false, off := !pass }) }) := by
  rw [exec_engineKatDone, execEngineKatDone]
  exact done_if (by rw [hon, hkat]; rfl)

/-- Settles O52: each clause is its command's lemma, for what waits and for how the self-check ends. -/
theorem compressionEventsComplete : Obligations.CompressionEventsComplete := by
  refine ⟨?_, ?_, ?_, ?_⟩
  · intro e s hon hfree
    generalize hpack : packAll s = p at hfree ⊢
    exact ⟨fun r hwaits => exec_cmpDispatch_decode hon hpack hfree hwaits,
      fun i r k hnone hstuck hnext => exec_cmpDispatch_code hon hpack hfree hnone hstuck hnext⟩
  · intro e r k s hon hjob hunarmed
    exact ⟨exec_blockCoded_disagreeing hon hjob hunarmed,
      fun v orig t hv hopen hread => exec_blockCoded_agreeing hon hjob hunarmed hv hopen hread⟩
  · intro e s hon hrun hdue
    exact exec_engineKatStart_due hon hrun hdue
  · intro e pass s hon hkat
    exact exec_engineKatDone_runs pass hon hkat

end Sys2Proof.Machine
end

section
/-!
PROOFS. The tether log: FOLLOW header lines, anchors, CHECK and EPOCH entries, and the end of an export (R396, R742, R747,
R748, R751, R752, R756, R757, R761, R762, R765).
-/
namespace Sys2Proof.Machine
open Sys2Proof

/-! ### The meaning of each command -/

theorem exec_followHeader (s : State) : exec .followHeader s = execFollowHeader s := rfl

theorem exec_anchorStart (s : State) : exec .anchorStart s = execAnchorStart s := rfl

theorem exec_anchorDone (s : State) : exec .anchorDone s = execAnchorDone s := rfl

theorem exec_check (pc instret crc : BitVec 64) (s : State) :
    exec (.check pc instret crc) s = execCheck pc instret crc s := rfl

theorem exec_epoch (s : State) : exec .epoch s = execEpoch s := rfl

theorem exec_tetherExportDone (detail : Nat) (s : State) :
    exec (.tetherExportDone detail) s = execTetherExportDone detail s := rfl

/-! ### The commands where their event can occur -/

theorem exec_followHeader_issues {e : Export} {s : State} (he : s.tether.exporting = some e) (hsource : e.source = 2)
    (hissues : pcieIssues s = true) :
    let x := exportReads (e.units / 4) (e.owed.map (·.1)) s
    let r := followAll e x.2
    exec .followHeader s = .next (settle s (
      if x.1 then raise4 6 (leafCode 0 7) x.2
      else { exportWrite e.addr (exportHeader 2 r.1.anchors.toNat (r.1.done % 2 ^ 64) r.1.first r.1.last r.2) r.2 with
        tether.exporting := some r.1 })) := by
  intro x r
  rw [exec_followHeader, execFollowHeader]
  apply done_eq
  simp only [he]
  exact if_neg (by rw [hsource, hissues]; decide)

theorem exec_anchorStart_runs {s : State} (hrun : coreRuns s = true) :
    exec .anchorStart s = .next (settle s (startAnchor s)) := by
  rw [exec_anchorStart, execAnchorStart]
  exact done_if hrun

theorem exec_anchorDone_anchoring {k : Fin 2} {s : State} (hk : s.tether.anchoring = some k) :
    let image := (freeValue s).2.free
    let t : State := { (freeValue s).2 with free := image + imageLength / 8 }
    let u := logEntry 0x03 (k.val + 256 * ((freeValue s).1.toNat % 2 ^ 56)) [(crc64 (imageBytes image)).toNat] t
    exec .anchorDone s = .next (settle s (followImage k image (storeAnchor k.val { u with
      tether.anchoring := none,
      tether.anchor := upd u.tether.anchor k (fun _ =>
        some { epoch := t.tether.epoch.toNat, stamp := now t, image := image }) }))) := by
  intro image t u
  rw [exec_anchorDone, execAnchorDone]
  apply done_eq
  simp only [hk]
  rfl

theorem exec_check_runs {s : State} (pc instret crc : BitVec 64) (hrun : coreRuns s = true) :
    exec (.check pc instret crc) s = .next (settle s (
      logEntry 0x06 instret.toNat [pc.toNat % 2 ^ 40 + 2 ^ 64 * crc.toNat] s)) := by
  rw [exec_check, execCheck]
  exact done_if hrun

theorem exec_epoch_clocked {s : State} (hclk : s.power.cclk = true) :
    exec .epoch s = .next (settle s (wrapStamp s)) := by
  rw [exec_epoch, execEpoch]
  exact done_if hclk

/-! ### The end of an export (R751, R762, R765) -/

/-- An export's last write needs PCIe only where it goes to host memory. -/
theorem exportEnds_of_lent_or_issues {e : Export} {s : State} (hgoes : e.lent.isSome ∨ pcieIssues s = true) :
    ¬(e.lent.isNone = true ∧ pcieIssues s = false) := by
  rintro ⟨hnone, hstill⟩
  rcases hgoes with hlent | hissues
  · rw [Option.isNone_iff_eq_none.mp hnone] at hlent
    contradiction
  · rw [hstill] at hissues
    contradiction

theorem exec_tetherExportDone_out {e : Export} {s : State} (he : s.tether.exporting = some e) (hsource : e.source ≠ 2)
    (hgoes : e.lent.isSome ∨ pcieIssues s = true) :
    let x := if e.source = 0 then exportReads 0 ((List.finRange 2).filter (fun k => s.tether.anchor[k].isSome)) s
      else (false, s)
    let i := exportImage e x.2
    let off := (e.lent.map (fun l => l.1 * extBytes)).getD 0
    exec (.tetherExportDone 0) s = .next (settle s (
      if x.1 then raise4 6 (leafCode 0 7) x.2
      else setLeaf 24 1 (completeTicket e.ticket rOk
        [w32 i.1.length, w32 (i.1.length / 2 ^ 32), w32 i.2, w32 off, 0]
        (count 0x8D18 i.1.length { placeImage e i.1 x.2 with tether.exporting := none })))) := by
  intro x i off
  rw [exec_tetherExportDone, execTetherExportDone]
  apply done_eq
  simp only [he]
  rw [if_neg (exportEnds_of_lent_or_issues hgoes), if_neg (by decide), if_neg hsource]

theorem exec_tetherExportDone_failed {e : Export} {detail : Nat} {s : State} (he : s.tether.exporting = some e)
    (hdetail : detail ≠ 0) (hgoes : e.lent.isSome ∨ pcieIssues s = true) :
    exec (.tetherExportDone detail) s = .next (settle s (failExport detail s)) := by
  rw [exec_tetherExportDone, execTetherExportDone]
  apply done_eq
  simp only [he]
  rw [if_neg (exportEnds_of_lent_or_issues hgoes), if_pos hdetail]

theorem failExport_running {e : Export} {s : State} (detail : Nat) (he : s.tether.exporting = some e) :
    failExport detail s = setLeaf 24 1 (completeTicket e.ticket rFault
      [w32 e.done, w32 (e.done / 2 ^ 32), w32 ((e.first.map (·.2)).getD 0),
        w32 ((e.lent.map (fun l => l.1 * extBytes)).getD 0), w32 detail]
      { s with
        tether.exporting := none,
        rst.lent := s.rst.lent.map (fun l => if l.2.2 = some e.ticket then (l.1, l.2.1, none) else l) }) := by
  simp only [failExport, endExport, he]

/-- Settles O60: each clause is its command's lemma; the wrap and the failed export by what `wrapStamp` and `failExport` do. -/
theorem tetherEventsComplete : Obligations.TetherEventsComplete :=
  ⟨fun _ _ he hsource hissues => exec_followHeader_issues he hsource hissues,
   fun _ hrun => exec_anchorStart_runs hrun,
   fun _ _ hk => exec_anchorDone_anchoring hk,
   fun pc instret crc _ hrun => exec_check_runs pc instret crc hrun,
   fun _ hclk => exec_epoch_clocked hclk,
   fun _ _ he hsource hgoes => exec_tetherExportDone_out he hsource hgoes,
   fun _ detail _ he hdetail hgoes =>
     (exec_tetherExportDone_failed he hdetail hgoes).trans (by rw [failExport_running detail he])⟩

end Sys2Proof.Machine
end

section
/-!
PROOFS. The short commands of the STREAM, PROFILE and KEY families (R461, R467, R469, R484, R487, R501, R516, R627, R635,
R636, R639).
-/
namespace Sys2Proof.Machine
open Sys2Proof Sys2Proof.Claims

section ShortForms

variable {i : Instr} {k : Cmd} {c : Chan} {s t : State} {code : Nat} {words : List Word}

/-- A row that runs a short form, accepted, answers what the form's effect gives. -/
theorem exec_short_of_commandOf (hrow : commandOf i = some (k, c, false)) (haccepted : Accepted k c s)
    (hshort : k.long (msgOf c s) = none) (hact : k.act (msgOf c s) (loaded c s) = (code, words, t)) :
    exec i s = .next (settle s (answered c code words s t)) := by
  rw [exec_commandOf hrow, runCommand_short k c s haccepted hshort, hact, withStreams, if_neg Bool.false_ne_true]

/-- A row that looks at streams does so after the answer. -/
theorem exec_shortLooking_of_commandOf (hrow : commandOf i = some (k, c, true)) (haccepted : Accepted k c s)
    (hshort : k.long (msgOf c s) = none) (hact : k.act (msgOf c s) (loaded c s) = (code, words, t)) :
    exec i s = .next (settle s (checkStreams (answered c code words s t))) := by
  rw [exec_commandOf hrow, runCommand_short k c s haccepted hshort, hact, withStreams, if_pos rfl]

end ShortForms

/-- A table is stored, and is in CMP's memory as well where CMP works on blocks (R444, R469). -/
theorem profileLoadTable_act (m : Msg) (s : State) : profileLoadTable.act m s = (rOk, [], { s with
    cmp.table := updN s.cmp.table (m.f 1 0 4) (fun _ => some (tableWord m)),
    cmp.loaded := if cmpOn s then setBit s.cmp.loaded (m.f 1 0 4) else s.cmp.loaded }) := by
  have hon (s : State) (j : Nat) (w : BitVec 256) :
      cmpOn { s with cmp.table := updN s.cmp.table j (fun _ => some w) } = cmpOn s := rfl
  simp only [profileLoadTable, hon]
  cases cmpOn s with
  | true => rfl
  | false => rfl

/-! ### KEY.LOAD (R487, R516) -/

/-- A slot takes what a load left of the blob, and the key doorbell rings. -/
def fillSlot (i : Nat) (x : KeySlot) (s : State) : State :=
  ring 15 { s with cip.slot := updN s.cip.slot i (fun _ => x) }

/-- The slot that the blob of KEY.LOAD results in. -/
def slotOfBlob (kek : BitVec 256) (m : Msg) : KeySlot := loadedSlot kek (m.f 1 8 3) (paramBytes m 2 48)

/-- A key that was unwrapped answers its ID, whether another slot has it already, and its check value. -/
theorem keyLoad_act_valid {m : Msg} {s : State} {kek : BitVec 256} (hkek : kekOf (m.f 1 8 3) s = some kek)
    (hvalid : (slotOfBlob kek m).state = .valid) :
    let x := slotOfBlob kek m
    keyLoad.act m s = (rOk, [x.keyId, pack [(0, b2n (!(slotsOf x.keyId.toNat s).isEmpty))], wordAt (keyCheck x.key) 0,
      wordAt (keyCheck x.key) 4], fillSlot (m.f 1 0 4) x s) := by
  rw [slotOfBlob] at hvalid
  simp only [keyLoad, hkek, Option.getD_some, if_pos hvalid, slotOfBlob, fillSlot]

/-- A blob that does not unwrap leaves the slot as the load made it, counts, and latches its leaf. -/
theorem keyLoad_act_invalid {m : Msg} {s : State} {kek : BitVec 256} (hkek : kekOf (m.f 1 8 3) s = some kek)
    (hinvalid : (slotOfBlob kek m).state ≠ .valid) :
    keyLoad.act m s = (rAuth, [], setLeaf 9 0 (count 0x8620 1 (fillSlot (m.f 1 0 4) (slotOfBlob kek m) s))) := by
  rw [slotOfBlob] at hinvalid
  simp only [keyLoad, hkek, Option.getD_some, if_neg hinvalid, slotOfBlob, fillSlot]

/-- Settles O20: each row runs a short form; OPEN and SET look at streams after their answer, and KEY.LOAD has a lemma for
each result of the unwrap. -/
theorem streamProfileKeyCommandsComplete : Obligations.StreamProfileKeyCommandsComplete := by
  refine ⟨?streamOpen, answers_of_commandOf (fun _ => rfl) (fun _ => rfl) (fun _ _ => rfl), ?streamSet,
    answers_of_commandOf (fun _ => rfl) (fun _ => rfl) (fun _ _ => rfl),
    answers_of_commandOf (fun _ => rfl) (fun _ => rfl) profileLoadTable_act, ?keyLoad⟩
  case streamOpen =>
    intro c s haccepted
    exact exec_shortLooking_of_commandOf (i := .streamOpen c) rfl haccepted rfl rfl
  case streamSet =>
    intro c s haccepted l
    exact exec_shortLooking_of_commandOf (i := .streamSet c) rfl haccepted rfl rfl
  case keyLoad =>
    intro c s kek haccepted hkek l x s'
    have hexec {code : Nat} {words : List Word} {t : State} (hact : keyLoad.act (msgOf c s) l = (code, words, t)) :=
      exec_short_of_commandOf (i := .keyLoad c) rfl haccepted rfl hact
    by_cases hvalid : x.state = .valid
    · rw [if_pos hvalid]
      exact hexec (keyLoad_act_valid hkek hvalid)
    · rw [if_neg hvalid]
      exact hexec (keyLoad_act_invalid hkek hvalid)

end Sys2Proof.Machine
end

section
/-!
PROOFS. Restore: data sets that are read, blocks that are decrypted and decoded, and the ends of records, indexings and
rebuilds (R456, R458, R486, R499, R511, R552, R590, R682, R683, R686, R689, R690, R694 to R696, R710 to R712).
-/
namespace Sys2Proof.Machine
open Sys2Proof

/-! ### The restore block of a transport changed -/

theorem modRst_trn_self (n : Trn) (f : RestTrn → RestTrn) (s : State) : (modRst n f s).rst.trn[n] = f s.rst.trn[n] := by
  rw [modRst_rst, upd_get, if_pos rfl]

/-- Of a change, only what it makes of the transport's restore block as it stands matters. -/
theorem modRst_congr {n : Trn} {f g : RestTrn → RestTrn} {s : State} (h : f s.rst.trn[n] = g s.rst.trn[n]) :
    modRst n f s = modRst n g s := by
  simp only [modRst, upd, Fin.getElem_fin] at h ⊢
  rw [h]

/-! ### The meaning of each command -/

theorem exec_restoreDataSetRead (n : Trn) (d : DataSetRead) (s : State) :
    exec (.restoreDataSetRead n d) s = execRestoreDataSetRead n d s := rfl

theorem exec_restoreBlockDecrypted (t : Nat) (s : State) :
    exec (.restoreBlockDecrypted t) s = execRestoreBlockDecrypted t s := rfl

theorem exec_restoreBlockDecoded (t : Nat) (s : State) :
    exec (.restoreBlockDecoded t) s = execRestoreBlockDecoded t s := rfl

theorem exec_restoreRecordDone (t : Nat) (s : State) : exec (.restoreRecordDone t) s = execRestoreRecordDone t s := rfl

theorem exec_restoreIndexDone (n : Trn) (s : State) : exec (.restoreIndexDone n) s = execRestoreIndexDone n s := rfl

theorem exec_restoreRebuildDone (n : Trn) (s : State) :
    exec (.restoreRebuildDone n) s = execRestoreRebuildDone n s := rfl

/-! ### Data sets and blocks (R456, R458, R486, R499, R674) -/

/-- The ladder has a data set that a load in its reading phase passes. -/
theorem exec_restoreDataSetRead_loading {n : Trn} {l : Loading} {s : State} (d : DataSetRead) (hread : canRead n s = true)
    (hloading : s.trn[n].loading = some l) (hphase : l.phase = .reading) :
    exec (.restoreDataSetRead n d) s = .next (settle s (restoreReads n d s)) := by
  rw [exec_restoreDataSetRead, execRestoreDataSetRead]
  apply done_eq
  simp only [hread, hloading, hphase]
  rfl

/-- The ladder has a data set that passes while a loaded cartridge is read. -/
theorem exec_restoreDataSetRead_restoring {n : Trn} {s : State} (d : DataSetRead) (hread : canRead n s = true)
    (hloading : s.trn[n].loading = none) (hreading : s.rst.trn[n].reading = true) :
    exec (.restoreDataSetRead n d) s = .next (settle s (restoreReads n d s)) := by
  rw [exec_restoreDataSetRead, execRestoreDataSetRead]
  apply done_eq
  simp only [hread, hloading, hreading]
  rfl

/-- With masks left for the block and its bytes read, the block is checked and opened. -/
theorem exec_restoreBlockDecrypted_read {t : Nat} {u : Fin 8} {q : Request} {e : Envelope} {bs : List Byte} {s w : State}
    (hon : cipOn s = true) (hunit : unitFor t s = some u) (hq : findReq t s = some q) (he : q.env = some e)
    (hmasks : masksLast u (aesBlocks (blockLen q e (reqKey q s) q.pos s - 32)) s = true)
    (hrun : readRun q q.pos (blockLen q e (reqKey q s) q.pos s)
      (freeUnit u (spendMasks u (aesBlocks (blockLen q e (reqKey q s) q.pos s - 32)) s)) = (some bs, w)) :
    exec (.restoreBlockDecrypted t) s = .next (settle s (
      if leAt bs 0 1 ≠ 1 ∨ leAt bs 1 1 ≠ q.index then
        settleReq t (modReq t (fun q => { q with broken := true, todo := [], got := q.pos }) w)
      else decrypted q e bs w)) := by
  rw [exec_restoreBlockDecrypted, execRestoreBlockDecrypted]
  apply done_eq
  simp only [hon, hunit, hq, he, hmasks, hrun, Bool.not_true, Bool.false_eq_true, if_false]

theorem exec_restoreBlockDecoded_ready {t : Nat} {g : Fin 16} {q : Request} {e : Envelope} {p : List Byte} {tag : Bool}
    {rest : List (List Byte × Bool)} {s : State} (hon : cmpOn s = true) (hengine : engineFor t s = some g)
    (hq : findReq t s = some q) (he : q.env = some e) (hplain : q.plain = (p, tag) :: rest) (hready : outReady q s = true) :
    exec (.restoreBlockDecoded t) s = .next (settle s (settleReq t (decoded q e p tag (freeEngine g s)))) := by
  rw [exec_restoreBlockDecoded, execRestoreBlockDecoded]
  apply done_eq
  simp only [hon, hengine, hq, he, hplain, hready, Bool.not_true, Bool.false_eq_true, if_false]

/-! ### The ends of records and indexings (R682, R683, R689) -/

/-- The request's last writes have gone out, its result is told, and nothing is unacknowledged. -/
theorem exec_restoreRecordDone_told {t c : Nat} {q : Request} {s u : State} (hrun : supRuns s = true)
    (hout : feedCached t 17 (settleReq t (pumpRaw t s)) = u) (hq : findReq t u = some q) (hcode : q.code = some c)
    (htold : q.told = true) (hacked : q.unacked = 0) :
    exec (.restoreRecordDone t) s = .next (settle s (completeTicket t c (reqWords q) (removeReq t u))) := by
  rw [exec_restoreRecordDone, execRestoreRecordDone]
  apply done_eq
  rw [hrun, if_neg Bool.noConfusion]
  simp only [hout, hq, hcode, htold, hacked, Bool.true_and, beq_self_eq_true, if_true]

theorem exec_restoreIndexDone_empty {n : Trn} {x : Scan} {s : State} (hrun : supRuns s = true)
    (hscan : s.rst.trn[n].scan = some x) (hended : x.phase = .ended) (hindex : x.purpose = .index) (hempty : x.wraps = 0) :
    exec (.restoreIndexDone n) s = .next (settle s (nextScan n
      (completeTicket x.ticket rNotfound [] (modRst n (fun r => { r with index := none }) s)))) := by
  rw [exec_restoreIndexDone, execRestoreIndexDone]
  apply done_eq
  simp only [hscan]
  rw [if_neg (by simp [hrun, hended, hindex]), if_pos hempty]

/-- The index of a tape with data takes whether END was met, and answers its sessions, entries and flags. -/
theorem exec_restoreIndexDone_indexed {n : Trn} {x : Scan} {i : RestIndex} {s : State} (hrun : supRuns s = true)
    (hscan : s.rst.trn[n].scan = some x) (hended : x.phase = .ended) (hindex : x.purpose = .index) (hdata : x.wraps ≠ 0)
    (hi : s.rst.trn[n].index = some i) :
    exec (.restoreIndexDone n) s = .next (settle s (nextScan n (completeTicket x.ticket
      (if i.overflow then rNores else rOk)
      [BitVec.ofNat 32 i.sessions.length, BitVec.ofNat 32 ((i.sessions.map (fun x => x.pieces.length)).sum),
        pack [(0, b2n x.endDsi.isNone), (1, b2n i.manifestCrc)]]
      (modRst n (fun r => { r with index := some { i with noEnd := x.endDsi.isNone } }) s)))) := by
  have htake : modRst n (fun r => { r with index := r.index.map (fun i => { i with noEnd := x.endDsi.isNone }) }) s =
      modRst n (fun r => { r with index := some { i with noEnd := x.endDsi.isNone } }) s :=
    modRst_congr (by rw [hi]; rfl)
  rw [exec_restoreIndexDone, execRestoreIndexDone]
  apply done_eq
  simp only [hscan]
  rw [if_neg (by simp [hrun, hended, hindex]), if_neg hdata]
  simp only [htake, modRst_trn_self, Option.getD_some]

/-! ### The end of a rebuild (R695, R696, R711) -/

/-- The rebuild writes the interrupted session's manifest: COMMIT, data that was found, and no manifest of the session in
which the tape ends. -/
def rebuildWrites (commit : Bool) (x : Scan) : Bool :=
  commit && x.last.isSome && x.endDsi.all (fun d => x.newest.all (fun m => decide (m.no ≠ d.sessionNo)))

theorem rebuildWrites_of_unasked {commit : Bool} {x : Scan} (h : commit = false ∨ x.last = none) :
    rebuildWrites commit x = false := by
  rcases h with hcommit | hlast
  · simp only [rebuildWrites, hcommit, Bool.false_and]
  · simp only [rebuildWrites, hlast, Option.isSome_none, Bool.and_false, Bool.false_and]

theorem rebuildWrites_of_unmanifested {commit : Bool} {x : Scan} {d : Dsi} (hcommit : commit = true)
    (hlast : x.last = some d) (hnone : ∀ e m, x.endDsi = some e → x.newest = some m → m.no ≠ e.sessionNo) :
    rebuildWrites commit x = true := by
  simpa [rebuildWrites, hcommit, hlast, Option.all_eq_true] using fun e he m hm => hnone e m he hm

/-- The interrupted session `f` is written after the last data set that was found, where the rebuild writes. -/
def writeRebuilt (n : Trn) (writes : Bool) (x : Scan) (f : IdxSession) (s : State) : State :=
  match writes, x.last with
  | true, some d => commitRebuild n d x f s
  | _, _ => s

theorem writeRebuilt_unwritten (n : Trn) (x : Scan) (f : IdxSession) (s : State) : writeRebuilt n false x f s = s := rfl

theorem writeRebuilt_last {x : Scan} {d : Dsi} (hlast : x.last = some d) (n : Trn) (f : IdxSession) (s : State) :
    writeRebuilt n true x f s = commitRebuild n d x f s := by
  simp only [writeRebuilt, hlast]

section Rebuild

variable {n : Trn} {x : Scan} {commit : Bool} {s t : State} (hrun : supRuns s = true)
  (hscan : s.rst.trn[n].scan = some x) (hended : x.phase = .ended) (hpurpose : x.purpose = .rebuild commit)
  (hfit : fitIndex n (modRst n (fun r => { r with index := some { (r.index.getD {}) with
    sessions := foundAll s.trn[n].cartId.toNat x ++ (r.index.getD {}).sessions } }) s) = some t)

include hrun hscan hended hpurpose hfit

/-- A rebuild whose index fits answers entries, losses and the floor, which is 0 where nothing is written. -/
theorem exec_restoreRebuildDone_fits {writes : Bool} {floor : Nat} (hwrites : rebuildWrites commit x = writes)
    (hfloor : (if writes then (rebuiltSession s.trn[n].cartId.toNat x).floor else 0) = floor) :
    exec (.restoreRebuildDone n) s = .next (settle s (nextScan n (completeTicket x.ticket rOk
      [BitVec.ofNat 32 (((foundAll s.trn[n].cartId.toNat x).map (fun f => f.pieces.length)).sum),
        BitVec.ofNat 32 x.lost, BitVec.ofNat 32 floor, BitVec.ofNat 32 (floor / 2 ^ 32)]
      (writeRebuilt n writes x (rebuiltSession s.trn[n].cartId.toNat x) t)))) := by
  rw [exec_restoreRebuildDone, execRestoreRebuildDone]
  apply done_eq
  -- The alternatives keep their `let`s until the fit is known: to compare them the kernel would evaluate `fitIndex`.
  simp -zeta only [hscan, hpurpose]
  rw [if_neg (by simp [hrun, hended])]
  extract_lets +onlyGivenNames cart new grown
  rw [show fitIndex n grown = some t from hfit]
  rw [rebuildWrites] at hwrites
  simp only [hwrites, cart, hfloor]
  rfl

theorem exec_restoreRebuildDone_unwritten (hwrites : rebuildWrites commit x = false) :
    exec (.restoreRebuildDone n) s = .next (settle s (nextScan n (completeTicket x.ticket rOk
      [BitVec.ofNat 32 (((foundAll s.trn[n].cartId.toNat x).map (fun f => f.pieces.length)).sum),
        BitVec.ofNat 32 x.lost, 0, 0] t))) := by
  have hanswer := exec_restoreRebuildDone_fits hrun hscan hended hpurpose hfit hwrites (floor := 0) rfl
  rwa [writeRebuilt_unwritten, Nat.zero_div, show BitVec.ofNat 32 0 = 0 from rfl] at hanswer

theorem exec_restoreRebuildDone_written {d : Dsi} (hlast : x.last = some d) (hwrites : rebuildWrites commit x = true) :
    let f := rebuiltSession s.trn[n].cartId.toNat x
    exec (.restoreRebuildDone n) s = .next (settle s (nextScan n (completeTicket x.ticket rOk
      [BitVec.ofNat 32 (((foundAll s.trn[n].cartId.toNat x).map (fun f => f.pieces.length)).sum),
        BitVec.ofNat 32 x.lost, BitVec.ofNat 32 f.floor, BitVec.ofNat 32 (f.floor / 2 ^ 32)]
      (commitRebuild n d x f t)))) := by
  intro f
  rw [← writeRebuilt_last hlast]
  exact exec_restoreRebuildDone_fits hrun hscan hended hpurpose hfit hwrites (if_pos rfl)

end Rebuild

/-- Settles O59: each clause is its command's lemma, for what waits and for how the indexing or rebuild ended. -/
theorem restoreEventsComplete : Obligations.RestoreEventsComplete := by
  refine ⟨?dataSet, ?decrypted, ?decoded, ?record, ?index, ?rebuild⟩
  case dataSet =>
    intro n d s hread
    exact ⟨fun _ hloading hphase => exec_restoreDataSetRead_loading d hread hloading hphase,
      fun hloading hreading => exec_restoreDataSetRead_restoring d hread hloading hreading⟩
  case decrypted =>
    intro t u q e bs s w hon hunit hq he hmasks hrun
    exact exec_restoreBlockDecrypted_read hon hunit hq he hmasks hrun
  case decoded =>
    intro t g q e p tag rest s hon hengine hq he hplain hready
    exact exec_restoreBlockDecoded_ready hon hengine hq he hplain hready
  case record =>
    intro t c q s hrun u hq hcode htold hacked
    exact exec_restoreRecordDone_told hrun rfl hq hcode htold hacked
  case index =>
    intro n x s hrun hscan hended hindex
    exact ⟨exec_restoreIndexDone_empty hrun hscan hended hindex,
      fun i hdata hi => exec_restoreIndexDone_indexed hrun hscan hended hindex hdata hi⟩
  case rebuild =>
    intro n x commit s t hrun hscan hended hpurpose new f hfit
    exact ⟨fun hunasked =>
        exec_restoreRebuildDone_unwritten hrun hscan hended hpurpose hfit (rebuildWrites_of_unasked hunasked),
      fun d hcommit hlast hnone => exec_restoreRebuildDone_written hrun hscan hended hpurpose hfit hlast
        (rebuildWrites_of_unmanifested hcommit hlast hnone)⟩

end Sys2Proof.Machine
end

section
/-!
PROOFS. The step of a queue with a command in front (98_reader.md; log 1).
-/
namespace Sys2Proof.Machine
open Sys2Proof

/-- Settles O1: `step` takes the queue apart as `c :: rest`. -/
theorem stepRunsTheFrontCommand : Obligations.StepRunsTheFrontCommand :=
  fun _ _ _ => rfl

end Sys2Proof.Machine
end

section
/-!
PROOFS. The short commands of the XPORT, GOV, KEY, LIFE, DIAG, TETHER and RESTORE families, and STREAM.INFO (R518, R520, R521,
R588, R592, R593, R640, R670 to R672, R705, R713 to R716, R749, R758, R764, R766, R767, R785, R795, R797).
-/
namespace Sys2Proof.Machine
open Sys2Proof Sys2Proof.Claims

/-! ### What loading a message leaves (R739) -/

/-- Loading a message leaves transports, lent runs, the governor and the faults as they were. -/
theorem loaded_parts (c : Chan) (s : State) :
    (loaded c s).trn = s.trn ∧ (loaded c s).rst = s.rst ∧ (loaded c s).gov = s.gov ∧ (loaded c s).faults = s.faults := by
  obtain ⟨_, _, _, h, -, -⟩ := loaded_step c s
  rw [h]
  exact ⟨rfl, rfl, rfl, rfl⟩

/-! ### Parameters: GET answers a row of its table (R671, R715) -/

theorem govParamGet_act {m : Msg} {d lo hi : Nat} (h : govRange (m.f 1 8 8) = some (d, lo, hi)) (s : State) :
    govParamGet.act m s = (rOk, getAnswer (getN s.gov.param (m.f 1 8 8 - 1) 0) d lo hi, s) := by
  simp only [govParamGet, h]

theorem restoreParamGet_act {m : Msg} {d lo hi : Nat} (h : restoreRange (m.f 1 8 8) = some (d, lo, hi)) (s : State) :
    restoreParamGet.act m s = (rOk, getAnswer (getN s.rst.param (m.f 1 8 8 - 1) 0) d lo hi, s) := by
  simp only [restoreParamGet, h]

/-- Settles O16: each row runs a short form whose answer is its table's; that GOV.PARAM GET answers the value in force is the
model's choice (log 137). -/
theorem xportGovStreamQueriesAnswer : Obligations.XportGovStreamQueriesAnswer := by
  refine ⟨answers_of_commandOf (fun _ => rfl) (fun _ => rfl) (fun _ _ => rfl),
    answers_of_commandOf (fun _ => rfl) (fun _ => rfl) (fun _ _ => rfl),
    answers_of_commandOf (fun _ => rfl) (fun _ => rfl) (fun _ _ => rfl), ?paramGet⟩
  case paramGet =>
    intro c s d lo hi haccepted hrange
    obtain ⟨-, -, hgov, -⟩ := loaded_parts c s
    rw [← hgov]
    exact exec_short_of_commandOf (i := .govParamGet c) rfl haccepted rfl (govParamGet_act hrange _)

/-- Settles O18: each row runs a short form whose one effect is the setting; that GOV.PARAM SET leaves the value in force is
log 137's. -/
theorem parameterSetsComplete : Obligations.ParameterSetsComplete :=
  ⟨answers_of_commandOf (fun _ => rfl) (fun _ => rfl) (fun _ _ => rfl),
   answers_of_commandOf (fun _ => rfl) (fun _ => rfl) (fun _ _ => rfl),
   answers_of_commandOf (fun _ => rfl) (fun _ => rfl) (fun _ _ => rfl),
   answers_of_commandOf (fun _ => rfl) (fun _ => rfl) (fun _ _ => rfl),
   answers_of_commandOf (fun _ => rfl) (fun _ => rfl) (fun _ _ => rfl)⟩

/-- Settles O26: each row runs a short form whose effect and answer are its rule's. -/
theorem diagTetherSettingsComplete : Obligations.DiagTetherSettingsComplete :=
  ⟨answers_of_commandOf (fun _ => rfl) (fun _ => rfl) (fun _ _ => rfl),
   answers_of_commandOf (fun _ => rfl) (fun _ => rfl) (fun _ _ => rfl),
   answers_of_commandOf (fun _ => rfl) (fun _ => rfl) (fun _ _ => rfl),
   answers_of_commandOf (fun _ => rfl) (fun _ => rfl) (fun _ _ => rfl),
   answers_of_commandOf (fun _ => rfl) (fun _ => rfl) (fun _ _ => rfl),
   answers_of_commandOf (fun _ => rfl) (fun _ => rfl) (fun _ _ => rfl)⟩

/-! ### KEY.CONTEXT (R518) and RESTORE.FIND (R713) -/

/-- The words of the stream's cipher context, all 0 where it has none. -/
theorem keyContext_act (m : Msg) (s : State) :
    keyContext.act m s = (rOk, (match getN s.cip.ctx (m.f 1 0 6) none with
      | none => List.replicate 7 0
      | some c => [1, c.keyId, BitVec.ofNat 32 c.session.toNat, BitVec.ofNat 32 c.count.toNat,
          BitVec.ofNat 32 (c.count.toNat / 2 ^ 32), c.blocks, c.reseeds]), s) := by
  cases h : getN s.cip.ctx (m.f 1 0 6) none <;> simp only [keyContext, h]

/-- An index whose lines read well is searched. -/
theorem restoreFind_act_ok {m : Msg} {s : State}
    (h : (readIndexes (recMask m) (recStream m) (recNumber m) s).1 = .ok) :
    let t := (readIndexes (recMask m) (recStream m) (recNumber m) s).2
    restoreFind.act m s =
      (rOk, findWords m (piecesFor (recMask m) (recStream m) (recNumber m) (recSession m) t) t, t) := by
  cases hread : readIndexes (recMask m) (recStream m) (recNumber m) s with
  | mk o t =>
    rw [hread] at h
    cases h
    simp only [restoreFind, hread]

/-- A bad line of the index ends the search. -/
theorem restoreFind_act_bad {m : Msg} {s : State}
    (h : (readIndexes (recMask m) (recStream m) (recNumber m) s).1 ≠ .ok) :
    restoreFind.act m s = (rFault, [], (readIndexes (recMask m) (recStream m) (recNumber m) s).2) := by
  cases hread : readIndexes (recMask m) (recStream m) (recNumber m) s with
  | mk o t =>
    rw [hread] at h
    simp only [restoreFind, hread]

/-- Settles O25: each row runs a short form; RESTORE.FIND has a lemma for each way the index reads. -/
theorem keyLifeDiagTetherRestoreQueriesAnswer : Obligations.KeyLifeDiagTetherRestoreQueriesAnswer := by
  refine ⟨answers_of_commandOf (fun _ => rfl) (fun _ => rfl) (fun _ _ => rfl),
    answers_of_commandOf (fun _ => rfl) (fun _ => rfl) keyContext_act,
    answers_of_commandOf (fun _ => rfl) (fun _ => rfl) (fun _ _ => rfl),
    answers_of_commandOf (fun _ => rfl) (fun _ => rfl) (fun _ _ => rfl),
    answers_of_commandOf (fun _ => rfl) (fun _ => rfl) (fun _ _ => rfl),
    answers_of_commandOf (fun _ => rfl) (fun _ => rfl) (fun _ _ => rfl),
    answers_of_commandOf (fun _ => rfl) (fun _ => rfl) (fun _ _ => rfl), ?find, ?paramGet⟩
  case find =>
    intro c s haccepted x
    by_cases hok : x.1 = .ok
    · rw [if_pos hok]
      exact exec_short_of_commandOf (i := .restoreFind c) rfl haccepted rfl (restoreFind_act_ok hok)
    · rw [if_neg hok]
      exact exec_short_of_commandOf (i := .restoreFind c) rfl haccepted rfl (restoreFind_act_bad hok)
  case paramGet =>
    intro c s d lo hi haccepted hrange
    obtain ⟨-, hrst, -⟩ := loaded_parts c s
    rw [← hrst]
    exact exec_short_of_commandOf (i := .restoreParamGet c) rfl haccepted rfl (restoreParamGet_act hrange _)

/-! ### Looking at streams after a command (R620) -/

@[simp] theorem withStreams_true (s : State) : withStreams true s = checkStreams s := if_pos rfl

@[simp] theorem withStreams_false (s : State) : withStreams false s = s := if_neg Bool.false_ne_true

/-! ### Refusals with a code of the command's own (R262) -/

/-- A row whose form refuses the message answers the code and, where it looks at streams, does so after. -/
theorem exec_refused_of_commandOf {i : Instr} {k : Cmd} {c : Chan} {look : Bool} {s : State} {code : Nat}
    (hrow : commandOf i = some (k, c, look)) (htaken : Taken k c s) (hcode : refuse k (msgOf c s) (loaded c s) = code)
    (hne : code ≠ 0) :
    exec i s = .next (settle s (withStreams look (answered c code [] s (loaded c s)))) := by
  rw [exec_commandOf hrow, runCommand_refused k c s htaken (hcode.trans_ne hne), hcode]

/-! ### XPORT.CLEAR (R592) -/

theorem degraded_cleared (n : Trn) (s : State) :
    (if s.trn[n].degraded then ring 14 (modTrn n (fun p => { p with degraded := false }) s) else s).trn[n].degraded =
      false := by
  split
  · simp only [ring_trn, modTrn_trn, upd_get, if_true]
  · next h => exact Bool.not_eq_true _ ▸ h

theorem refuse_xportClear_notUp {m : Msg} {s : State} (hport : s.trn[trnOf m].port ≠ .up) (hsafe : s.faults.safe = false)
    (hbars : channelBars m s = false) (hlen : m.len = 1) (hbits : reservedSet [7] m = false) :
    refuse xportClear m s = rState := by
  have hstate : (tlOff m s || s.trn[trnOf m].port != .up) = true := by
    rw [bne_iff_ne.mpr hport, Bool.or_true]
  simp only [refuse, xportClear, hsafe, hbars, hlen, hbits, hstate]
  rfl

/-- Settles O17: the accepted form clears the bit, ringing where it was set (log 72); a port that is not UP is refused. The
streams are looked at after either (R623). -/
theorem xportClearClearsDegraded : Obligations.XportClearClearsDegraded := by
  refine ⟨fun c s haccepted => ⟨?accepted, degraded_cleared _ _⟩, ?notUp⟩
  case accepted => exact exec_shortLooking_of_commandOf (i := .xportClear c) rfl haccepted rfl rfl
  case notUp =>
    intro c s htaken hport hsafe hbars hlen hbits
    obtain ⟨htrn, -, -, hfaults⟩ := loaded_parts c s
    rw [← htrn] at hport
    rw [← hfaults] at hsafe
    rw [exec_refused_of_commandOf (i := .xportClear c) rfl htaken
      (refuse_xportClear_notUp hport hsafe hbars hlen hbits) (by decide), withStreams_true]

/-! ### RESTORE.RELEASE (R705, R716) -/

theorem restoreRelease_act {m : Msg} {s : State} {e k : Nat} {w : Option Nat} (h : lentAt (m.f 1 0 17) s = some (e, k, w)) :
    restoreRelease.act m s = (rOk, [BitVec.ofNat 32 k], freeExtents ((List.range k).map (fun i => e + i))
      { s with rst.lent := s.rst.lent.filter (fun l => decide (l.1 ≠ e)) }) := by
  simp only [restoreRelease, h]

theorem refuse_restoreRelease_notLent {m : Msg} {s : State} (hbars : channelBars m s = false) (hlen : m.len = 1)
    (hlent : lentAt (m.f 1 0 17) s = none) : refuse restoreRelease m s = rParam := by
  simp only [refuse, restoreRelease, hbars, hlen, hlent, reduceCtorEq, and_false, if_false, Option.isNone_none, Bool.or_true]
  rfl

theorem refuse_restoreRelease_written {m : Msg} {s : State} {e k t : Nat} (hbars : channelBars m s = false)
    (hlen : m.len = 1) (hbits : reservedSet [0x1FFFF] m = false) (hlent : lentAt (m.f 1 0 17) s = some (e, k, some t)) :
    refuse restoreRelease m s = rState := by
  simp only [refuse, restoreRelease, hbars, hlen, hbits, hlent, reduceCtorEq, and_false, if_false]
  rfl

/-- Settles O27: the accepted form frees the run, and each refusal has its lemma. -/
theorem restoreReleaseReturnsALentRun : Obligations.RestoreReleaseReturnsALentRun := by
  have hlentAt (c : Chan) (s : State) (e : Nat) :
      lentAt e (loaded c s) = s.rst.lent.find? (fun l => decide (l.1 = e)) := by
    obtain ⟨-, hrst, -⟩ := loaded_parts c s
    rw [lentAt, hrst]
  refine ⟨fun c s e k w haccepted hlent => ?accepted, fun c s htaken hbars hlen hlent => ?notLent,
    fun c s e k t htaken hbars hlen hbits hlent => ?written⟩ <;> rw [← hlentAt c] at hlent
  case accepted =>
    obtain ⟨-, hrst, -⟩ := loaded_parts c s
    rw [← hrst]
    exact exec_short_of_commandOf (i := .restoreRelease c) rfl haccepted rfl (restoreRelease_act hlent)
  case notLent =>
    rw [exec_refused_of_commandOf (i := .restoreRelease c) rfl htaken (refuse_restoreRelease_notLent hbars hlen hlent)
      (by decide), withStreams_false]
  case written =>
    rw [exec_refused_of_commandOf (i := .restoreRelease c) rfl htaken
      (refuse_restoreRelease_written hbars hlen hbits hlent) (by decide), withStreams_false]

end Sys2Proof.Machine
end

section
/-!
PROOFS. The long commands of the STREAM, KEY, LIFE, DIAG and TETHER families (R502, R505, R517, R519, R522, R523, R606, R637,
R638, R751, R752, R765, R784, R796, R798).
-/
namespace Sys2Proof.Machine
open Sys2Proof Sys2Proof.Claims

/-- A row that runs a long form and does not look at streams, accepted, begins the form's work with its ticket. -/
theorem begins_of_commandOf {k : Cmd} {i : Chan → Instr} {work : Msg → LongOp} {start : Msg → Nat → State → State}
    (hrow : ∀ c, commandOf (i c) = some (k, c, false)) (hwork : ∀ m, k.long m = some (work m)) (hstart : k.start = start) :
    Begins k i work start :=
  begins_of_runCommand (fun c s => by rw [exec_commandOf (hrow c), withStreams_false, done]) hwork hstart


/-! ### What the long forms begin (R502, R638) -/

theorem streamClose_start : streamClose.start = fun m t s => resumeStream (strmOf m)
    (closeOpenDs (strmOf m) (modStream (strmOf m) (fun x => { x with state := .closing, closeTicket := some t }) s)) := by
  rw [streamClose]

theorem keyClear_long (m : Msg) : keyClear.long m = some (.keyClear (BitVec.ofNat 16 (m.f 1 0 16)) 0) := by rw [keyClear]

theorem keyClear_start : keyClear.start = clearSlots := by rw [keyClear]

/-- Settles O21: each row runs a long form, which begins its work. -/
theorem streamKeyLifeLongCommandsBegin : Obligations.StreamKeyLifeLongCommandsBegin :=
  ⟨begins_of_commandOf (fun _ => rfl) (fun _ => rfl) rfl,
   begins_of_commandOf (fun _ => rfl) (fun _ => rfl) streamClose_start,
   begins_of_commandOf (fun _ => rfl) keyClear_long keyClear_start,
   begins_of_commandOf (fun _ => rfl) (fun _ => rfl) rfl,
   begins_of_commandOf (fun _ => rfl) (fun _ => rfl) rfl,
   begins_of_commandOf (fun _ => rfl) (fun _ => rfl) rfl⟩

/-- Settles O28: each row runs a long form, which begins its work. -/
theorem diagTetherLongCommandsBegin : Obligations.DiagTetherLongCommandsBegin :=
  ⟨begins_of_commandOf (fun _ => rfl) (fun _ => rfl) rfl,
   begins_of_commandOf (fun _ => rfl) (fun _ => rfl) rfl,
   begins_of_commandOf (fun _ => rfl) (fun _ => rfl) rfl,
   begins_of_commandOf (fun _ => rfl) (fun _ => rfl) rfl,
   begins_of_commandOf (fun _ => rfl) (fun _ => rfl) rfl,
   begins_of_commandOf (fun _ => rfl) (fun _ => rfl) rfl⟩

end Sys2Proof.Machine
end

section
/-!
PROOFS. XPORT.LINK START sends a marker on each of its four outbound lanes ahead of LINK_START (R566, R589, Table 13-10).
-/
namespace Sys2Proof.Machine
open Sys2Proof Sys2Proof.Claims

/-- While the host allows no message, what has gone out is what the command sent and the reads that were issued. -/
theorem settle_out_of_msixBarred {s t : State} (h : msixAllowed (issueReads (drainAll t)) = false) :
    (settle s t).out = (issueReads (drainAll t)).out := by
  obtain ⟨-, -, -, hfollows⟩ := whatFollowsFromAnyCommand
  obtain ⟨-, hout, -⟩ := hfollows s t
  rcases hout with hout | ⟨-, -, hallowed, -⟩
  · exact hout
  · exact absurd (h.symm.trans hallowed) Bool.false_ne_true

/-- A message of XPORT.LINK START for TRN_0, with SEQ 1. -/
def linkStartMessage : Channel := { full := true, msg := ((Vector.replicate 16 0).set 0 0x01010202).set 1 0x100 }

/-- Firmware is READY, the PCIe link is down, and channel 0 is FULL with that message. -/
def linkStartWaits : State := { State.reset with
  boot.phase := .running, boot.fwState := 5, mbx.chan := State.reset.mbx.chan.set 0 linkStartMessage }

/-- The command is taken and answered with ticket 0. -/
def linkStartBegun : State := begun 0 (.linkStart 0) 0 linkStartWaits

/-- The port as O19's statement has it start: no marker goes out. -/
def startUnmarked (n : Trn) (t : Nat) (s : State) : State :=
  sendCtl n 0x01 (n.val + 0x100) [] (modTrn n (fun p => { p with
    port := .starting, linkTicket := some t, sysref := true, downlink := true, hello := false, identified := false,
    restored := false, holdup := false, spareInUse := false, spareRole := 0, lostRoles := 0, credit0 := 0, credit1 := 0,
    nextSeq := 0, servoBad := 0, servoGood := 0 }) s)

theorem exec_linkStartWaits : exec (.xportLinkStart 0) linkStartWaits =
    .next (settle linkStartWaits (startLink 0 0 linkStartBegun)) := by
  have hbegins : Begins xportLinkStart Instr.xportLinkStart (fun m => .linkStart (trnOf m))
      (fun m t s => startLink (trnOf m) t s) := begins_of_commandOf (fun _ => rfl) (fun _ => rfl) rfl
  exact hbegins 0 linkStartWaits 0 (by decide +kernel) (by decide +kernel)

/-- Four markers and LINK_START go out. -/
theorem startLink_out_length : (settle linkStartWaits (startLink 0 0 linkStartBegun)).out.length = 5 := by
  rw [settle_out_of_msixBarred (by decide +kernel)]
  decide +kernel

/-- LINK_START alone goes out. -/
theorem startUnmarked_out_length : (settle linkStartWaits (startUnmarked 0 0 linkStartBegun)).out.length = 1 := by
  rw [settle_out_of_msixBarred (by decide +kernel)]
  decide +kernel

/-- Refutes O19: its clause for LINK START sends LINK_START alone, where the model first sends the marker of each of the four
outbound lanes (R589). -/
theorem not_xportLongCommandsBegin : ¬ Obligations.XportLongCommandsBegin := by
  rintro ⟨hstart, -⟩
  have hunmarked : exec (.xportLinkStart 0) linkStartWaits =
      .next (settle linkStartWaits (startUnmarked 0 0 linkStartBegun)) :=
    hstart 0 linkStartWaits 0 (by decide +kernel) (by decide +kernel)
  have hstates := Host.Outcome.next.inj (exec_linkStartWaits.symm.trans hunmarked)
  have hlengths : 5 = 1 := by
    rw [← startLink_out_length, ← startUnmarked_out_length, hstates]
  exact absurd hlengths (by decide)

end Sys2Proof.Machine
end

section
/-!
PROOFS. The gondola's status messages, those that are discarded, and KEEPALIVE (R571, R573, R574, R578 to R580, R586, R590, R591,
R596, R653; Tables 13-6 and 13-8).
-/
namespace Sys2Proof.Machine
open Sys2Proof Sys2Proof.Claims

/-! ### The meaning of each command -/

theorem exec_credit (n : Trn) (a b : Nat) (s : State) : exec (.credit n a b) s = execCredit n a b s := rfl

theorem exec_motionStat (n : Trn) (m : MotionMsg) (s : State) : exec (.motionStat n m) s = execMotionStat n m s := rfl

theorem exec_cartridge (n : Trn) (m : CartMsg) (s : State) : exec (.cartridge n m) s = execCartridge n m s := rfl

theorem exec_power (n : Trn) (m : PowerMsg) (s : State) : exec (.power n m) s = execPower n m s := rfl

theorem exec_laneStat (n : Trn) (bits : Word) (s : State) : exec (.laneStat n bits) s = execLaneStat n bits s := rfl

theorem exec_sensor (n : Trn) (temp : BitVec 16) (s : State) : exec (.sensor n temp) s = execSensor n temp s := rfl

theorem exec_regData (n : Trn) (addr v : Word) (err : Bool) (s : State) :
    exec (.regData n addr v err) s = execRegData n addr v err s := rfl

theorem exec_fault (n : Trn) (kind : Byte) (s : State) : exec (.fault n kind) s = execFault n kind s := rfl

theorem exec_keepalive (n : Trn) (s : State) : exec (.keepalive n) s = execKeepalive n s := rfl

theorem exec_statusMessageDiscard (n : Trn) (s : State) :
    exec (.statusMessageDiscard n) s = execStatusMessageDiscard n s := rfl

theorem exec_keepaliveDue (n : Trn) (s : State) : exec (.keepaliveDue n) s = execKeepaliveDue n s := rfl

/-! ### Messages whose CRC an injector spoils (R571, Table 19-6) -/

/-- The injector is spent, and the discarded message counts. -/
def spoilStatus (n : Trn) (s : State) : State :=
  count (0x8718 + 0x40 * n.val) 1 { s with dbg.armed := s.dbg.armed.filter (fun a => a.code != 7) }

theorem statusIn_of_spoiled {n : Trn} {a : Injector} {s : State} (go : State → State) (hup : rxUp n s = true)
    (hspoil : s.dbg.armed.find? (fun a => a.code == 7 && decide (a.p2.toNat = n.val)) = some a) :
    statusIn n go s = spoilStatus n s := by
  rw [statusIn, hup, takeInjector, hspoil]
  rfl

/-! ### CREDIT (R573) -/

theorem exec_credit_starting {n : Trn} {a b : Nat} {s : State} (hheard : Heard n s) (hport : s.trn[n].port = .starting) :
    exec (.credit n a b) s = .next (settle s (checkStreams (modTrn n (fun p => { p with
      credit0 := min 16384 (p.credit0 + a), credit1 := min 16384 (p.credit1 + b) }) s))) := by
  rw [exec_credit, execCredit]
  apply doneS_eq
  rw [statusIn_of_heard _ hheard]
  exact if_pos (by rw [hport]; rfl)

theorem exec_credit_up {n : Trn} {a b : Nat} {s : State} (hheard : Heard n s) (hport : s.trn[n].port = .up) :
    exec (.credit n a b) s = .next (settle s (checkStreams (
      if s.trn[n].credit0 + a > 16384 ∨ s.trn[n].credit1 + b > 16384 then loseWith n (leafCode 1 5) rMedia s
      else spendCredits n (modTrn n (fun p => { p with credit0 := p.credit0 + a, credit1 := p.credit1 + b }) s)))) := by
  rw [exec_credit, execCredit]
  apply doneS_eq
  rw [statusIn_of_heard _ hheard]
  dsimp only
  rw [if_neg (by rw [hport]; decide), if_neg (by rw [hport]; decide)]
  simp only [decide_eq_true_eq]
  rfl

/-! ### MOTION_STAT (R653) -/

theorem exec_motionStat_heard {n : Trn} {m : MotionMsg} {s : State} (hheard : Heard n s) :
    let t := modTrn n (fun p => { p with motion := m.state, speed := m.speed }) s
    exec (.motionStat n m) s = .next (settle s (checkStreams (
      if m.state = 0 then tapeStopped n (s.trn[n].motion != 0) t else t))) := by
  obtain ⟨hup, -⟩ := id hheard
  rw [exec_motionStat, execMotionStat]
  apply doneS_eq
  rw [statusIn_of_heard _ hheard, hup]
  rfl

/-! ### CARTRIDGE (R590, R591, R595) -/

/-- The cartridge as the message gives it, with a notice where its state, write protection or kind changed. -/
def seeCartridge (n : Trn) (m : CartMsg) (s : State) : State :=
  let t := modTrn n (fun p => { p with
    cart := m.state, wp := m.wp, notXt1 := m.notXt1, cartId := m.id.getD 0, lengthMm := m.lengthMm.toNat }) s
  if s.trn[n].cart != m.state || s.trn[n].wp != m.wp || s.trn[n].notXt1 != m.notXt1 then
    notice (11 + n.val) (leafCode 0 3) t
  else t

theorem seeCartridge_eq (n : Trn) (m : CartMsg) (s : State) :
    let t := modTrn n (fun p => { p with
      cart := m.state, wp := m.wp, notXt1 := m.notXt1, cartId := m.id.getD 0, lengthMm := m.lengthMm.toNat }) s
    seeCartridge n m s =
      if s.trn[n].cart ≠ m.state ∨ s.trn[n].wp ≠ m.wp ∨ s.trn[n].notXt1 ≠ m.notXt1 then notice (11 + n.val) (leafCode 0 3) t
      else t := by
  simp only [seeCartridge, Bool.or_eq_true, bne_iff_ne, or_assoc]

/-- The unload of ticket `k` is over: the index and its extents go, and it answers the bytes written (R591). -/
def endUnload (n : Trn) (k : Nat) (s : State) : State :=
  ring 14 (completeTicket k rOk [BitVec.ofNat 32 s.fmt.trn[n].written]
    (modGov n (fun g => { g with state := .parked, parked := false, locating := false })
    (modTrn n (fun p => { p with loaded := .nothing, unloading := none })
    (modFmt n (fun f => { f with full := false, written := 0 })
    (freeExtents s.rst.trn[n].extents (modRst n (fun r => { r with index := none, extents := [] }) s))))))

/-- What a cartridge message does of the load or unload in flight, which are those of before it. -/
def cartridgeMoves (n : Trn) (m : CartMsg) (loading : Option Loading) (unloading : Option (Nat × Bool)) (s : State) : State :=
  match loading, unloading with
  | some l, _ =>
    if l.phase ≠ .threading then s
    else if m.state = 2 then
      if m.notXt1 || m.id.isNone then failLoad n rMedia s
      else loadLocate n (modTrn n (fun p => { p with loading := some { l with phase := .waiting } }) s)
    else s
  | none, some (k, true) => if m.state = 0 ∨ m.state = 1 then endUnload n k s else s
  | _, _ => s

theorem exec_cartridge_heard {n : Trn} {m : CartMsg} {s : State} (hheard : Heard n s) :
    exec (.cartridge n m) s = .next (settle s (checkStreams
      (cartridgeMoves n m s.trn[n].loading s.trn[n].unloading (seeCartridge n m s)))) := by
  obtain ⟨hup, -⟩ := id hheard
  rw [exec_cartridge, execCartridge]
  apply doneS_eq
  rw [statusIn_of_heard _ hheard, hup]
  rfl

/-- No load runs, and no unload waits for its cartridge: nothing ends. -/
theorem cartridgeMoves_of_none {n : Trn} {m : CartMsg} {unloading : Option (Nat × Bool)} {s : State}
    (h : ∀ k, unloading ≠ some (k, true)) : cartridgeMoves n m none unloading s = s := by
  match unloading with
  | none => rfl
  | some (_, false) => rfl
  | some (k, true) => exact absurd rfl (h k)

/-- A threaded tape ends the first part of its load (R590). -/
theorem cartridgeMoves_of_threading {n : Trn} {m : CartMsg} {l : Loading} {unloading : Option (Nat × Bool)} {s : State}
    (hphase : l.phase = .threading) (hstate : m.state = 2) :
    cartridgeMoves n m (some l) unloading s =
      if m.notXt1 = true ∨ m.id = none then failLoad n rMedia s
      else loadLocate n (modTrn n (fun p => { p with loading := some { l with phase := .waiting } }) s) := by
  rw [cartridgeMoves, if_neg (not_not_intro hphase), if_pos hstate]
  simp only [Bool.or_eq_true, Option.isNone_iff_eq_none]

theorem cartridgeMoves_of_unloading {n : Trn} {m : CartMsg} {k : Nat} {s : State} (hstate : m.state = 0 ∨ m.state = 1) :
    cartridgeMoves n m none (some (k, true)) s = endUnload n k s := if_pos hstate

/-! ### POWER (R580, R586) -/

theorem exec_power_heard {n : Trn} {m : PowerMsg} {s : State} (hheard : Heard n s) :
    let t := if m.holdup = true ∧ s.trn[n].port = .up ∧ s.trn[n].holdup = false then powerLoss n s else s
    exec (.power n m) s = .next (settle s (checkStreams (
      if m.restored then modTrn n (fun p => { p with restored := true }) t else t))) := by
  intro t
  rw [exec_power, execPower]
  apply doneS_eq
  rw [statusIn_of_heard _ hheard]
  simp only [Bool.and_eq_true, beq_iff_eq, Bool.not_eq_true', and_assoc]
  rfl

/-! ### LANE_STAT (R574, R579) -/

/-- No role is newly lost. -/
theorem rolesLost_of_none {n : Trn} {lost : BitVec 4} {s : State}
    (hnew : ∀ k < 4, (lost.getLsbD k && !s.trn[n].lostRoles.getLsbD k) = false) :
    rolesLost n lost s = modTrn n (fun p => { p with lostRoles := lost }) s := by
  simp only [rolesLost, show List.range 4 = [0, 1, 2, 3] from rfl, List.foldl_cons, List.foldl_nil, hnew 0 (by decide),
    hnew 1 (by decide), hnew 2 (by decide), hnew 3 (by decide), Bool.false_eq_true, if_false]

/-- One role is newly lost. -/
theorem rolesLost_of_one {n : Trn} {lost : BitVec 4} {r : Nat} {s : State} (hr : r < 4)
    (hnew : ∀ k < 4, (lost.getLsbD k && !s.trn[n].lostRoles.getLsbD k) = decide (k = r)) :
    rolesLost n lost s = roleLost n r (modTrn n (fun p => { p with lostRoles := lost }) s) := by
  simp only [rolesLost, show List.range 4 = [0, 1, 2, 3] from rfl, List.foldl_cons, List.foldl_nil, hnew 0 (by decide),
    hnew 1 (by decide), hnew 2 (by decide), hnew 3 (by decide), decide_eq_true_eq]
  interval_cases r <;> rfl

/-- The role of a WD or CTL lane goes to the spare while it is there, else the transport is lost. -/
theorem roleLost_of_ne_spare {n : Trn} {r : Nat} {s : State} (hr : r ≠ 3) :
    roleLost n r s =
      if s.trn[n].spareInUse = false ∧ s.trn[n].lostRoles.getLsbD 3 = false then takeOver n r (setTrnLeaf n 1 1 s)
      else loseWith n (leafCode 1 6) rMedia (setTrnLeaf n 1 1 s) := by
  have htrn : (setTrnLeaf n 1 1 s).trn = s.trn := rfl
  simp only [roleLost, if_neg hr, htrn, Bool.and_eq_true, Bool.not_eq_true']

/-- The four roles are the low bits of the message's word. -/
theorem getLsbD_roles {bits : Word} {k : Nat} (hk : k < 4) :
    (BitVec.ofNat 4 bits.toNat).getLsbD k = bits.getLsbD k := by
  rw [BitVec.getLsbD_ofNat, decide_eq_true hk, Bool.true_and, BitVec.testBit_toNat]

theorem exec_laneStat_up {n : Trn} {bits : Word} {s : State} (hheard : Heard n s) (hport : s.trn[n].port = .up) :
    exec (.laneStat n bits) s =
      .next (settle s (checkStreams (rolesLost n (BitVec.ofNat 4 bits.toNat) s))) := by
  rw [exec_laneStat, execLaneStat]
  apply doneS_eq
  rw [statusIn_of_heard _ hheard]
  exact if_neg (by rw [hport]; decide)

theorem exec_laneStat_of_none {n : Trn} {bits : Word} {s : State} (hheard : Heard n s) (hport : s.trn[n].port = .up)
    (hold : ∀ k < 4, bits.getLsbD k = true → s.trn[n].lostRoles.getLsbD k = true) :
    exec (.laneStat n bits) s = .next (settle s (checkStreams
      (modTrn n (fun p => { p with lostRoles := BitVec.ofNat 4 bits.toNat }) s))) := by
  rw [exec_laneStat_up hheard hport, rolesLost_of_none]
  intro k hk
  rw [getLsbD_roles hk]
  cases hbit : bits.getLsbD k with
  | false => rfl
  | true => rw [hold k hk hbit]; rfl

theorem exec_laneStat_of_one {n : Trn} {bits : Word} {r : Nat} {s : State} (hheard : Heard n s)
    (hport : s.trn[n].port = .up) (hr : r < 3)
    (hnew : ∀ k < 4, (bits.getLsbD k && !s.trn[n].lostRoles.getLsbD k) = decide (k = r)) :
    let t := modTrn n (fun p => { p with lostRoles := BitVec.ofNat 4 bits.toNat }) s
    exec (.laneStat n bits) s = .next (settle s (checkStreams (
      if s.trn[n].spareInUse = false ∧ bits.getLsbD 3 = false then takeOver n r (setTrnLeaf n 1 1 t)
      else loseWith n (leafCode 1 6) rMedia (setTrnLeaf n 1 1 t)))) := by
  intro t
  have hspare : t.trn[n].spareInUse = s.trn[n].spareInUse := by
    simp only [t, modTrn_trn, upd_get, if_true]
  have hbit : t.trn[n].lostRoles.getLsbD 3 = bits.getLsbD 3 := by
    simp only [t, modTrn_trn, upd_get, if_true, getLsbD_roles (show 3 < 4 by decide)]
  have hone : rolesLost n (BitVec.ofNat 4 bits.toNat) s = roleLost n r t :=
    rolesLost_of_one (by omega) (fun k hk => by rw [getLsbD_roles hk, hnew k hk])
  rw [exec_laneStat_up hheard hport, hone, roleLost_of_ne_spare (by omega), hspare, hbit]

/-! ### SENSOR, KEEPALIVE, REG_DATA and FAULT (R571, R578, R596) -/

theorem exec_sensor_heard {n : Trn} {temp : BitVec 16} {s : State} (hheard : Heard n s) :
    exec (.sensor n temp) s = .next (settle s (modTrn n (fun p => { p with headTemp := temp }) s)) := by
  obtain ⟨hup, -⟩ := id hheard
  rw [exec_sensor, execSensor]
  apply done_eq
  rw [statusIn_of_heard _ hheard]
  exact if_pos hup

theorem exec_keepalive_heard {n : Trn} {s : State} (hheard : Heard n s) : exec (.keepalive n) s = .next (settle s s) := by
  rw [exec_keepalive, execKeepalive]
  exact done_eq (statusIn_of_heard _ hheard)

theorem writeAnswered_reply (q : FarReq) (err : Bool) (s : State) : writeAnswered q (!err) s =
    if err then farError q.origin 5 (popFar q.addr s)
    else modWin q.origin (fun w => { w with busy := false, far := .idle }) (farApply q.addr q.value (popFar q.addr s)) := by
  cases err <;> rfl

theorem readAnswered_reply (q : FarReq) (err : Bool) (v : Word) (s : State) :
    readAnswered q (if err then .farError else .word v) s =
      if q.live = false then popFar q.addr s
      else if err then farError q.origin 5 (popFar q.addr s)
      else farWord q.origin (farValue q.addr v (popFar q.addr s)) (popFar q.addr s) := by
  cases err with
  | false =>
    rw [if_neg Bool.false_ne_true, readAnswered_word]
    cases q.live <;> rfl
  | true =>
    rw [if_pos rfl, readAnswered_farError]
    cases q.live <;> rfl

theorem exec_regData_heard {n : Trn} {addr v : Word} {err : Bool} {q : FarReq} {rest : List FarReq} {s : State}
    (hheard : Heard n s) (hfar : s.trn[n].far = q :: rest) (haddr : q.addr % 0x1000000 = addr.toNat % 0x1000000) :
    exec (.regData n addr v err) s = .next (settle s (
      if q.write then
        if err then farError q.origin 5 (popFar q.addr s)
        else modWin q.origin (fun w => { w with busy := false, far := .idle }) (farApply q.addr q.value (popFar q.addr s))
      else if q.live = false then popFar q.addr s
      else if err then farError q.origin 5 (popFar q.addr s)
      else farWord q.origin (farValue q.addr v (popFar q.addr s)) (popFar q.addr s))) := by
  obtain ⟨hup, -⟩ := id hheard
  rw [exec_regData, execRegData]
  apply done_eq
  rw [statusIn_of_heard _ hheard]
  simp only [hfar, hup, haddr, decide_true, Bool.and_self, if_true, writeAnswered_reply, readAnswered_reply]

theorem exec_fault_up {n : Trn} {kind : Byte} {s : State} (hheard : Heard n s) (hport : s.trn[n].port = .up)
    (hlo : 1 ≤ kind.toNat) (hhi : kind.toNat ≤ 3) :
    exec (.fault n kind) s = .next (settle s (checkStreams (loseWith n (leafCode 0 5) rMedia s))) := by
  rw [exec_fault, execFault]
  apply doneS_eq
  rw [statusIn_of_heard _ hheard]
  exact if_pos (by rw [hport, decide_eq_true ⟨hlo, hhi⟩]; rfl)

/-! ### Messages that are discarded, and a KEEPALIVE that is due (R571) -/

theorem exec_statusMessageDiscard_up {n : Trn} {s : State} (hup : rxUp n s = true) :
    exec (.statusMessageDiscard n) s = .next (settle s (count (0x8718 + 0x40 * n.val) 1 s)) := by
  rw [exec_statusMessageDiscard, execStatusMessageDiscard]
  exact done_if hup

theorem exec_keepaliveDue_eq (n : Trn) (s : State) :
    exec (.keepaliveDue n) s = .next (settle s (sendCtl n 0x7F 0 [] s)) := by
  rw [exec_keepaliveDue, execKeepaliveDue, done]

/-- Settles O55: each clause is its command's lemma, for what it finds; a spoiled message only counts, whichever it is. -/
theorem statusMessagesComplete : Obligations.StatusMessagesComplete := by
  refine ⟨fun n a b s hheard => ⟨exec_credit_starting hheard, exec_credit_up hheard⟩,
    fun n m s hheard => exec_motionStat_heard hheard, ?cartridge, fun n m s hheard => exec_power_heard hheard,
    fun n bits s hheard hport => ⟨exec_laneStat_of_none hheard hport, fun r hr => exec_laneStat_of_one hheard hport hr⟩,
    fun n temp s hheard => ⟨exec_sensor_heard hheard, exec_keepalive_heard hheard⟩,
    fun n addr v err q rest s hheard hfar haddr => exec_regData_heard hheard hfar haddr,
    fun n kind s hheard hport hlo hhi => exec_fault_up hheard hport hlo hhi, ?spoiled,
    fun n s hup => exec_statusMessageDiscard_up hup, exec_keepaliveDue_eq⟩
  case cartridge =>
    intro n m s hheard p t u
    rw [exec_cartridge_heard hheard, show seeCartridge n m s = u from seeCartridge_eq n m s]
    refine ⟨fun hload hunload => ?none, fun l hload hphase hstate => ?threading, fun k hload hunload hstate => ?unloading⟩
    case none => rw [hload, cartridgeMoves_of_none hunload]
    case threading => rw [hload, cartridgeMoves_of_threading hphase hstate]
    case unloading => rw [hload, hunload, cartridgeMoves_of_unloading hstate]; rfl
  case spoiled =>
    intro n a s hup hspoil t
    have hspoiled (go : State → State) : statusIn n go s = t := statusIn_of_spoiled go hup hspoil
    exact ⟨fun _ => done_eq (hspoiled _), fun _ => done_eq (hspoiled _), fun _ _ _ => done_eq (hspoiled _),
      done_eq (hspoiled _), fun _ _ => doneS_eq (hspoiled _), fun _ => doneS_eq (hspoiled _),
      fun _ => doneS_eq (hspoiled _), fun _ => doneS_eq (hspoiled _), fun _ => doneS_eq (hspoiled _),
      fun _ => doneS_eq (hspoiled _)⟩

end Sys2Proof.Machine
end

section
/-!
PROOFS. Losses of a transport, CRC-12 errors, load timeouts, servo frames and ramp faults (R576, R577, R579, R590, R631, R667;
Table 13-8).
-/
namespace Sys2Proof.Machine
open Sys2Proof

/-! ### The meaning of each command -/

theorem exec_linkDown (n : Trn) (s : State) : exec (.linkDown n) s = execLinkDown n s := rfl

theorem exec_losIn (n : Trn) (lane : Fin 14) (s : State) : exec (.losIn n lane) s = execLosIn n lane s := rfl

theorem exec_sysrefErr (n : Trn) (s : State) : exec (.sysrefErr n) s = execSysrefErr n s := rfl

theorem exec_jesdCrcError (n : Trn) (lane : Fin 14) (s : State) :
    exec (.jesdCrcError n lane) s = execJesdCrcError n lane s := rfl

theorem exec_speedErr (n : Trn) (s : State) : exec (.speedErr n) s = execSpeedErr n s := rfl

theorem exec_loadTimeout (n : Trn) (s : State) : exec (.loadTimeout n) s = execLoadTimeout n s := rfl

theorem exec_servoFrame (n : Trn) (f : ServoFrame) (s : State) : exec (.servoFrame n f) s = execServoFrame n f s := rfl

theorem exec_rampFault (n : Trn) (s : State) : exec (.rampFault n) s = execRampFault n s := rfl

/-! ### Losses on a port that is up (R579, Table 13-8) -/

section PortUp

variable {n : Trn} {s : State}

theorem exec_linkDown_up (hport : s.trn[n].port = .up) :
    exec (.linkDown n) s = .next (settle s (checkStreams (loseWith n (leafCode 1 6) rMedia s))) := by
  rw [exec_linkDown, execLinkDown]
  exact doneS_eq (if_pos (by rw [hport]; rfl))

theorem exec_sysrefErr_up (hport : s.trn[n].port = .up) :
    exec (.sysrefErr n) s = .next (settle s (checkStreams (loseWith n (leafCode 1 4) rMedia s))) := by
  rw [exec_sysrefErr, execSysrefErr]
  exact doneS_eq (if_pos (by rw [hport]; rfl))

theorem exec_speedErr_atSpeed (hport : s.trn[n].port = .up) (hspeed : s.trn[n].motion = 2) :
    exec (.speedErr n) s = .next (settle s (checkStreams (loseWith n (leafCode 2 2) rMedia s))) := by
  rw [exec_speedErr, execSpeedErr]
  exact doneS_eq (if_pos (by rw [hport, hspeed]; rfl))

theorem exec_losIn_up {lane : Fin 14} (hport : s.trn[n].port = .up) (hlane : lane.val < 10) :
    exec (.losIn n lane) s = .next (settle s (checkStreams (loseWith n (leafCode 1 0) rMedia s))) := by
  rw [exec_losIn, execLosIn]
  exact doneS_eq (if_pos (by rw [hport, decide_eq_true hlane]; rfl))

theorem exec_jesdCrcError_up {lane : Fin 14} (hport : s.trn[n].port = .up) (hlane : lane.val < 10) :
    exec (.jesdCrcError n lane) s = .next (settle s (count (0x8720 + 0x40 * n.val) 1 s)) := by
  rw [exec_jesdCrcError, execJesdCrcError]
  exact done_if (by rw [hport, decide_eq_true hlane]; rfl)

theorem exec_loadTimeout_eq (n : Trn) (s : State) :
    exec (.loadTimeout n) s = .next (settle s (failLoad n rMedia s)) := by
  rw [exec_loadTimeout, execLoadTimeout, done]

/-! ### Servo frames (R576, R577) -/

theorem exec_servoFrame_invalid {f : ServoFrame} (hport : s.trn[n].port = .up) (hvalid : f.valid = false) :
    exec (.servoFrame n f) s = .next (settle s (checkStreams (
      if s.trn[n].servoBad + 1 ≥ 8 then
        loseWith n (leafCode 2 1) rMedia (modTrn n (fun p => { p with servoBad := 0 })
          (modTrn n (fun p => { p with servoBad := p.servoBad + 1, servoGood := 0 }) s))
      else modTrn n (fun p => { p with servoBad := p.servoBad + 1, servoGood := 0 }) s))) := by
  rw [exec_servoFrame, execServoFrame]
  apply doneS_eq
  rw [if_neg (by rw [hport]; decide), hvalid]
  simp only [Bool.not_false, if_true, modTrn_trn, upd_get]

theorem exec_servoFrame_valid {f : ServoFrame} (hport : s.trn[n].port = .up) (hvalid : f.valid = true) :
    let t := sendCtl n 0x10 ((freeValue s).1.toNat % 65536) [] (freeValue s).2
    let u := if t.trn[n].motion = 0 then t else sendCtl n 0x11 (writeRate f.speed) [] t
    exec (.servoFrame n f) s = .next (settle s (checkStreams (onFrame n f
      (modTrn n (fun p => { p with servoBad := 0, lpos := f.lpos, pes := BitVec.ofInt 16 f.pes }) u)))) := by
  intro t u
  rw [exec_servoFrame, execServoFrame]
  apply doneS_eq
  rw [if_neg (by rw [hport]; decide), hvalid]
  rfl

/-! ### RAMP_FAULT (R667) -/

theorem exec_rampFault_ramping (hon : govOn s = true)
    (hramp : s.gov.mem[n].state ∈ ([.stopping, .restarting, .turning] : List GovState) ∨ s.gov.mem[n].locating = true ∨
      (s.gov.mem[n].state = .running ∧ s.trn[n].motion = 1)) :
    exec (.rampFault n) s = .next (settle s (checkStreams (count 0x8A18 1 (raise1 20 (leafCode 0 4) 0
      (loseTransport n rMedia s).1 (loseTransport n rMedia s).2)))) := by
  rw [exec_rampFault, execRampFault]
  apply doneS_eq
  refine if_pos ?_
  simpa [hon, or_assoc] using hramp

end PortUp

/-- Settles O56: each clause is its command's lemma, where the event can occur. That only a valid frame sends ACTUATOR, with a
free command, is log 40's, and that a CRC-12 error counts for the inbound lanes is log 71's. -/
theorem transportLossEventsComplete : Obligations.TransportLossEventsComplete :=
  ⟨fun _ _ hport => ⟨exec_linkDown_up hport, exec_sysrefErr_up hport, exec_speedErr_atSpeed hport⟩,
   fun _ _ _ hport hlane => ⟨exec_losIn_up hport hlane, exec_jesdCrcError_up hport hlane⟩,
   exec_loadTimeout_eq,
   fun _ _ _ hport hvalid => exec_servoFrame_invalid hport hvalid,
   fun _ _ _ hport hvalid => exec_servoFrame_valid hport hvalid,
   fun _ _ hon hramp => exec_rampFault_ramping hon hramp⟩

end Sys2Proof.Machine
end

section
/-!
PROOFS. Data-set boundaries, rows, rulings, deep decodes and the end of a writing session (R550, R599, R602, R604, R607, R608,
R617, R625, R677, R678, R717; Table 16-10).
-/
namespace Sys2Proof.Machine
open Sys2Proof

/-! ### The meaning of each command -/

theorem exec_dataSetBoundary (n : Trn) (lpos : Nat) (s : State) :
    exec (.dataSetBoundary n lpos) s = execDataSetBoundary n lpos s := rfl

theorem exec_rowBuild (n : Trn) (s : State) : exec (.rowBuild n) s = execRowBuild n s := rfl

theorem exec_rowFlushTimer (n : Trn) (s : State) : exec (.rowFlushTimer n) s = execRowFlushTimer n s := rfl

theorem exec_rowRuled (n : Trn) (reads : List CwRead) (s : State) :
    exec (.rowRuled n reads) s = execRowRuled n reads s := rfl

theorem exec_rulingTimeout (n : Trn) (s : State) : exec (.rulingTimeout n) s = execRulingTimeout n s := rfl

theorem exec_deepDecodeDone (n : Trn) (ok : Bool) (s : State) :
    exec (.deepDecodeDone n ok) s = execDeepDecodeDone n ok s := rfl

theorem exec_sessionEnd (n : Trn) (s : State) : exec (.sessionEnd n) s = execSessionEnd n s := rfl

section Writing

variable {n : Trn} {s : State}

/-! ### Boundaries and rows (R599, R602, R604) -/

theorem exec_dataSetBoundary_ready {lpos : Nat} (hon : fmtOn s = true) (hloaded : s.trn[n].loaded = .writing)
    (hsession : s.fmt.trn[n].session.isSome = true) (hready : readyToWrite n s = true)
    (hboundary : atBoundary n s = true) :
    let t := boundary n lpos (modGov n (fun g => { g with state := .running }) s)
    exec (.dataSetBoundary n lpos) s =
      .next (settle s (checkStreams (if t.fmt.trn[n].cur.isSome then startWriting n t else t))) := by
  rw [exec_dataSetBoundary, execDataSetBoundary]
  exact doneS_eq (if_pos (by rw [hon, hloaded, hsession, hready, hboundary]; rfl))

theorem creditsForRow_of_ge (h0 : s.trn[n].credit0 ≥ rowBlocks) (h1 : s.trn[n].credit1 ≥ rowBlocks) :
    creditsForRow n s = true := by
  rw [creditsForRow, decide_eq_true h0, decide_eq_true h1]
  rfl

theorem exec_rowBuild_credited (hon : fmtOn s = true) (hgate : s.trn[n].gate = true) (h0 : s.trn[n].credit0 ≥ rowBlocks)
    (h1 : s.trn[n].credit1 ≥ rowBlocks) : exec (.rowBuild n) s = .next (settle s (buildRow n false s)) := by
  rw [exec_rowBuild, execRowBuild]
  exact done_if (by rw [hon, hgate, creditsForRow_of_ge h0 h1]; rfl)

theorem exec_rowFlushTimer_open (hon : fmtOn s = true) (hgate : s.trn[n].gate = true)
    (h0 : s.trn[n].credit0 ≥ rowBlocks) (h1 : s.trn[n].credit1 ≥ rowBlocks) (hopen : s.fmt.trn[n].rowOpen = true) :
    exec (.rowFlushTimer n) s = .next (settle s (buildRow n true s)) := by
  rw [exec_rowFlushTimer, execRowFlushTimer]
  exact done_if (by rw [hon, hgate, creditsForRow_of_ge h0 h1, hopen]; rfl)

/-! ### Rulings (R607, R608, R617, R717) -/

/-- The leaves of a row's ruling: a row that passes with a codeword of more than 32 corrected bits, and a codeword that fails
with more than 1,024 erased (Table 16-10). -/
def noteRuling (n : Trn) (pass : Bool) (cs : List CwVerdict) (s : State) : State :=
  let t := if pass && cs.any (fun c => decide (c.result.differ > 32)) then setTrnLeaf n 3 1 s else s
  if cs.any (fun c => !c.verifies && decide (c.result.erased > 1024)) then setTrnLeaf n 3 2 t else t

/-- What the read channel makes of a row, the injector `fires` for a row that fails whatever its codewords (Table 19-6). -/
def ruleReads (n : Trn) (reads : List CwRead) (fires : Bool) (s : State) : State :=
  let y := rowVerdicts n reads s
  let pass := y.1.all (·.verifies) && !fires
  ruleRow n pass (noteRuling n pass y.1 (noteDecodes n y.1 y.2))

theorem exec_rowRuled_waiting {reads : List CwRead} (hon : vrfOn n s = true) (hwaits : s.fmt.trn[n].unruled ≠ [])
    (hlen : reads.length = 64) :
    let x := takeInjector 5 (fun a => decide (a.p2.toNat = n.val)) s
    exec (.rowRuled n reads) s = .next (settle s (checkStreams (ruleReads n reads x.1.isSome x.2))) := by
  intro x
  have hgo : (!vrfOn n s || s.fmt.trn[n].unruled.isEmpty || reads.length != 64) = false := by
    rw [hon, hlen, List.isEmpty_eq_false_iff.mpr hwaits]
    rfl
  rw [exec_rowRuled, execRowRuled]
  apply doneS_eq
  rw [hgo, ruleReads, Option.not_isSome]
  rfl

theorem noteRuling_eq (pass : Bool) (cs : List CwVerdict) (s : State) :
    noteRuling n pass cs s =
      let t := if pass = true ∧ ∃ c ∈ cs, c.result.differ > 32 then setTrnLeaf n 3 1 s else s
      if ∃ c ∈ cs, c.verifies = false ∧ c.result.erased > 1024 then setTrnLeaf n 3 2 t else t := by
  simp only [noteRuling, Bool.and_eq_true, List.any_eq_true, decide_eq_true_eq, Bool.not_eq_true']

/-- No injector fires: the row passes where each codeword verifies. -/
theorem exec_rowRuled_unspoiled {reads : List CwRead} (hon : vrfOn n s = true) (hwaits : s.fmt.trn[n].unruled ≠ [])
    (hlen : reads.length = 64) (hnone : s.dbg.armed.find? (fun a => a.code == 5 && decide (a.p2.toNat = n.val)) = none) :
    let y := rowVerdicts n reads s
    let t := noteDecodes n y.1 y.2
    let u := if (∀ c ∈ y.1, c.verifies = true) ∧ (∃ c ∈ y.1, c.result.differ > 32) then setTrnLeaf n 3 1 t else t
    let w := if ∃ c ∈ y.1, c.verifies = false ∧ c.result.erased > 1024 then setTrnLeaf n 3 2 u else u
    exec (.rowRuled n reads) s = .next (settle s (checkStreams (ruleRow n (y.1.all (·.verifies)) w))) := by
  intro y t u w
  have htake : takeInjector 5 (fun a => decide (a.p2.toNat = n.val)) s = (none, s) := by rw [takeInjector, hnone]
  have hnote : noteRuling n (y.1.all (·.verifies)) y.1 t = w := by
    rw [noteRuling_eq]
    simp only [List.all_eq_true]
    rfl
  rw [exec_rowRuled_waiting hon hwaits hlen, htake, ← hnote, ruleReads]
  simp only [Option.isSome_none, Bool.not_false, Bool.and_true]
  rfl

/-- An injector fires: the row fails though each codeword verifies. -/
theorem exec_rowRuled_spoiled {reads : List CwRead} {a : Injector} (hon : vrfOn n s = true)
    (hwaits : s.fmt.trn[n].unruled ≠ []) (hlen : reads.length = 64)
    (hsome : s.dbg.armed.find? (fun a => a.code == 5 && decide (a.p2.toNat = n.val)) = some a) :
    let y := rowVerdicts n reads { s with dbg.armed := s.dbg.armed.filter (fun a => a.code != 5) }
    (∀ c ∈ y.1, c.verifies = true) →
    exec (.rowRuled n reads) s = .next (settle s (checkStreams (ruleRow n false (noteDecodes n y.1 y.2)))) := by
  intro y hverify
  have htake : takeInjector 5 (fun a => decide (a.p2.toNat = n.val)) s =
      (some a, { s with dbg.armed := s.dbg.armed.filter (fun a => a.code != 5) }) := by rw [takeInjector, hsome]
  have hnote : noteRuling n false y.1 (noteDecodes n y.1 y.2) = noteDecodes n y.1 y.2 := by
    rw [noteRuling_eq]
    have hsound : ¬∃ c ∈ y.1, c.verifies = false ∧ c.result.erased > 1024 := by
      rintro ⟨c, hc, hfails, -⟩
      exact Bool.false_ne_true (hfails.symm.trans (hverify c hc))
    simp only [Bool.false_eq_true, false_and, if_false, if_neg hsound]
  rw [exec_rowRuled_waiting hon hwaits hlen, htake, ← hnote, ruleReads]
  simp only [Option.isSome_some, Bool.not_true, Bool.and_false]
  rfl

theorem exec_rulingTimeout_waiting (hon : vrfOn n s = true) (hwaits : s.fmt.trn[n].unruled ≠ []) :
    exec (.rulingTimeout n) s =
      .next (settle s (checkStreams (ruleRow n false (raise1 19 (leafCode 0 1) 0 [] s)))) := by
  rw [exec_rulingTimeout, execRulingTimeout]
  exact doneS_eq (if_neg (by rw [hon, List.isEmpty_eq_false_iff.mpr hwaits]; decide))

/-! ### Deep decodes (R677, R678) -/

theorem exec_deepDecodeDone_queued (hon : vrfOn n s = true) (hdeep : s.fmt.trn[n].deep ≠ 0) :
    exec (.deepDecodeDone n true) s = .next (settle s (modFmt n (fun f => { f with deep := f.deep - 1 }) s)) ∧
    exec (.deepDecodeDone n false) s =
      .next (settle s (count 0x8B08 1 (modFmt n (fun f => { f with deep := f.deep - 1 }) s))) := by
  have hgo : ¬(!vrfOn n s || s.fmt.trn[n].deep == 0) = true := by
    rw [hon, beq_false_of_ne hdeep]
    decide
  rw [exec_deepDecodeDone, exec_deepDecodeDone, execDeepDecodeDone, execDeepDecodeDone]
  exact ⟨done_eq (if_neg hgo), done_eq (if_neg hgo)⟩

/-! ### The end of a session (R550, R591, R625) -/

theorem exec_sessionEnd_ruled {x : Session} (hsession : s.fmt.trn[n].session = some x) (hending : x.ending = true)
    (hon : fmtOn s = true) (hcur : s.fmt.trn[n].cur = none) (hitems : itemsPending n s = false)
    (hready : readyToWrite n s = true) (hstop : stopNow n s = false) :
    let t := modTrn n (fun t => { t with loaded := .nothing }) (leadOutStop n (writeSessionEnd n (startWriting n s)))
    exec (.sessionEnd n) s = .next (settle s (checkStreams (match t.trn[n].unloading with
      | some (k, false) => modTrn n (fun p => { p with unloading := some (k, true) }) (sendCtl n 0x31 0 [] t)
      | _ => t))) := by
  intro t
  have hgo : (!x.ending || !fmtOn s || s.fmt.trn[n].cur.isSome || itemsPending n s || !readyToWrite n s ||
      stopNow n s) = false := by
    rw [hending, hon, hcur, hitems, hready, hstop]
    rfl
  rw [exec_sessionEnd, execSessionEnd]
  apply doneS_eq
  simp only [hsession, hgo, Bool.false_eq_true, if_false] <;> rfl

end Writing

/-- Settles O57: each clause is its command's lemma, where the event can occur. -/
theorem writingAndVerifyEventsComplete : Obligations.WritingAndVerifyEventsComplete := by
  refine ⟨fun _ _ _ hon hloaded hsession hready hboundary =>
      exec_dataSetBoundary_ready hon hloaded hsession hready hboundary,
    fun _ _ hon hgate h0 h1 => ⟨exec_rowBuild_credited hon hgate h0 h1, exec_rowFlushTimer_open hon hgate h0 h1⟩,
    fun _ _ _ hon hwaits hlen hnone => exec_rowRuled_unspoiled hon hwaits hlen hnone,
    fun _ _ _ _ hon hwaits hlen hsome => exec_rowRuled_spoiled hon hwaits hlen hsome,
    fun _ _ hon hwaits => exec_rulingTimeout_waiting hon hwaits,
    fun _ _ hon hdeep => exec_deepDecodeDone_queued hon hdeep, ?sessionEnd⟩
  case sessionEnd =>
    intro n x s hsession hending hon hcur hitems hready hstop t
    rw [exec_sessionEnd_ruled hsession hending hon hcur hitems hready hstop] <;> rfl

end Sys2Proof.Machine
end

section
/-!
PROOFS. The counts of a junction sample (R721 to R723, R735).
-/
namespace Sys2Proof.Machine
open Sys2Proof

section Counts

variable {t hi lo : Int} {c : Nat × Nat}

theorem countSample_of_ge (h : hi ≤ t) : countSample t hi lo c = (min 16 (c.1 + 1), 0) := if_pos h

theorem countSample_of_le (hlt : t < hi) (h : t ≤ lo) : countSample t hi lo c = (0, min 16 (c.2 + 1)) := by
  rw [countSample, if_neg (by omega), if_pos h]

theorem countSample_of_between (hlo : lo < t) (hhi : t < hi) : countSample t hi lo c = (0, 0) := by
  rw [countSample, if_neg (by omega), if_neg (by omega)]

/-- Neither count goes past 16. -/
theorem countSample_le (t hi lo : Int) (c : Nat × Nat) :
    (countSample t hi lo c).1 ≤ 16 ∧ (countSample t hi lo c).2 ≤ 16 := by
  unfold countSample
  split
  · exact ⟨Nat.min_le_left _ _, Nat.zero_le _⟩
  · split
    · exact ⟨Nat.zero_le _, Nat.min_le_left _ _⟩
    · exact ⟨Nat.zero_le _, Nat.zero_le _⟩

end Counts

/-- The leaf of a sensor that became invalid is no part of the sensors' state. -/
theorem setLeaf_ite_therm (p : Prop) [Decidable p] (src bit : Nat) (s : State) :
    (if p then s else setLeaf src bit s).therm = s.therm := by
  split <;> rfl

/-- A sample leaves the throttle and the critical condition, takes validity away or keeps it, and counts its highest
reading, or begins every count anew where no sensor is valid. -/
theorem takeSample_therm (rs : List Int) (s : State) :
    let t := (takeSample rs s).2.therm
    t.throttle = s.therm.throttle ∧ t.critical = s.therm.critical ∧ (∃ kept, t.valid = s.therm.valid &&& kept) ∧
    ((t.hot, t.cool) = (0, 0) ∧ (t.critHot, t.critCool) = (0, 0) ∨
      ∃ m, (t.hot, t.cool) = countSample m 1000 960 (s.therm.hot, s.therm.cool) ∧
        (t.critHot, t.critCool) = countSample m 1100 1060 (s.therm.critHot, s.therm.critCool)) := by
  unfold takeSample
  dsimp only
  split
  · refine ⟨?_, ?_, ⟨_, BitVec.and_assoc _ _ _⟩, .inl ⟨rfl, rfl⟩⟩ <;> simp only [setLeaf_ite_therm]
  · next x rest _ =>
    refine ⟨?_, ?_, ⟨_, BitVec.and_assoc _ _ _⟩, .inr ⟨rest.foldl max x, ?_, ?_⟩⟩ <;> simp only [setLeaf_ite_therm]

/-- Settles O41: each case of a count has its lemma; a sample's counts are those of `countSample`, or 0. -/
theorem sensorSamplesCountUpToSixteen : Obligations.SensorSamplesCountUpToSixteen := by
  refine ⟨fun hi lo t a b hlt _ _ => ⟨countSample_of_ge, fun h => countSample_of_le (by omega) h,
    countSample_of_between⟩, fun rs s => ?sample⟩
  case sample =>
    obtain ⟨hthrottle, hcritical, ⟨kept, hvalid⟩, hcounts⟩ := takeSample_therm rs s
    intro t
    have hbounds : (t.therm.hot ≤ 16 ∧ t.therm.cool ≤ 16) ∧ t.therm.critHot ≤ 16 ∧ t.therm.critCool ≤ 16 := by
      rcases hcounts with ⟨h, hcrit⟩ | ⟨m, h, hcrit⟩
      · obtain ⟨hhot, hcool⟩ := Prod.mk.inj h
        obtain ⟨hcritHot, hcritCool⟩ := Prod.mk.inj hcrit
        exact ⟨⟨hhot.le.trans (by decide), hcool.le.trans (by decide)⟩, hcritHot.le.trans (by decide),
          hcritCool.le.trans (by decide)⟩
      · have hle := countSample_le m 1000 960 (s.therm.hot, s.therm.cool)
        have hcritLe := countSample_le m 1100 1060 (s.therm.critHot, s.therm.critCool)
        rw [← h] at hle
        rw [← hcrit] at hcritLe
        exact ⟨hle, hcritLe⟩
    obtain ⟨⟨hhot, hcool⟩, hcritHot, hcritCool⟩ := hbounds
    refine ⟨hhot, hcool, hcritHot, hcritCool, hthrottle, hcritical, fun i hi => ?_⟩
    rw [hvalid, BitVec.getLsbD_and, Bool.and_eq_true] at hi
    exact hi.1

end Sys2Proof.Machine
end

section
/-!
PROOFS. The cipher's dispatch, encryption and re-encryption, mask seeds, core and entropy faults, emptied slots, and the fuse rows
(R474, R478, R485, R489, R492, R494, R498, R499, R502, R506, R509; Table 11-3).
-/
namespace Sys2Proof.Machine
open Sys2Proof

/-! ### The meaning of each command -/

theorem exec_cipDispatch (s : State) : exec .cipDispatch s = execCipDispatch s := rfl

theorem exec_blockEncrypted (u : Fin 8) (s : State) : exec (.blockEncrypted u) s = execBlockEncrypted u s := rfl

theorem exec_reencryptBlock (s : State) : exec .reencryptBlock s = execReencryptBlock s := rfl

theorem exec_maskReseed (u : Fin 8) (s : State) : exec (.maskReseed u) s = execMaskReseed u s := rfl

theorem exec_coreFault (u : Fin 8) (s : State) : exec (.coreFault u) s = execCoreFault u s := rfl

theorem exec_entropyFail (s : State) : exec .entropyFail s = execEntropyFail s := rfl

theorem exec_keySlotEmptied (k : Fin 16) (s : State) : exec (.keySlotEmptied k) s = execKeySlotEmptied k s := rfl

theorem exec_unlockWindowExpiry (s : State) : exec .unlockWindowExpiry s = execUnlockWindowExpiry s := rfl

theorem exec_nvRowDone (s : State) : exec .nvRowDone s = execNvRowDone s := rfl

section Cipher

variable {u : Fin 8} {r k : Nat} {v : Rec} {s : State}

/-! ### Dispatch (R489, R499) -/

/-- A restore block goes first. -/
theorem exec_cipDispatch_restore {q : Request} (hon : cipOn s = true)
    (hfree : (List.finRange 8).find? (fun u => unitFree u s) = some u) (hnext : nextRestore s = some q) :
    exec .cipDispatch s = .next (settle s (dispatchRestore u q s)) := by
  rw [exec_cipDispatch, execCipDispatch]
  apply done_eq
  simp only [hon, hfree, hnext]
  rfl

/-- Then a block to encrypt again. -/
theorem exec_cipDispatch_again (hon : cipOn s = true)
    (hfree : (List.finRange 8).find? (fun u => unitFree u s) = some u) (hnone : nextRestore s = none)
    (hagain : againWaiting s = some (r, k, v)) :
    exec .cipDispatch s = .next (settle s (dispatchBlock u r k v (.again r k) .encrypted s)) := by
  rw [exec_cipDispatch, execCipDispatch]
  apply done_eq
  simp only [hon, hfree, hnone, hagain]
  rfl

/-- Then the next packed block of the streams in turn. -/
theorem exec_cipDispatch_packed {i : Strm} (hon : cipOn s = true)
    (hfree : (List.finRange 8).find? (fun u => unitFree u s) = some u) (hnone : nextRestore s = none)
    (hagain : againWaiting s = none)
    (hround : (roundFrom s.cip.turn).findSome? (fun i => (nextToEncrypt i s).map (fun x => (i, x))) = some (i, r, k, v)) :
    exec .cipDispatch s =
      .next (settle s (dispatchBlock u r k v (.encrypt r k) .inUnit { s with cip.turn := i.val })) := by
  rw [exec_cipDispatch, execCipDispatch]
  apply done_eq
  simp only [hon, hfree, hnone, hagain, hround]
  rfl

/-! ### Encryption and re-encryption (R478, R485) -/

theorem exec_blockEncrypted_sound {p : List Byte} {t : State} (hon : cipOn s = true)
    (hjob : s.cip.unit[u].job = some (.encrypt r k)) (hlive : liveRec r s = some v)
    (hmasks : masksLast u (aesBlocks (v.blocks.getD k {}).len) s = true) :
    let b := v.blocks.getD k {}
    let w := freeUnit u (spendMasks u (aesBlocks b.len) s)
    slotLive (v.slot.getD 16) w = true → readHeld r (subRanges b.segs 16 b.len) w = (some p, t) →
    exec (.blockEncrypted u) s = .next (settle s (blockEncrypted r k (count 0x8600 1 (writeRanges b.segs
      (encryptedBlock (slotKey (v.slot.getD 16) t) (envelopeOf v t) k b.iv p) t)))) := by
  intro b w hslot hread
  rw [exec_blockEncrypted, execBlockEncrypted]
  apply done_eq
  simp only [b, w] at hslot hread
  simp only [hon, hjob, hlive, hmasks, hslot, hread]
  rfl

theorem exec_reencryptBlock_live (hon : cipOn s = true)
    (hjob : (List.finRange 8).findSome? (fun u => match s.cip.unit[u].job with
      | some (.again r k) => some (u, r, k)
      | _ => none) = some (u, r, k))
    (hlive : liveRec r s = some v) (hmasks : masksLast u (2 * aesBlocks (v.blocks.getD k {}).len) s = true) :
    exec .reencryptBlock s = .next (settle s (encryptAgain r k v
      (freeUnit u (spendMasks u (2 * aesBlocks (v.blocks.getD k {}).len) s)))) := by
  rw [exec_reencryptBlock, execReencryptBlock]
  apply done_eq
  rw [if_neg (by rw [hon]; decide)]
  split
  · next hnone => exact absurd (hjob.symm.trans hnone) (by simp)
  · next u' r' k' hsome =>
    cases hjob.symm.trans hsome
    simp only [hlive, hmasks, if_true]

/-! ### Seeds, faults and the entropy source (R474, R498, R509) -/

theorem exec_maskReseed_fed (hon : domOn 6 s = true) (hentropy : s.cip.entropyOk = true) (hrun : haltedSrc 8 s = false) :
    exec (.maskReseed u) s =
      .next (settle s { s with cip.unit := upd s.cip.unit u (fun x => { x with aes := 0, seedAt := now s }) }) := by
  rw [exec_maskReseed, execMaskReseed]
  exact done_if (by rw [hon, hentropy, hrun]; rfl)

theorem exec_coreFault_inService (hon : cipOn s = true) (hoff : s.cip.unit[u].off = false) :
    exec (.coreFault u) s = .next (settle s (raise2 8 (leafCode 0 4) 8 0 s)) := by
  rw [exec_coreFault, execCoreFault]
  exact done_if (by rw [hon, hoff]; rfl)

theorem exec_entropyFail_unarmed (hon : keyOn s = true) (hentropy : s.cip.entropyOk = true)
    (hnone : s.dbg.armed.find? (fun a => a.code == 9) = none) :
    exec .entropyFail s =
      .next (settle s (raise2 9 (leafCode 0 5) 9 0 (count 0x8628 1 { s with cip.entropyOk := false }))) := by
  rw [exec_entropyFail, execEntropyFail]
  apply done_eq
  simp only [hon, hentropy, takeInjector, Bool.and_true, hnone]
  rfl

end Cipher

/-! ### Emptied slots (R502) -/

theorem exec_keySlotEmptied_unbound {k : Fin 16} {s : State} (hclearing : s.cip.slot[k].state = .clearing)
    (hbound : recsBound k.val s = 0) (hon : domOn 6 s = true) :
    let t := (recsWhere (fun v => v.slot == some k.val) s).foldl (fun s r => modRec r (fun v => { v with slot := none }) s) s
    exec (.keySlotEmptied k) s =
      .next (settle s (finishClears { t with cip.slot := upd t.cip.slot k (fun _ => {}) })) := by
  rw [exec_keySlotEmptied, execKeySlotEmptied]
  apply done_eq
  exact if_neg (by simpa [hbound, hon] using hclearing)

/-! ### Fuse rows (R492, R494, R506) -/

section Fuses

variable {op : NvOp} {row : Nat} {s : State}

theorem exec_unlockWindowExpiry_unlocked (hphase : s.nv.phase = .unlocked op) :
    let t := setLeaf 9 4 { s with nv.phase := .idle }
    exec .unlockWindowExpiry s = .next (settle s (
      if op.tries ≥ 2 then nvKick (endNv op rBusy [] t)
      else nvKick { t with nv.queue := { op with tries := op.tries + 1 } :: t.nv.queue })) := by
  rw [exec_unlockWindowExpiry, execUnlockWindowExpiry]
  apply done_eq
  simp only [hphase]

/-- A row under way is not started again. -/
theorem nvStart_of_row (hphase : s.nv.phase = .row op row) : nvStart s = s := by
  rw [nvStart, hphase]

/-- An unlocked change whose item has an unstarted row starts it. -/
theorem nvStart_of_unlocked (hphase : s.nv.phase = .unlocked op) (hrun : supRuns s = true)
    (hinhibit : s.aon.nvInhibit = false)
    (hrow : (((s.nv.rows[op.item]?).getD []).zipIdx.find? (fun r => !r.1.started)).map (·.2) = some row) :
    nvStart s = modRow op.item row (fun r => { r with started := true }) { s with nv.phase := .row op row } := by
  simp only [nvStart, hphase, hrun, hrow, hinhibit]
  rfl

/-- The row is committed and its command answers; a lifecycle row may retire keys. -/
theorem exec_nvRowDone_started {t : State} (hstart : nvStart s = t) (hphase : t.nv.phase = .row op row) :
    let w := endNv op rOk (rowWords op row) { modRow op.item row (fun r => { r with
      value := op.value, crc := rowCrc op.item op.value, commit := true }) t with nv.phase := .idle }
    exec .nvRowDone s =
      .next (settle s (nvKick (bootOn (if op.item = 0 then finishClears (retireKeys w) else w)))) := by
  rw [exec_nvRowDone, execNvRowDone]
  apply done_eq
  simp only [hstart, hphase]

end Fuses

/-- Settles O53: each clause is its command's lemma, for what waits; a row is through that was under way, or that the same
command starts. -/
theorem cipherKeyAndFuseEventsComplete : Obligations.CipherKeyAndFuseEventsComplete := by
  refine ⟨fun u s hon hfree => ⟨fun q hnext => exec_cipDispatch_restore hon hfree hnext,
      fun r k v hnone hagain => exec_cipDispatch_again hon hfree hnone hagain,
      fun i r k v hnone hagain hround => exec_cipDispatch_packed hon hfree hnone hagain hround⟩,
    fun u r k v p s t hon hjob hlive hmasks => exec_blockEncrypted_sound hon hjob hlive hmasks,
    fun u r k v s hon hjob hlive hmasks => exec_reencryptBlock_live hon hjob hlive hmasks,
    fun u s hon hentropy hrun => exec_maskReseed_fed hon hentropy hrun,
    fun u s hon hoff => exec_coreFault_inService hon hoff,
    fun s hon hentropy hnone => exec_entropyFail_unarmed hon hentropy hnone,
    fun k s hclearing hbound hon => exec_keySlotEmptied_unbound hclearing hbound hon,
    fun op s hphase => exec_unlockWindowExpiry_unlocked hphase, ?rowDone⟩
  case rowDone =>
    rintro op row s t (⟨hphase, rfl⟩ | ⟨hphase, hrun, hinhibit, hrow, rfl⟩)
    · exact exec_nvRowDone_started (nvStart_of_row hphase) hphase
    · exact exec_nvRowDone_started (nvStart_of_unlocked hphase hrun hinhibit hrow) rfl

end Sys2Proof.Machine
end

section
/-!
PROOFS. The debug agent and the core: halt, trigger, resume, step, abstract commands and the program buffer (R773, R774, R778 to
R781; Table 19-2).
-/
namespace Sys2Proof.Machine
open Sys2Proof

/-! ### The meaning of each command -/

theorem exec_debugHalt (s : State) : exec .debugHalt s = execDebugHalt s := rfl

theorem exec_triggerHit (s : State) : exec .triggerHit s = execTriggerHit s := rfl

theorem exec_debugResume (s : State) : exec .debugResume s = execDebugResume s := rfl

theorem exec_debugStep (s : State) : exec .debugStep s = execDebugStep s := rfl

theorem exec_abstractCommand (w : Bool) (r : BitVec 16) (v : BitVec 64) (s : State) :
    exec (.abstractCommand w r v) s = execAbstractCommand w r v s := rfl

theorem exec_programBufferExec (s : State) : exec .programBufferExec s = execProgramBufferExec s := rfl

/-! ### The agent's use of its module (log 27) -/

/-- The module as the agent's use leaves it, which is active. -/
def activeDm (s : State) : State := { s with dm.dmactive := true }

theorem debugDo_of_tapOn {s : State} (f : State → State) (htap : tapOn s = true) : debugDo f s = f (activeDm s) :=
  if_pos htap

theorem limited_activeDm (s : State) : limited (activeDm s) = limited s := rfl

theorem halted_activeDm (s : State) : (activeDm s).dbg.halted = s.dbg.halted := rfl

theorem haltable_activeDm (s : State) : haltable (activeDm s) = haltable s := rfl

section Core

variable {s : State}

/-! ### Halt, trigger, resume and step (R774, R779 to R781) -/

theorem exec_debugHalt_running (htap : tapOn s = true) (hlimited : limited s = false) (hhalted : s.dbg.halted = false) :
    let t : State := { s with dm.dmactive := true }
    exec .debugHalt s = .next (settle s (if haltable s then haltCore t else { t with dm.haltDue := true })) := by
  rw [exec_debugHalt, execDebugHalt]
  apply done_eq
  rw [debugDo_of_tapOn _ htap, requestHalt, limited_activeDm, halted_activeDm, hlimited, hhalted, haltable_activeDm]
  rfl

theorem exec_debugHalt_limited (htap : tapOn s = true) (hlimited : limited s = true) :
    exec .debugHalt s = .next (settle s { s with dm.dmactive := true }) := by
  rw [exec_debugHalt, execDebugHalt]
  apply done_eq
  rw [debugDo_of_tapOn _ htap, requestHalt, limited_activeDm, hlimited]
  rfl

theorem exec_triggerHit_running (htap : tapOn s = true) (hlimited : limited s = false) (hhalted : s.dbg.halted = false)
    (hrun : haltable s = true) :
    exec .triggerHit s = .next (settle s (haltCore { s with dm.dmactive := true })) := by
  rw [exec_triggerHit, execTriggerHit]
  apply done_eq
  rw [debugDo_of_tapOn _ htap, limited_activeDm, halted_activeDm, haltable_activeDm, hlimited, hhalted, hrun]
  rfl

theorem exec_debugResume_halted (htap : tapOn s = true) (hlimited : limited s = false) (hhalted : s.dbg.halted = true) :
    exec .debugResume s = .next (settle s (resumeCore { s with dm.dmactive := true })) := by
  rw [exec_debugResume, execDebugResume]
  apply done_eq
  rw [debugDo_of_tapOn _ htap, limited_activeDm, halted_activeDm, hlimited, hhalted]
  rfl

theorem exec_debugStep_halted (htap : tapOn s = true) (hlimited : limited s = false) (hhalted : s.dbg.halted = true) :
    exec .debugStep s = .next (settle s (stepCore { s with dm.dmactive := true })) := by
  rw [exec_debugStep, execDebugStep]
  apply done_eq
  rw [debugDo_of_tapOn _ htap, limited_activeDm, halted_activeDm, hlimited, hhalted]
  rfl

/-! ### Abstract commands and the program buffer (R773, R778) -/

/-- Where the core may be accessed, an abstract command reaches its register. -/
theorem exec_abstractCommand_halted (w : Bool) {r : BitVec 16} (v : BitVec 64) (htap : tapOn s = true)
    (hlimited : limited s = false) (hhalted : s.dbg.halted = true) (hreg : isReg r.toNat = true) :
    exec (.abstractCommand w r v) s = .next (settle s (accessRegister w r.toNat v (activeDm s))) := by
  rw [exec_abstractCommand, execAbstractCommand]
  apply done_eq
  rw [debugDo_of_tapOn _ htap, limited_activeDm, halted_activeDm, hlimited, hhalted, hreg]
  rfl

/-- What a read of a register shows: its value, dcsr.stoptime set. -/
theorem stopTime_readReg (r : BitVec 16) (s : State) :
    stopTime r.toNat (readReg r.toNat s) = readReg r.toNat s ||| (if r = 0x7B0 then 0x200 else 0) := by
  have hreg : r.toNat = 0x7B0 ↔ r = 0x7B0 := BitVec.toNat_inj (y := 0x7B0#16)
  rw [stopTime]
  by_cases h : r = 0x7B0
  · rw [if_pos (hreg.mpr h), if_pos h]
  · rw [if_neg (mt hreg.mp h), if_neg h]
    exact BitVec.or_zero.symm

theorem exec_abstractCommand_read {r : BitVec 16} (v : BitVec 64) (htap : tapOn s = true) (hlimited : limited s = false)
    (hhalted : s.dbg.halted = true) (hreg : isReg r.toNat = true) :
    let t : State := { s with dm.dmactive := true, dm.cmderr := 0 }
    let x := readReg r.toNat s ||| (if r = 0x7B0 then 0x200 else 0)
    exec (.abstractCommand false r v) s = .next (settle s (emit (.debugRead x) { t with dm.data := x })) := by
  intro t x
  rw [exec_abstractCommand_halted false v htap hlimited hhalted hreg, ← show stopTime _ _ = x from stopTime_readReg r s]
  rfl

/-- The limits of the lifecycle come before a running core. -/
theorem abstractError_of_refused (x : State) (h : limited s = true ∨ s.dbg.halted = false) :
    (if limited s then abstractError 2 (activeDm s) else if !s.dbg.halted then abstractError 4 (activeDm s) else x) =
      { s with dm.dmactive := true, dm.cmderr := if limited s then 2 else 4 } := by
  cases hlimited : limited s with
  | true => rfl
  | false =>
    rw [hlimited] at h
    rw [h.resolve_left Bool.false_ne_true]
    rfl

theorem exec_coreAccess_refused (w : Bool) (r : BitVec 16) (v : BitVec 64) (htap : tapOn s = true)
    (h : limited s = true ∨ s.dbg.halted = false) :
    let t : State := { s with dm.dmactive := true, dm.cmderr := if limited s then 2 else 4 }
    exec (.abstractCommand w r v) s = .next (settle s t) ∧ exec .programBufferExec s = .next (settle s t) := by
  rw [exec_abstractCommand, execAbstractCommand, exec_programBufferExec, execProgramBufferExec]
  refine ⟨done_eq ?_, done_eq ?_⟩
  · rw [debugDo_of_tapOn _ htap, limited_activeDm, halted_activeDm]
    exact abstractError_of_refused _ h
  · rw [debugDo_of_tapOn _ htap, limited_activeDm, halted_activeDm]
    exact abstractError_of_refused _ h

theorem exec_programBufferExec_halted (htap : tapOn s = true) (hlimited : limited s = false)
    (hhalted : s.dbg.halted = true) :
    let t := taint (openCore { s with dm.dmactive := true, dm.cmderr := 0 })
    exec .programBufferExec s = .next (settle s { t with
      dbg.sram := [],
      dbg.reg := if dpcSet s then [(0x7B1, some (Config.hartValue t.dbg.runs 0x7B1))] else [] }) := by
  rw [exec_programBufferExec, execProgramBufferExec]
  apply done_eq
  rw [debugDo_of_tapOn _ htap, limited_activeDm, halted_activeDm, hlimited, hhalted]
  rfl

end Core

/-- Settles O44: each clause is its command's lemma, on a core that may be accessed and on one that may not. -/
theorem debugCoreEventsComplete : Obligations.DebugCoreEventsComplete :=
  ⟨fun _ htap hlimited hhalted => exec_debugHalt_running htap hlimited hhalted,
   fun _ htap hlimited => exec_debugHalt_limited htap hlimited,
   fun _ htap hlimited hhalted hrun => exec_triggerHit_running htap hlimited hhalted hrun,
   fun _ htap hlimited hhalted =>
      ⟨exec_debugResume_halted htap hlimited hhalted, exec_debugStep_halted htap hlimited hhalted⟩,
   fun _ v _ htap hlimited hhalted hreg => ⟨exec_abstractCommand_halted true v htap hlimited hhalted hreg,
      exec_abstractCommand_read v htap hlimited hhalted hreg⟩,
   fun w r v _ htap h => exec_coreAccess_refused w r v htap h,
   fun _ htap hlimited hhalted => exec_programBufferExec_halted htap hlimited hhalted⟩

end Sys2Proof.Machine
end

section
/-!
PROOFS. The debug port: TAP instructions, scans and reset, ndmreset, dmactive, system bus access, checker locks and known-answer
tests (R769 to R773, R775, R776, R778, R792 to R794, R798; Tables 19-1 to 19-4).
-/
namespace Sys2Proof.Machine
open Sys2Proof

/-! ### The meaning of each command -/

theorem exec_tapInstruction (i : TapInput) (s : State) : exec (.tapInstruction i) s = execTapInstruction i s := rfl

theorem exec_tapReset (s : State) : exec .tapReset s = execTapReset s := rfl

theorem exec_ndmreset (s : State) : exec .ndmreset s = execNdmreset s := rfl

theorem exec_dmactiveClear (s : State) : exec .dmactiveClear s = execDmactiveClear s := rfl

theorem exec_sbaRead (x : SbAddress) (size : Nat) (s : State) : exec (.sbaRead x size) s = execSbaRead x size s := rfl

theorem exec_sbaWrite (x : SbAddress) (size : Nat) (v : Word) (s : State) :
    exec (.sbaWrite x size v) s = execSbaWrite x size v s := rfl

theorem exec_prbsCheckerLock (r : PrbsReport) (s : State) : exec (.prbsCheckerLock r) s = execPrbsCheckerLock r s := rfl

theorem exec_diagKatDone (pass : Bool) (s : State) : exec (.diagKatDone pass) s = execDiagKatDone pass s := rfl

section DebugPort

variable {s : State}

/-! ### The TAP (R769 to R772) -/

/-- Selecting an instruction touches the instruction register and the debounce of AUX inputs. -/
theorem setTap_parts (ir : BitVec 5) (s : State) : ∃ aux, setTap ir s = { s with dm.ir := ir, aux := aux } := by
  unfold setTap
  dsimp only
  split <;> exact ⟨_, rfl⟩

theorem setTap_ir (ir : BitVec 5) (s : State) : (setTap ir s).dm.ir = ir := by
  obtain ⟨_, h⟩ := setTap_parts ir s
  rw [h]

theorem exec_tapInstruction_select (ir : BitVec 5) (htap : tapOn s = true) :
    exec (.tapInstruction { ir := ir, scan := none }) s = .next (settle s (setTap (tapCode ir) s)) := by
  rw [exec_tapInstruction, execTapInstruction]
  exact done_if htap

theorem exec_tapInstruction_scan (ir : BitVec 5) (v : BitVec 120) (htap : tapOn s = true) :
    exec (.tapInstruction { ir := ir, scan := some v }) s = .next (settle s (tapScan v (setTap (tapCode ir) s))) := by
  rw [exec_tapInstruction, execTapInstruction]
  exact done_if htap

theorem tapCode_eq (ir : BitVec 5) :
    tapCode ir = if ir ∈ ([0x00, 0x01, 0x02, 0x08, 0x09, 0x10, 0x11] : List (BitVec 5)) then ir else 0x1F := by
  simp only [tapCode, List.contains_iff_mem]

/-- IDCODE (R770). -/
theorem tapScan_idcode {v : BitVec 120} (hir : s.dm.ir = 0x02) : tapScan v s = emit (.tdo 32 0x24812167) s := by
  have hid : idcode.setWidth 120 = (0x24812167 : BitVec 120) := by decide
  rw [tapScan, hir, hid]
  rfl

/-- EXTEST, and SAMPLE or PRELOAD, load the boundary register. -/
theorem tapScan_boundary {v : BitVec 120} (hir : s.dm.ir = 0x00 ∨ s.dm.ir = 0x01) :
    tapScan v s = { emit (.tdo 120 (freeScan 120 s).1) (freeScan 120 s).2 with dm.boundary := v } := if_pos hir

theorem tapScan_dmi {v : BitVec 120} (hir : s.dm.ir = 0x11) :
    tapScan v s = dmiWrite v (emit (.tdo 41 (freeScan 41 s).1) (freeScan 41 s).2) := by
  rw [tapScan, hir]
  rfl

/-! ### Writes by DMI scans (log 153) -/

/-- A DMI scan that writes `d` to register `a`. -/
def dmiScan (a : Nat) (d : Word) : BitVec 120 := BitVec.ofNat 120 (2 + 4 * d.toNat + 2 ^ 34 * a)

theorem field_dmiScan {a : Nat} (d : Word) (ha : a < 128) :
    field (dmiScan a d) 0 2 = 2 ∧ field (dmiScan a d) 2 32 = d.toNat ∧ field (dmiScan a d) 34 7 = a := by
  have hd := d.isLt
  simp only [field, dmiScan, BitVec.toNat_ofNat, Nat.shiftRight_eq_div_pow]
  omega

theorem dmiWrite_progbuf (k : Fin 4) (d : Word) (hlimited : limited s = false) :
    dmiWrite (dmiScan (0x20 + k.val) d) s =
      { s with dm.dmactive := true, dm.progbuf := upd s.dm.progbuf k (fun _ => d) } := by
  obtain ⟨hop, hdata, haddr⟩ := field_dmiScan d (show 0x20 + k.val < 128 by omega)
  rw [dmiWrite, hop, hdata, haddr, hlimited, BitVec.ofNat_toNat, BitVec.setWidth_eq]
  dsimp only
  rw [if_neg (by decide), if_pos (by omega), Nat.add_sub_cancel_left, updN_fin]

theorem dmiWrite_dmcontrol {d : Word} (hlimited : limited s = false) (hactive : d.getLsbD 0 = true) :
    dmiWrite (dmiScan 0x10 d) s = { s with
      dm.dmactive := true, dm.resetHalt := if d.getLsbD 2 then false else s.dm.resetHalt || d.getLsbD 3 } := by
  obtain ⟨hop, hdata, haddr⟩ := field_dmiScan d (show 0x10 < 128 by decide)
  rw [dmiWrite, hop, hdata, haddr, hlimited, BitVec.ofNat_toNat, BitVec.setWidth_eq]
  dsimp only
  rw [if_neg (by decide), if_neg (by decide), if_pos ⟨rfl, hactive⟩]

theorem dmiWrite_setResetHalt (hlimited : limited s = false) :
    dmiWrite (dmiScan 0x10 0x9) s = { s with dm.dmactive := true, dm.resetHalt := true } := by
  have hset : (if (0x9 : Word).getLsbD 2 then false else s.dm.resetHalt || (0x9 : Word).getLsbD 3) = true := Bool.or_true _
  rw [dmiWrite_dmcontrol hlimited rfl, hset]

theorem dmiWrite_clearResetHalt (hlimited : limited s = false) :
    dmiWrite (dmiScan 0x10 0x5) s = { s with dm.dmactive := true, dm.resetHalt := false } := by
  have hclear : (if (0x5 : Word).getLsbD 2 then false else s.dm.resetHalt || (0x5 : Word).getLsbD 3) = false := rfl
  rw [dmiWrite_dmcontrol hlimited rfl, hclear]

/-- What a DMI scan shifts out leaves the program buffer and the lifecycle. -/
theorem dmiCapture_parts (s : State) :
    let c := freeScan 41 (setTap 0x11 s)
    (emit (.tdo 41 c.1) c.2).dm.progbuf = s.dm.progbuf ∧ limited (emit (.tdo 41 c.1) c.2) = limited s := by
  obtain ⟨_, h⟩ := setTap_parts 0x11 s
  rw [h]
  exact ⟨rfl, rfl⟩

theorem exec_tapInstruction_dmi {v : BitVec 120} {t : State} (htap : tapOn s = true)
    (hwrite : dmiWrite v (emit (.tdo 41 (freeScan 41 (setTap 0x11 s)).1) (freeScan 41 (setTap 0x11 s)).2) = t) :
    exec (.tapInstruction { ir := 0x11, scan := some v }) s = .next (settle s t) := by
  rw [exec_tapInstruction_scan _ v htap, show tapCode 0x11 = 0x11 from rfl, tapScan_dmi (setTap_ir 0x11 s), hwrite]

/-! ### Resets of the TAP, of the chip and of the module (R771, R773, R792, R794) -/

theorem exec_tapReset_on (htap : tapOn s = true) :
    exec .tapReset s = .next (settle s (setTap 0x02 { s with dm.boundary := 0 })) := by
  rw [exec_tapReset, execTapReset]
  exact done_if htap

theorem exec_ndmreset_allowed (htap : tapOn s = true) (hlimited : limited s = false) :
    exec .ndmreset s = .next (settle s (enterReset 9 0 { s with dm.dmactive := true })) := by
  rw [exec_ndmreset, execNdmreset]
  apply done_eq
  rw [debugDo_of_tapOn _ htap, limited_activeDm, hlimited]
  rfl

theorem exec_dmactiveClear_on (htap : tapOn s = true) :
    exec .dmactiveClear s = .next (settle s { s with dm := { ir := s.dm.ir, boundary := s.dm.boundary } }) := by
  rw [exec_dmactiveClear, execDmactiveClear]
  exact done_if htap

/-! ### System bus access (R775, R776, R778) -/

/-- A read goes to the address given or held, which then moves on. -/
theorem exec_sbaRead_up (x : SbAddress) (size : Nat) (htap : tapOn s = true) (hup : originUp .debug s = true) :
    exec (.sbaRead x size) s =
      .next (settle s (sbaAdvance (sbaAt x s) (sbaAuto x) (sbaRead (sbaAt x s) size (activeDm s)))) := by
  have hat : sbaAt x (activeDm s) = sbaAt x s := rfl
  have hup' : originUp .debug (activeDm s) = true := hup
  rw [exec_sbaRead, execSbaRead]
  apply done_eq
  rw [debugDo_of_tapOn _ htap, hat, hup']
  rfl

theorem exec_sbaWrite_up (x : SbAddress) (size : Nat) (v : Word) (htap : tapOn s = true)
    (hup : originUp .debug s = true) :
    exec (.sbaWrite x size v) s =
      .next (settle s (sbaAdvance (sbaAt x s) (sbaAuto x) (sbaWrite (sbaAt x s) size v (activeDm s)))) := by
  have hat : sbaAt x (activeDm s) = sbaAt x s := rfl
  have hup' : originUp .debug (activeDm s) = true := hup
  rw [exec_sbaWrite, execSbaWrite]
  apply done_eq
  rw [debugDo_of_tapOn _ htap, hat, hup']
  rfl

/-- An aligned word of a BAR0 register is a good access that is none of SRAM. -/
theorem sbaBad_of_register {a : Nat} (halign : a % 4 = 0) (hlt : a < 0x10000) (himpl : implemented a = true) :
    inSram a = false ∧ sbaBad a 32 = none := by
  have hsram : inSram a = false := decide_eq_false (by omega)
  refine ⟨hsram, ?_⟩
  rw [sbaBad, if_neg (by decide), if_neg (not_not_intro halign), hsram, decide_eq_true hlt, himpl]
  rfl

theorem sbaBad_of_sram {a : Nat} (halign : a % 4 = 0) (hsram : inSram a = true) : sbaBad a 32 = none := by
  rw [sbaBad, if_neg (by decide), if_neg (not_not_intro halign), hsram]
  rfl

/-- Every error of Table 19-4 is a code other than 0. -/
theorem ne_zero_of_sbaBad {a size : Nat} {e : BitVec 3} (h : sbaBad a size = some e) : e ≠ 0 := by
  unfold sbaBad at h
  split at h
  · cases h; decide
  · split at h
    · cases h; decide
    · split at h
      · cases h; decide
      · cases h

theorem sbaRead_of_register {a : Nat} (halign : a % 4 = 0) (hlt : a < 0x10000) (himpl : implemented a = true) :
    sbaRead a 32 s = bar0Read .debug a { s with dm.sberror := 0, dm.sbdata := bar0View .debug a s } := by
  obtain ⟨hsram, hgood⟩ := sbaBad_of_register halign hlt himpl
  rw [sbaRead, hgood, hsram]
  rfl

theorem sbaWrite_of_register {a : Nat} {v : Word} (halign : a % 4 = 0) (hlt : a < 0x10000) (himpl : implemented a = true)
    (hmay : limited s = false ∨ limitedWritable a = true) :
    sbaWrite a 32 v s = bar0Write .debug a v { s with dm.sberror := 0 } := by
  obtain ⟨hsram, hgood⟩ := sbaBad_of_register halign hlt himpl
  have hopen : (limited s && !limitedWritable a) = false := by
    rcases hmay with h | h
    · rw [h]; rfl
    · rw [h]; exact Bool.and_false _
  rw [sbaWrite, hgood, hsram, hopen]
  rfl

theorem sbaRead_of_sram {a : Nat} (halign : a % 4 = 0) (hsram : inSram a = true) (hopen : sramReachable s = true) :
    sbaRead a 32 s = readSram a s := by
  rw [sbaRead, sbaBad_of_sram halign hsram, hsram, hopen]
  rfl

theorem sbaWrite_of_sram {a : Nat} {v : Word} (halign : a % 4 = 0) (hsram : inSram a = true)
    (hopen : sramReachable s = true) : sbaWrite a 32 v s = writeSram a v s := by
  rw [sbaWrite, sbaBad_of_sram halign hsram, hsram, hopen]
  rfl

/-- A failed access counts, and sbaddress0 holds its address. -/
theorem sbaAdvance_sbaError {a : Nat} {auto : Bool} {e : BitVec 3} (he : e ≠ 0) :
    sbaAdvance a auto (sbaError e s) = sbaError e { s with dm.sbaddress := BitVec.ofNat 32 a } := by
  have hstay : (auto && (sbaError e s).dm.sberror == 0) = false := by
    rw [show (sbaError e s).dm.sberror = e from rfl, beq_false_of_ne he, Bool.and_false]
  rw [sbaAdvance, hstay]
  rfl

theorem exec_sba_bad {x : SbAddress} {v : Word} {size : Nat} {e : BitVec 3} (htap : tapOn s = true)
    (hup : originUp .debug s = true) (hbad : sbaBad (sbaAt x s) size = some e) :
    let t := sbaError e { s with dm.dmactive := true, dm.sbaddress := BitVec.ofNat 32 (sbaAt x s) }
    exec (.sbaRead x size) s = .next (settle s t) ∧ exec (.sbaWrite x size v) s = .next (settle s t) := by
  have he : e ≠ 0 := ne_zero_of_sbaBad hbad
  rw [exec_sbaRead_up x size htap hup, exec_sbaWrite_up x size v htap hup, sbaRead, sbaWrite, hbad]
  dsimp only
  rw [sbaAdvance_sbaError he]
  exact ⟨rfl, rfl⟩

/-! ### Checkers and known-answer tests (R793, R798) -/

theorem exec_prbsCheckerLock_looped {lane errs : Nat} (hloop : ∃ t < 10, loopRuns t s = true ∧ lane ∈ loopLanes t) :
    exec (.prbsCheckerLock { lane := lane, errs := errs }) s = .next (settle s (count (0x9000 + 8 * lane) errs
      (if lane ∈ s.dbg.locked then s else { s with dbg.locked := s.dbg.locked ++ [lane] }))) := by
  have hany : (List.range 10).any (fun t => loopRuns t s && (loopLanes t).contains lane) = true := by
    simpa only [List.any_eq_true, List.mem_range, Bool.and_eq_true, List.contains_iff_mem] using hloop
  rw [exec_prbsCheckerLock, execPrbsCheckerLock]
  apply done_eq
  rw [if_pos hany]
  simp only [List.contains_iff_mem]

theorem exec_diagKatDone_due {pass : Bool} {t u : Nat} (hdue : katDue s = some (t, u)) (hrun : supRuns s = true) :
    exec (.diagKatDone pass) s = .next (settle s (completeTicket t rOk [w32 (b2n (!pass))] (
      if u < 16 then { s with cmp.engine := updN s.cmp.engine u (fun e => { e with off := !pass }) }
      else { s with cip.unit := updN s.cip.unit (u - 16) (fun e => { e with off := !pass }) }))) := by
  rw [exec_diagKatDone, execDiagKatDone]
  apply done_eq
  simp only [hdue, hrun]
  rfl

end DebugPort

/-- Settles O45: each clause is its command's lemma, for the register, the word or the error that it meets. -/
theorem debugPortEventsComplete : Obligations.DebugPortEventsComplete := by
  refine ⟨fun ir s htap => tapCode_eq ir ▸ exec_tapInstruction_select ir htap,
    fun ir v s htap => exec_tapInstruction_scan ir v htap, ?idcode, ?boundary, ?dmi,
    fun s htap => exec_tapReset_on htap, fun s htap hlimited => exec_ndmreset_allowed htap hlimited,
    fun s htap => exec_dmactiveClear_on htap, ?readRegister, ?writeRegister, ?sram,
    fun x v size e s htap hup hbad => exec_sba_bad htap hup hbad,
    fun lane errs s hloop => exec_prbsCheckerLock_looped hloop,
    fun pass t u s hdue hrun => exec_diagKatDone_due hdue hrun⟩
  case idcode =>
    intro v s htap
    rw [exec_tapInstruction_scan _ v htap, show tapCode 0x02 = 0x02 from rfl, tapScan_idcode (setTap_ir 0x02 s)]
  case boundary =>
    intro ir v s htap hir c
    have hcode : tapCode ir = ir := by rcases hir with rfl | rfl <;> rfl
    rw [exec_tapInstruction_scan _ v htap, hcode, tapScan_boundary (by rw [setTap_ir]; exact hir)]
  case dmi =>
    intro w k s htap hlimited c scan
    obtain ⟨hprogbuf, hlife⟩ := dmiCapture_parts s
    rw [hlimited] at hlife
    refine ⟨?progbuf, exec_tapInstruction_dmi htap (dmiWrite_setResetHalt hlife),
      exec_tapInstruction_dmi htap (dmiWrite_clearResetHalt hlife)⟩
    case progbuf =>
      rw [← hprogbuf]
      exact exec_tapInstruction_dmi htap (dmiWrite_progbuf k w hlife)
  case readRegister =>
    rintro x a s htap hup rfl halign hlt himpl t
    rw [exec_sbaRead_up x 32 htap hup, sbaRead_of_register halign hlt himpl]
    rfl
  case writeRegister =>
    rintro x a v s htap hup rfl halign hlt himpl hmay
    rw [exec_sbaWrite_up x 32 v htap hup, sbaWrite_of_register (s := activeDm s) halign hlt himpl hmay]
    rfl
  case sram =>
    rintro x a v s htap hup rfl hsram halign hhalted hlimited
    have hopen : sramReachable (activeDm s) = true := by
      rw [sramReachable, halted_activeDm, limited_activeDm, hhalted, hlimited]
      rfl
    rw [exec_sbaRead_up x 32 htap hup, sbaRead_of_sram halign hsram hopen, exec_sbaWrite_up x 32 v htap hup,
      sbaWrite_of_sram halign hsram hopen]
    exact ⟨rfl, rfl⟩

end Sys2Proof.Machine
end

section
/-!
PROOFS. The C1 code (R531, R532): a bit string as numbers and as columns of 256 bits, and the checks that a codeword's parity
columns meet.
-/
namespace Sys2Proof.Machine
open Sys2Proof Sys2Proof.Claims

/-! ### Bytes, numbers and their bits -/

theorem length_leBytes (n v : Nat) : (leBytes n v).length = n := by
  induction n generalizing v with
  | zero => rfl
  | succ n ih => rw [leBytes, List.length_cons, ih]

theorem leNat_leBytes (n v : Nat) : leNat (leBytes n v) = v % 256 ^ n := by
  induction n generalizing v with
  | zero => rw [leBytes, leNat, pow_zero, Nat.mod_one]
  | succ n ih =>
    rw [leBytes, leNat, ih, BitVec.toNat_ofNat, pow_succ' 256 n, Nat.mod_mul]

/-- Bit `u` of the number that bytes spell is bit u mod 8 of byte u div 8. -/
theorem testBit_leNat (bs : List Byte) (u : Nat) : (leNat bs).testBit u = codewordBit bs u := by
  induction bs generalizing u with
  | nil => simp [leNat, codewordBit]
  | cons b bs ih =>
    rw [leNat, Nat.add_comm, show (256 : Nat) = 2 ^ 8 from rfl, Nat.testBit_two_pow_mul_add _ b.isLt]
    split
    case isTrue hlow => rw [codewordBit, Nat.div_eq_of_lt hlow, Nat.mod_eq_of_lt hlow]; rfl
    case isFalse hhigh =>
      obtain ⟨k, rfl⟩ := Nat.exists_eq_add_of_le (Nat.le_of_not_lt hhigh)
      rw [Nat.add_sub_cancel_left, ih, codewordBit, codewordBit, Nat.add_mod_left, Nat.add_comm 8 k,
        Nat.add_div_right k (by decide), List.getD_cons_succ]

theorem getD_slice (bs : List Byte) (off : Nat) {len k : Nat} (hk : k < len) :
    (slice bs off len).getD k 0 = bs.getD (off + k) 0 := by
  rw [slice, List.getD_eq_getElem?_getD, List.getD_eq_getElem?_getD, List.getElem?_append]
  split
  case isTrue hin => rw [List.getElem?_take_of_lt hk, List.getElem?_drop]
  case isFalse hpast =>
    have hend : bs.length ≤ off + k := by
      simp only [List.length_take, List.length_drop] at hpast
      omega
    rw [List.getElem?_eq_none hend, List.getElem?_replicate]
    split <;> rfl

/-- Bit `u` of a block column is bit 256j + u of the bit string (R531). -/
theorem getLsbD_c1Column (cw : List Byte) (j : Nat) {u : Nat} (hu : u < 256) :
    (c1Column cw j).getLsbD u = codewordBit cw (256 * j + u) := by
  have hbyte : (256 * j + u) / 8 = 32 * j + u / 8 := by omega
  have hbit : (256 * j + u) % 8 = u % 8 := by omega
  rw [c1Column, BitVec.getLsbD_ofNat, decide_eq_true hu, Bool.true_and, leAt, testBit_leNat, codewordBit, codewordBit,
    getD_slice cw _ (by omega : u / 8 < 32), hbyte, hbit]

theorem getLsbD_c1Perm (s : Nat) (y : BitVec 256) {t : Nat} (ht : t < 256) :
    (c1Perm s y).getLsbD t = y.getLsbD ((t + s) % 256) := by
  rw [c1Perm, BitVec.getLsbD_rotateRight]
  by_cases hlow : t < 256 - s % 256
  · rw [decide_eq_true hlow, cond_true, show s % 256 + t = (t + s) % 256 by omega]
  · rw [decide_eq_false hlow, cond_false, decide_eq_true ht, Bool.true_and,
      show t - (256 - s % 256) = (t + s) % 256 by omega]

/-! ### The sum of a base row's columns -/

/-- The sum over GF(2) of block columns of a bit string, each permuted by its shift. -/
def columnSum (cw : List Byte) (row : List (Nat × Nat)) (acc : BitVec 256) : BitVec 256 :=
  row.foldl (fun acc e => acc ^^^ c1Perm e.2 (c1Column cw e.1)) acc

theorem getLsbD_columnSum (cw : List Byte) (row : List (Nat × Nat)) (acc : BitVec 256) {t : Nat} (ht : t < 256) :
    (columnSum cw row acc).getLsbD t =
      row.foldl (fun acc e => acc ^^ codewordBit cw (256 * e.1 + (t + e.2) % 256)) (acc.getLsbD t) := by
  induction row generalizing acc with
  | nil => rfl
  | cons e row ih =>
    rw [columnSum, List.foldl_cons, List.foldl_cons, ← columnSum, ih, BitVec.getLsbD_xor, getLsbD_c1Perm _ _ ht,
      getLsbD_c1Column cw e.1 (Nat.mod_lt _ (by decide))]

/-- The columns of base row `i` sum to the model's own checks of that row. -/
theorem columnSum_c1Row (cw : List Byte) {i : Nat} (hi : i < 4) : columnSum cw (c1Row i) 0 = c1Check cw i := by
  rw [columnSum, c1Row, List.foldl_append, List.foldl_map]
  interval_cases i <;> rfl

/-! ### The codeword and its columns -/

theorem slice_append_left (a b : List Byte) {off len : Nat} (h : off + len ≤ a.length) :
    slice (a ++ b) off len = slice a off len := by
  have hle : len ≤ (a.drop off).length := by rw [List.length_drop]; omega
  rw [slice, slice, List.drop_append_of_le_length (by omega), List.take_append_of_le_length hle]

theorem slice_append_right (a b : List Byte) (off len : Nat) : slice (a ++ b) (a.length + off) len = slice b off len := by
  rw [slice, slice, List.drop_append, List.drop_eq_nil_of_le (by omega), List.nil_append, Nat.add_sub_cancel_left]

theorem slice_left (a b : List Byte) : slice (a ++ b) 0 a.length = a := by
  rw [slice, List.drop_zero, List.take_left, Nat.sub_self, List.replicate_zero, List.append_nil]

/-- Columns written one after another as bytes. -/
def columnBytes (ps : List (BitVec 256)) : List Byte := ps.flatMap (fun p => leBytes 32 p.toNat)

theorem c1Codeword_eq (info : List Byte) : c1Codeword info = info ++ columnBytes (c1Parity info) := rfl

theorem length_columnBytes (ps : List (BitVec 256)) : (columnBytes ps).length = 32 * ps.length := by
  induction ps with
  | nil => rfl
  | cons p ps ih =>
    rw [columnBytes, List.flatMap_cons, ← columnBytes, List.length_append, ih, length_leBytes, List.length_cons]
    omega

theorem slice_columnBytes (ps : List (BitVec 256)) (i : Nat) (hi : i < ps.length) :
    slice (columnBytes ps) (32 * i) 32 = leBytes 32 ps[i].toNat := by
  induction ps generalizing i with
  | nil => exact absurd hi (Nat.not_lt_zero i)
  | cons p ps ih =>
    have hlen : (leBytes 32 p.toNat).length = 32 := length_leBytes 32 _
    rw [columnBytes, List.flatMap_cons, ← columnBytes]
    cases i with
    | zero => exact hlen ▸ slice_left (leBytes 32 p.toNat) (columnBytes ps)
    | succ i =>
      have hoff : 32 * (i + 1) = (leBytes 32 p.toNat).length + 32 * i := by rw [hlen]; omega
      rw [hoff, slice_append_right, ih i (by simpa using hi), List.getElem_cons_succ]

section Codeword
variable {info : List Byte} (hinfo : info.length = 1024)
include hinfo

theorem c1Column_c1Codeword_info {k : Nat} (hk : k < 32) : c1Column (c1Codeword info) k = c1Column info k := by
  rw [c1Column, c1Column, leAt, leAt, c1Codeword_eq, slice_append_left _ _ (by omega)]

theorem c1Column_c1Codeword_parity {i : Nat} (hi : i < (c1Parity info).length) :
    c1Column (c1Codeword info) (32 + i) = (c1Parity info)[i] := by
  have hoff : 32 * (32 + i) = info.length + 32 * i := by omega
  rw [c1Column, leAt, c1Codeword_eq, hoff, slice_append_right, slice_columnBytes _ i hi, leNat_leBytes,
    show (256 : Nat) ^ 32 = 2 ^ 256 from rfl, Nat.mod_eq_of_lt (BitVec.isLt _), BitVec.ofNat_toNat, BitVec.setWidth_eq]

theorem c1Lambda_c1Codeword (i : Nat) : c1Lambda (c1Codeword info) i = c1Lambda info i :=
  List.foldl_ext _ _ _ fun _ _ hk => by rw [c1Column_c1Codeword_info hinfo (List.mem_range.mp hk)]

end Codeword

/-- What the last base row sums to: each λ and each parity column stands in it twice. -/
theorem last_row_cancels (l0 l1 l2 l3 y : BitVec 256) :
    l3 ^^^ y ^^^ (l2 ^^^ (l0 ^^^ l1 ^^^ l2 ^^^ l3) ^^^ (l1 ^^^ (l0 ^^^ y))) = 0 := by
  refine BitVec.eq_of_getLsbD_eq fun t _ => ?_
  simp only [BitVec.getLsbD_xor]
  cases l0.getLsbD t <;> cases l1.getLsbD t <;> cases l2.getLsbD t <;> cases l3.getLsbD t <;> cases y.getLsbD t <;> simp

theorem c1Perm_zero (y : BitVec 256) : c1Perm 0 y = y :=
  BitVec.eq_of_getLsbD_eq fun t ht => by rw [getLsbD_c1Perm 0 y ht, Nat.add_zero, Nat.mod_eq_of_lt ht]

/-- A codeword meets the model's own checks (R532). -/
theorem c1Check_c1Codeword {info : List Byte} (hinfo : info.length = 1024) {i : Nat} (hi : i < 4) :
    c1Check (c1Codeword info) i = 0 := by
  have hcol : ∀ j (hj : j < 4), c1Column (c1Codeword info) (32 + j) = (c1Parity info)[j]'hj :=
    fun j hj => c1Column_c1Codeword_parity hinfo hj
  have hsum := c1Lambda_c1Codeword hinfo i
  interval_cases i
  · change c1Lambda (c1Codeword info) 0 ^^^ c1Perm 1 (c1Column _ (32 + 0)) ^^^ c1Perm 0 (c1Column _ (32 + 1)) = 0
    rw [hsum, hcol 0 (by decide), hcol 1 (by decide), c1Perm_zero]
    exact BitVec.xor_self
  · change c1Lambda (c1Codeword info) 1 ^^^ c1Perm 0 (c1Column _ (32 + 1)) ^^^ c1Perm 0 (c1Column _ (32 + 2)) = 0
    rw [hsum, hcol 1 (by decide), hcol 2 (by decide), c1Perm_zero, c1Perm_zero]
    exact BitVec.xor_self
  · change c1Lambda (c1Codeword info) 2 ^^^ c1Perm 0 (c1Column _ (32 + 0)) ^^^ c1Perm 0 (c1Column _ (32 + 2)) ^^^
      c1Perm 0 (c1Column _ (32 + 3)) = 0
    rw [hsum, hcol 0 (by decide), hcol 2 (by decide), hcol 3 (by decide), c1Perm_zero, c1Perm_zero, c1Perm_zero]
    exact BitVec.xor_self
  · change c1Lambda (c1Codeword info) 3 ^^^ c1Perm 1 (c1Column _ (32 + 0)) ^^^ c1Perm 0 (c1Column _ (32 + 3)) = 0
    rw [hsum, hcol 0 (by decide), hcol 3 (by decide), c1Perm_zero]
    exact last_row_cancels _ _ _ _ _

/-- Settles O8: bit t of the sum of a base row's columns is the row's check t, and a codeword's columns sum to zero. -/
theorem c1CodewordMeetsEveryCheck : Obligations.C1CodewordMeetsEveryCheck := by
  intro info hinfo
  refine ⟨?length, ?information, fun i hi t ht => ?check⟩
  case length => rw [c1Codeword_eq, List.length_append, hinfo, length_columnBytes]; rfl
  case information => rw [c1Codeword_eq, ← hinfo, List.take_left]
  case check =>
    have hbits := getLsbD_columnSum (c1Codeword info) (c1Row i) 0 ht
    rw [columnSum_c1Row _ hi, c1Check_c1Codeword hinfo hi, show (0 : BitVec 256).getLsbD t = false from BitVec.getLsbD_zero]
      at hbits
    exact hbits.symm

end Sys2Proof.Machine
end

section
/-!
PROOFS. The 32/33 channel code (R529): `endings` counts the endings that are valid after a run of 0s, so that `channelRank`
gives a word its place among the valid words, and `channelBits` the word of a place.
-/
namespace Sys2Proof.Machine
open Sys2Proof Sys2Proof.Claims

/-! ### The words of one length -/

theorem mem_allWords {n : Nat} {w : List Bool} : w ∈ allWords n ↔ w.length = n := by
  induction n generalizing w with
  | zero => simp [allWords]
  | succ n ih => cases w with
    | nil => simp [allWords]
    | cons b w => cases b <;> simp [allWords, ih]

/-- How many words of `n` bits have a property. -/
def wordCount (n : Nat) (p : List Bool → Bool) : Nat := ((allWords n).filter p).length

theorem wordCount_zero (p : List Bool → Bool) : wordCount 0 p = if p [] then 1 else 0 := by
  rw [wordCount, allWords, List.filter_singleton]
  cases p [] <;> rfl

theorem wordCount_succ (n : Nat) (p : List Bool → Bool) :
    wordCount (n + 1) p = wordCount n (fun v => p (false :: v)) + wordCount n (fun v => p (true :: v)) := by
  rw [wordCount, allWords, List.filter_append, List.length_append, List.filter_map, List.filter_map, List.length_map,
    List.length_map]
  rfl

theorem wordCount_congr {n : Nat} {p q : List Bool → Bool} (h : ∀ w, w.length = n → p w = q w) :
    wordCount n p = wordCount n q :=
  congrArg List.length (List.filter_congr fun w hw => h w (mem_allWords.mp hw))

theorem wordCount_false (n : Nat) : wordCount n (fun _ => false) = 0 := by
  rw [wordCount, List.filter_false]
  rfl

/-! ### The endings that are valid after a run of 0s -/

/-- The word is a valid ending after a run of `r` 0s. -/
def validEnding (r : Nat) (w : List Bool) : Bool := (channelRank w r).isSome

theorem validEnding_nil (r : Nat) : validEnding r [] = decide (r ≤ 6) := by
  rw [validEnding, channelRank]
  split <;> simp_all

theorem validEnding_zero (r : Nat) (w : List Bool) :
    validEnding r (false :: w) = (decide (r < 13) && validEnding (r + 1) w) := by
  rw [validEnding, channelRank]
  split <;> simp_all [validEnding]

theorem validEnding_one (r : Nat) (w : List Bool) : validEnding r (true :: w) = validEnding 0 w := by
  rw [validEnding, channelRank, Option.isSome_map, validEnding]

/-- The count of endings that begin with a 0, as the table's users take it. -/
def zeroEndings (m r : Nat) : Nat := if r < 13 then (endings m).getD (r + 1) 0 else 0

theorem endings_zero {r : Nat} (hr : r ≤ 13) : (endings 0).getD r 0 = if r ≤ 6 then 1 else 0 := by
  simp [endings, Nat.lt_succ_of_le hr]

theorem endings_succ (m : Nat) {r : Nat} (hr : r ≤ 13) :
    (endings (m + 1)).getD r 0 = (endings m).getD 0 0 + zeroEndings m r := by
  rw [endings, List.getD_eq_getElem?_getD, List.getElem?_map, List.getElem?_range (Nat.lt_succ_of_le hr)]
  rfl

/-- Row m of the table N counts the valid endings of m bits (R529). -/
theorem endings_eq_wordCount (m : Nat) {r : Nat} (hr : r ≤ 13) :
    (endings m).getD r 0 = wordCount m (validEnding r) := by
  induction m generalizing r with
  | zero => simp only [endings_zero hr, wordCount_zero, validEnding_nil, decide_eq_true_eq]
  | succ m ih =>
    simp only [endings_succ m hr, wordCount_succ, validEnding_zero, validEnding_one, zeroEndings]
    rw [ih (Nat.zero_le 13), Nat.add_comm]
    congr 1
    split
    case isTrue hlt => rw [ih hlt, decide_eq_true hlt]; rfl
    case isFalse hge => simp only [decide_eq_false hge, Bool.false_and, wordCount_false]

theorem zeroEndings_eq_wordCount (m : Nat) (r : Nat) :
    zeroEndings m r = wordCount m (fun v => validEnding r (false :: v)) := by
  simp only [zeroEndings, validEnding_zero]
  split
  case isTrue hlt => rw [endings_eq_wordCount m hlt, decide_eq_true hlt]; rfl
  case isFalse hge => simp only [decide_eq_false hge, Bool.false_and, wordCount_false]

/-! ### The rank of an ending, and the ending of a rank -/

theorem channelRank_zero (r : Nat) (w : List Bool) :
    channelRank (false :: w) r = if r < 13 then channelRank w (r + 1) else none := rfl

theorem channelRank_one (r : Nat) (w : List Bool) :
    channelRank (true :: w) r = (channelRank w 0).map (· + zeroEndings w.length r) := rfl

/-- A valid ending's rank is the number of valid endings that stand before it. -/
theorem channelRank_eq_wordCount {w : List Bool} {r n : Nat} (hr : r ≤ 13) (hrank : channelRank w r = some n) :
    n = wordCount w.length (fun v => validEnding r v && Claims.precedes v w) := by
  induction w generalizing r n with
  | nil =>
    have hn : 0 = n := by
      rw [channelRank] at hrank
      split at hrank
      · exact Option.some.inj hrank
      · cases hrank
    rw [← hn, List.length_nil, wordCount_zero, Claims.precedes, Bool.and_false]
    · rfl
    · simp
  | cons b w ih => cases b with
    | false =>
      rw [channelRank_zero] at hrank
      split at hrank
      case isTrue hlt =>
        simp [List.length_cons, wordCount_succ, validEnding_zero, Claims.precedes, wordCount_false, hlt, ih hlt hrank]
      case isFalse => cases hrank
    | true =>
      rw [channelRank_one] at hrank
      obtain ⟨k, hk, rfl⟩ := Option.map_eq_some_iff.mp hrank
      rw [List.length_cons, wordCount_succ, zeroEndings_eq_wordCount, ih (Nat.zero_le 13) hk, Nat.add_comm]
      simp [Claims.precedes, validEnding_one]

theorem channelBits_succ (n r x : Nat) : channelBits (n + 1) r x =
    if x < zeroEndings n r then false :: channelBits n (r + 1) x else true :: channelBits n 0 (x - zeroEndings n r) := rfl

theorem length_channelBits (n r x : Nat) : (channelBits n r x).length = n := by
  induction n generalizing r x with
  | zero => rfl
  | succ n ih =>
    rw [channelBits_succ]
    split <;> rw [List.length_cons, ih]

/-- The ending written for a rank has that rank. -/
theorem channelRank_channelBits {n r x : Nat} (hr : r ≤ 13) (hx : x < (endings n).getD r 0) :
    channelRank (channelBits n r x) r = some x := by
  induction n generalizing r x with
  | zero =>
    rw [endings_zero hr] at hx
    rw [channelBits, channelRank]
    split at hx
    case isTrue hshort => rw [if_pos hshort, Nat.lt_one_iff.mp hx]
    case isFalse => exact absurd hx (Nat.not_lt_zero x)
  | succ n ih =>
    rw [endings_succ n hr] at hx
    rw [channelBits_succ]
    split
    case isTrue hzero =>
      have hlt : r < 13 := by
        by_contra hge
        rw [zeroEndings, if_neg hge] at hzero
        exact Nat.not_lt_zero x hzero
      rw [zeroEndings, if_pos hlt] at hzero
      rw [channelRank_zero, if_pos hlt, ih hlt hzero]
    case isFalse hone =>
      rw [channelRank_one, length_channelBits, ih (Nat.zero_le 13) (by omega), Option.map_some,
        Nat.sub_add_cancel (Nat.le_of_not_lt hone)]

/-! ### The valid words -/

/-- How many 0s stand at the front of a word. -/
def leadingZeros (w : List Bool) : Nat := (w.takeWhile (fun b => !b)).length

/-- Whatever run stands before a word, that run and the word's own leading 0s are what it adds to the word's own runs. -/
theorem runsWithin_after {k r : Nat} (hr : r ≤ k) (q : Nat) (hq : q ≤ r) (w : List Bool) :
    runsWithin k r w = (decide (r + leadingZeros w ≤ k) && runsWithin k q w) := by
  induction w generalizing r q with
  | nil => simp [runsWithin, leadingZeros, hr]
  | cons b w ih => cases b with
    | true => simp [runsWithin, leadingZeros, hr]
    | false =>
      have hlead : leadingZeros (false :: w) = leadingZeros w + 1 := rfl
      rw [runsWithin, runsWithin, hlead]
      by_cases hlt : r < k
      case pos =>
        rw [ih hlt (q + 1) (Nat.succ_le_succ hq), decide_eq_true hlt, decide_eq_true (Nat.lt_of_le_of_lt hq hlt),
          Bool.true_and, Bool.true_and, show r + 1 + leadingZeros w = r + (leadingZeros w + 1) by omega]
      case neg =>
        rw [decide_eq_false hlt, decide_eq_false (by omega), Bool.false_and, Bool.false_and]

/-- How many 0s stand at the end of a word. -/
def trailingZeros (w : List Bool) : Nat := leadingZeros w.reverse

theorem trailingZeros_replicate (r : Nat) : trailingZeros (List.replicate r false) = r := by
  simp [trailingZeros, leadingZeros]

theorem trailingZeros_after_one (v w : List Bool) : trailingZeros (v ++ true :: w) = trailingZeros w := by
  rw [trailingZeros, trailingZeros, leadingZeros, leadingZeros, List.reverse_append, List.reverse_cons, List.append_assoc,
    List.takeWhile_append]
  split
  case isTrue hall => simp [hall]
  case isFalse => rfl

/-- 0s in front of a word of more than `k` bits do not make its end one of at most `k` 0s, nor the other way round. -/
theorem trailingZeros_replicate_append (r : Nat) {k : Nat} {w : List Bool} (hk : k < w.length) :
    decide (trailingZeros (List.replicate r false ++ w) ≤ k) = decide (trailingZeros w ≤ k) := by
  rw [trailingZeros, trailingZeros, leadingZeros, leadingZeros, List.reverse_append, List.takeWhile_append]
  split
  case isTrue hall =>
    rw [List.length_append, hall, List.length_reverse, decide_eq_false (by omega), decide_eq_false (by omega)]
  case isFalse => rfl

/-- An ending is valid where no run goes past 13 and the whole, the run before it included, ends in at most 6 0s. -/
theorem validEnding_eq (r : Nat) (w : List Bool) :
    validEnding r w = (runsWithin 13 r w && decide (trailingZeros (List.replicate r false ++ w) ≤ 6)) := by
  induction w generalizing r with
  | nil => rw [validEnding_nil, runsWithin, List.append_nil, trailingZeros_replicate, Bool.true_and]
  | cons b w ih => cases b with
    | false => rw [validEnding_zero, runsWithin, ih, Bool.and_assoc, List.replicate_succ', List.append_assoc]; rfl
    | true => rw [validEnding_one, runsWithin, ih, trailingZeros_after_one]; rfl

/-- A word of more than 6 bits is valid where it is a valid ending after 7 0s: 6 more reach the limit of 13. -/
theorem validWord_eq {w : List Bool} (hw : 6 < w.length) : validWord w = validEnding 7 w := by
  have hlead : decide (7 + leadingZeros w ≤ 13) = decide (leadingZeros w ≤ 6) := by congr 1; simp; omega
  rw [validEnding_eq, runsWithin_after (by decide : 7 ≤ 13) 0 (Nat.zero_le 7), trailingZeros_replicate_append 7 hw, hlead,
    Bool.and_right_comm]
  rfl

/-- The rank among the words of 33 bits is the one that the decoder finds. -/
theorem wordRank_of_channelRank {w : List Bool} {n : Nat} (hw : w.length = 33) (hrank : channelRank w 7 = some n) :
    wordRank w = n := by
  rw [channelRank_eq_wordCount (by decide) hrank]
  refine wordCount_congr fun v hv => ?_
  rw [validWord_eq (by omega)]

/-- There are valid words of 33 bits for all the values of 32. -/
theorem valid_words_suffice : 2 ^ 32 ≤ (endings 33).getD 7 0 := by decide +kernel

/-- Settles O7: a word of 33 bits is valid where `channelRank` gives it a rank, which is its place among the valid words, and
the word written for x has rank x. -/
theorem channelWordIsTheValidWordOfItsRank : Obligations.ChannelWordIsTheValidWordOfItsRank := by
  refine ⟨fun x => ?encode, fun w hw => ?decode⟩
  case encode =>
    have hlen : (channelWord x).length = 33 := length_channelBits 33 7 x.toNat
    have hrank : channelRank (channelWord x) 7 = some x.toNat :=
      channelRank_channelBits (by decide) (Nat.lt_of_lt_of_le x.isLt valid_words_suffice)
    refine ⟨hlen, ?valid, wordRank_of_channelRank hlen hrank, ?round⟩
    case valid => rw [validWord_eq (by omega), validEnding, hrank]; rfl
    case round => simp [unchannel, hrank, x.isLt]
  case decode =>
    rw [validWord_eq (by omega), validEnding, unchannel]
    cases hrank : channelRank w 7 with
    | none => rfl
    | some n => simp [wordRank_of_channelRank hw hrank]

end Sys2Proof.Machine
end
